-- ==== Sys2Proof/Word.lean ====
section
/-! DEFINITION. Word types and the plainest arithmetic on them (spec 00 R3-R5, 03 R45). -/

namespace Sys2Proof

/-- One byte (R5: the device is little-endian). -/
abbrev Byte := BitVec 8
/-- A 32-bit syllable, lane or base. -/
abbrev W32 := BitVec 32
/-- A 64-bit scalar register, address or 64-bit syllable. -/
abbrev W64 := BitVec 64
/-- A vector register: 64 lanes of 32 bits, lane 0 in the lowest bits (R5, R45). -/
abbrev VRow := BitVec 2048
/-- One row of 128 accumulator cells of 256 bits (R45). -/
abbrev ARow := BitVec 32768
/-- One edge scale latch: 128 bytes (R45). -/
abbrev Latch := BitVec 1024
/-- A 256-bit accumulator cell (R79). -/
abbrev Wide := BitVec 256

/-- A register file or a memory: the (number, value) pairs that differ from zero, numbers strictly rising. -/
abbrev Cells (w : Nat) := List (Nat × BitVec w)

/-- Bytes of a memory: `Host.Cell` pairs in the canonical form of `Cells`. -/
abbrev Memory := Cells 8

/-- `n` bits of `w` from bit `lo` upwards. -/
def bits (w lo n : Nat) : Nat := w / 2 ^ lo % 2 ^ n

/-- Bit `k` of `w`. -/
def bitAt (w k : Nat) : Bool := w / 2 ^ k % 2 == 1

/-- A Boolean as a number. -/
def b2n (b : Bool) : Nat := if b then 1 else 0

end Sys2Proof
end

