-- ==== Sys2Proof/Config.lean ====
section
/-! DEFINITION. What the spec leaves open: free values without a body (00 R11, 13 R284; log entries 7 and 8),
and the facts of an implementation that the spec names without giving them. -/

namespace Sys2Proof.Config

/-- An unpredictable vector register after kernel start number `k` (R284, R11): side (false VA, true VB), register. -/
opaque freeRow : Nat → Bool → Nat → VRow
/-- An unpredictable mask register after kernel start `k` (R284). -/
opaque freeMask : Nat → Bool → Nat → W64
/-- An unpredictable accumulator row (0-127 acc0, 128-255 acc1) after kernel start `k` (R284). -/
opaque freeAcc : Nat → Nat → ARow
/-- An unpredictable byte of a scratch tile at kernel start `k` (R284). -/
opaque freeByte : Nat → Nat → Byte
/-- The SLH-DSA-SHAKE-256s verification of a firmware or boot image against the fused key digest (R310, R362). -/
opaque imageSignatureValid : BitVec 512 → BitVec 512 → Bool
/-- The digest of what firmware core `f` runs, as the bank measured at boot gives it (R311). -/
opaque bootDigest : Nat → BitVec 512
/-- A fresh key of the root of trust's random source (R307): fill number. -/
opaque freshKey : Nat → BitVec 512
/-- The signature of a SPDM response under the device identity key (R311). -/
opaque deviceSignature : BitVec 512 → BitVec 512
/-- The certificate chain of certificate slot 0 (R311), as bytes. -/
opaque certificateChain : Nat → List Byte
/-- The responder's share of a secp384r1 key exchange (R311). -/
opaque keyExchangeShare : BitVec 768 → BitVec 768
/-- A sensor reading of a telemetry record type (R361): type, tick. -/
opaque sensorReading : Nat → Nat → List Byte
/-- The fused identity fields of the module (R349) other than those the manual fixes: byte offset. -/
opaque identityByte : Nat → Byte
/-- Base value of an in-flight latency choice: whether the two parts of a failing copy have landed (R211). -/
opaque failedCopyByte : Nat → Nat → Bool
/-- Bytes that a matrix pipe or a transfer reads from another package (the package at the other end is not part of the machine; log entry 16):
number of the read, byte. -/
opaque peerByte : Nat → Nat → Byte
/-- The format byte of a unit that is read from another package (log entry 16): number of the read, unit. -/
opaque peerFormat : Nat → Nat → Byte

/-- tw.sd, tw.shape and tw.desc of a child tile word, which name the issuing sequencer's staging memory (13 R277): number of the child. -/
opaque childOperands : Nat → BitVec 97
/-- The descriptor block of a child tile word, which names the staged copies (13 R277): number of the child. -/
opaque childBlock : Nat → BitVec 512

end Sys2Proof.Config
end

