-- ==== Sys2Proof/Syntax.lean ====
section
/-! DEFINITION. The whole syntax: one constructor of `Instr` for each row of the opcode table. The syllables (S, L, K, VA/VB, M, C0/C1)
carry operand structures whose fields have the widths of their layouts (03 R50-R56); the steps of the part carry what singles the step out
(95_what_each_step_holds.md names what comes about inside each step). -/

namespace Sys2Proof

/-- VA or VB, C0 or C1: `a` is the first of the pair. -/
inductive Side | a | b
  deriving DecidableEq, Repr

/-- S register format (R50). -/
structure SR where
  g : BitVec 4
  rd : BitVec 6
  ra : BitVec 6
  rb : BitVec 6
  deriving DecidableEq, Repr

/-- S register format of a unary operation (R50, R100). -/
structure SU where
  g : BitVec 4
  rd : BitVec 6
  ra : BitVec 6
  deriving DecidableEq, Repr

/-- S format with an 8-bit immediate (R50). -/
structure SI where
  g : BitVec 4
  rd : BitVec 6
  ra : BitVec 6
  imm : BitVec 8
  deriving DecidableEq, Repr

/-- S format with a 14-bit immediate; rd is also the first source (R50). -/
structure SJ where
  g : BitVec 4
  rd : BitVec 6
  imm : BitVec 14
  deriving DecidableEq, Repr

/-- movk.h4: an 8-bit part (R101). -/
structure SK where
  g : BitVec 4
  rd : BitVec 6
  imm : BitVec 8
  deriving DecidableEq, Repr

/-- S memory format (R50). -/
structure SM where
  g : BitVec 4
  r : BitVec 6
  b : BitVec 3
  off : BitVec 11
  deriving DecidableEq, Repr

/-- lop3 (R51): truth table bits 7:6 in th, 5:0 in tl; no guard. -/
structure Lop where
  th : BitVec 2
  rd : BitVec 6
  ra : BitVec 6
  rb : BitVec 6
  tl : BitVec 6
  deriving DecidableEq, Repr

/-- fset with an immediate (R50). -/
structure SF where
  g : BitVec 4
  slot : BitVec 3
  form : BitVec 2
  fld : BitVec 2
  imm : BitVec 13
  deriving DecidableEq, Repr

/-- fset from a register (R50). -/
structure SFR where
  g : BitVec 4
  slot : BitVec 3
  form : BitVec 2
  fld : BitVec 2
  s : BitVec 6
  deriving DecidableEq, Repr

/-- vrot (R50): file 0 va, 1 vb. -/
structure SV where
  g : BitVec 4
  file : BitVec 1
  base : BitVec 11
  deriving DecidableEq, Repr

/-- cpy (R50). -/
structure SX where
  g : BitVec 4
  s : BitVec 6
  file : BitVec 3
  reg : BitVec 11
  deriving DecidableEq, Repr

/-- wdone (R50). -/
structure SW where
  g : BitVec 4
  ch : BitVec 1
  s : BitVec 6
  deriving DecidableEq, Repr

/-- mov and pmq (R50): an s register and a 14-bit number. -/
structure SY where
  g : BitVec 4
  s : BitVec 6
  n : BitVec 14
  deriving DecidableEq, Repr

/-- System operation with a 14-bit immediate (R286). -/
structure SC where
  g : BitVec 4
  n : BitVec 14
  deriving DecidableEq, Repr

/-- System operation with an s register (R286). -/
structure SS where
  g : BitVec 4
  s : BitVec 6
  deriving DecidableEq, Repr

/-- An operation with a guard alone (R286, R52). -/
structure SG where
  g : BitVec 4
  deriving DecidableEq, Repr

/-- wpset and wpclr (R286). -/
structure SN where
  g : BitVec 4
  n : BitVec 2
  deriving DecidableEq, Repr

/-- Branches (R52). -/
structure LB where
  g : BitVec 4
  off : BitVec 20
  deriving DecidableEq, Repr

/-- loop with a count register (R52). -/
structure LP where
  g : BitVec 4
  l : BitVec 2
  s : BitVec 6
  st : BitVec 4
  deriving DecidableEq, Repr

/-- loop with an immediate count (R52). -/
structure LI where
  g : BitVec 4
  l : BitVec 2
  cnt : BitVec 14
  st : BitVec 4
  deriving DecidableEq, Repr

/-- lend and lexit (R52). -/
structure LE where
  g : BitVec 4
  l : BitVec 2
  deriving DecidableEq, Repr

/-- bstep and bset (R52). -/
structure LS where
  g : BitVec 4
  b : BitVec 3
  imm : BitVec 17
  deriving DecidableEq, Repr

/-- qset (R52). -/
structure LQ where
  g : BitVec 4
  q : BitVec 8
  deriving DecidableEq, Repr

/-- dict (R52). -/
structure LD where
  g : BitVec 4
  off : BitVec 12
  deriving DecidableEq, Repr

/-- kld and kldp (R53). -/
structure KL where
  g : BitVec 4
  x : BitVec 2
  b : BitVec 3
  off : BitVec 15
  deriving DecidableEq, Repr

/-- kfill (R53). -/
structure KF where
  g : BitVec 4
  x : BitVec 2
  v : BitVec 8
  deriving DecidableEq, Repr

/-- kcpy (R53). -/
structure KC where
  g : BitVec 4
  x : BitVec 2
  y : BitVec 2
  deriving DecidableEq, Repr

/-- Vector VR layout (R54). -/
structure VR where
  g : BitVec 4
  vd : BitVec 11
  vsa : BitVec 11
  vsb : BitVec 11
  imm : BitVec 9
  rm : BitVec 3
  mask : BitVec 4
  form : BitVec 2
  sw : BitVec 1
  deriving DecidableEq, Repr

/-- Vector V3 layout (R54). -/
structure V3 where
  g : BitVec 4
  vd : BitVec 11
  vsa : BitVec 11
  vsb : BitVec 11
  vsc : BitVec 11
  rm : BitVec 3
  mask : BitVec 2
  form : BitVec 2
  sw : BitVec 1
  deriving DecidableEq, Repr

/-- Vector VM layout (R54). -/
structure VM where
  g : BitVec 4
  v : BitVec 11
  b : BitVec 3
  off : BitVec 22
  mask : BitVec 4
  form : BitVec 2
  sw : BitVec 1
  deriving DecidableEq, Repr

/-- M layout (R55). -/
structure MO where
  g : BitVec 4
  acc : BitVec 1
  row : BitVec 7
  src : BitVec 2
  v : BitVec 11
  disp : BitVec 23
  fmt : BitVec 3
  form : BitVec 2
  sw : BitVec 1
  deriving DecidableEq, Repr

/-- Copy slot CA layout (R56). -/
structure CA where
  g : BitVec 4
  d : BitVec 5
  s : BitVec 5
  len : BitVec 5
  form : BitVec 2
  sw : BitVec 1
  deriving DecidableEq, Repr

/-- Copy slot CS layout (R56). -/
structure CS where
  g : BitVec 4
  d : BitVec 5
  s : BitVec 5
  stream : BitVec 4
  scope : BitVec 3
  acq : BitVec 1
  rel : BitVec 1
  deriving DecidableEq, Repr

/-- A context slot: core 32 × die + 8 × cluster + core, first slot or second (12 R247). -/
structure CtxId where
  core : BitVec 8
  sec : Bool
  deriving DecidableEq, Repr

/-- A cluster of the package, 4 × die + cluster (01 R13). -/
abbrev ClId := BitVec 5

/-- A barrier of a context: level 1 cluster, 2 die, 3 package, and index (10 R230). -/
structure BarId where
  level : BitVec 2
  index : BitVec 4
  deriving DecidableEq, Repr

/-- One barrier of the package: `place` is the cluster, the die or 0. -/
structure BarRef where
  id : BarId
  place : BitVec 5
  deriving DecidableEq, Repr

/-- What a fabric packet asks of its destination (09 R181, 11 R237); a write leaves alone the bytes that are none; a read for a bank operation names
the format that its page must have (10 R228). The last two go between package tile sequencers (13 R275; log entry 39): an arrival at a `tw.barrier`, bytes
of a row of a `tw.allreduce`, of a contribution or of a sum. -/
inductive PktBody
  | write (bytes : List (Option Byte))
  | atom (op : BitVec 4) (v e : BitVec 64)
  | cas4 (mask : BitVec 4) (regs : List (BitVec 64))
  | enq (bytes : List Byte)
  | deq
  | chase (ctl key : BitVec 64)
  | read (len : BitVec 32) (fmt : Option Byte)
  | barrier (index : BitVec 4)
  | rows (sums : Bool) (row off : BitVec 32) (bytes : List Byte)
  deriving DecidableEq, Repr

/-- A fabric packet as it arrives at this package (15 R306): source package and tenant, destination region, stream-source tag,
stream, sequence number, peer offset; `tagOk` says whether its GCM tag verifies (15 R309). -/
structure Packet where
  src : BitVec 12
  tenant : BitVec 16
  region : BitVec 32
  tag : BitVec 64
  stream : BitVec 4
  seq : BitVec 32
  off : BitVec 48
  tagOk : Bool
  body : PktBody
  deriving DecidableEq, Repr

/-- An acknowledgement as it arrives at the source gateway (09 R182, R183, 11 R237): `peer` is the destination that acknowledges, `resync` marks the
acknowledgement of a resync (10 R235), `results` gives number, status and reply of each packet that it committed lately (15 R306). -/
structure Ack where
  peer : BitVec 12
  tag : BitVec 64
  stream : BitVec 4
  x : BitVec 32
  map : BitVec 64
  resync : Bool
  results : List (BitVec 32 × Byte × List Byte)
  deriving DecidableEq, Repr

/-- A held packet of the source gateway. -/
structure PktKey where
  dst : BitVec 12
  tag : BitVec 64
  stream : BitVec 4
  seq : BitVec 32
  deriving DecidableEq, Repr

/-- A resync message as it arrives (10 R235). -/
structure Resync where
  src : BitVec 12
  tag : BitVec 64
  stream : BitVec 4
  n : BitVec 32
  deriving DecidableEq, Repr

/-- An entry of a tile sequencer: level 3 package, 2 die, 1 cluster, 0 core; place; region; shadow or active (12 R245). -/
structure EntryId where
  level : BitVec 2
  place : BitVec 8
  region : BitVec 32
  shadow : Bool
  deriving DecidableEq, Repr

/-- A tile word in CHECK at an entry: the fields of 13 R265 other than tw.op, which the constructor names. -/
structure TileIn where
  e : EntryId
  level : BitVec 4
  fmt : BitVec 4
  acq : BitVec 3
  rel : BitVec 3
  stream : BitVec 4
  replay : BitVec 1
  sd : BitVec 1
  rsv : BitVec 4
  shape : BitVec 32
  desc : BitVec 64
  deriving DecidableEq, Repr

/-- A command packet as the command core hands it on (19 R352, R357): ring, its tenant, index, region, completion address, body. -/
structure Cmd where
  tenant : BitVec 16
  index : BitVec 64
  region : BitVec 32
  cpl : BitVec 64
  body : List Byte
  deriving DecidableEq, Repr

/-- An access of an application core (09 R180, 19 R349, R350): a write or a read of a register of the command core's window, a store, a load of `n`
bytes, a fence that orders earlier writes, earlier reads, or both. -/
inductive AppAccess
  | window (off : BitVec 16)
  | query (off : BitVec 16)
  | store (a : BitVec 64)
  | load (a : BitVec 64) (n : BitVec 8)
  | fence (writes reads : Bool)
  deriving DecidableEq, Repr

/-- An uncorrectable error that a read meets: memory and address as its telemetry record gives them (10 R210, 15 R314, 19 R361). -/
structure EccHit where
  memory : Byte
  addr : BitVec 64
  deriving DecidableEq, Repr

/-- The context whose bundle issues, and the slot and error of a read of it that meets one. -/
structure IssueIn where
  c : CtxId
  ecc : Option (BitVec 3 × EccHit)
  deriving DecidableEq, Repr

/-- The transfer that completes, and the error that its read meets. -/
structure XferIn where
  tid : BitVec 32
  ecc : Option EccHit
  deriving DecidableEq, Repr

/-- The peer that the fabric-management core withdraws or restores; or, with `holds`, of which it learns whether its package holds a region of the
tenant (15 R305). -/
structure PeerIn where
  peer : BitVec 12
  holds : Option Bool
  deriving DecidableEq, Repr

/-- The firmware's answer to an escalation (13 R288). -/
inductive EscAns
  | resume (v : BitVec 64)
  | stop
  deriving DecidableEq, Repr

/-- An engine of 19 R364. -/
inductive EngineId
  | channel (c : CtxId) (ch : Side)
  | matrix (core : BitVec 8)
  | hoist (cl : ClId)
  | bolter
  | agent (die : BitVec 3)
  | port (plane : BitVec 3)
  | memory (die : BitVec 3)
  deriving DecidableEq, Repr

/-- The tamper sources of 15 R312, and a privileged violation by another agent. -/
inductive Tamper
  | mesh | supply | clock | glitch | privileged
  deriving DecidableEq, Repr


/-- The syllables of the S slot, one constructor per row of its opcode map (R57-R63). -/
inductive SSyl
  | add (o : SR)
  | sub (o : SR)
  | mul (o : SR)
  | mulh (o : SR)
  | mulhu (o : SR)
  | and (o : SR)
  | or (o : SR)
  | xor (o : SR)
  | andn (o : SR)
  | shl (o : SR)
  | shr (o : SR)
  | sra (o : SR)
  | rotl (o : SR)
  | min (o : SR)
  | max (o : SR)
  | minu (o : SR)
  | maxu (o : SR)
  | popc (o : SU)
  | clz (o : SU)
  | ctz (o : SU)
  | bext (o : SR)
  | bins (o : SR)
  | cmpeq (o : SR)
  | cmpne (o : SR)
  | cmplt (o : SR)
  | cmpltu (o : SR)
  | cmple (o : SR)
  | cmpleu (o : SR)
  | gand (o : SR)
  | gor (o : SR)
  | gxor (o : SR)
  | gnot (o : SU)
  | addSi (o : SI)
  | andSi (o : SI)
  | orSi (o : SI)
  | xorSi (o : SI)
  | shlSi (o : SI)
  | shrSi (o : SI)
  | sraSi (o : SI)
  | cmpeqSi (o : SI)
  | cmpltSi (o : SI)
  | cmpltuSi (o : SI)
  | movi (o : SJ)
  | movkH1 (o : SJ)
  | movkH2 (o : SJ)
  | movkH3 (o : SJ)
  | movkH4 (o : SK)
  | addSj (o : SJ)
  | andSj (o : SJ)
  | orSj (o : SJ)
  | xorSj (o : SJ)
  | sld8 (o : SM)
  | sld16 (o : SM)
  | sld32 (o : SM)
  | sld64 (o : SM)
  | sldz8 (o : SM)
  | sldz16 (o : SM)
  | sldz32 (o : SM)
  | sst8 (o : SM)
  | sst16 (o : SM)
  | sst32 (o : SM)
  | sst64 (o : SM)
  | lop3 (o : Lop)
  | fset (o : SF)
  | fsetReg (o : SFR)
  | vrot (o : SV)
  | cpyFromS (o : SX)
  | cpyToS (o : SX)
  | wdone (o : SW)
  | movFromSys (o : SY)
  | movToSys (o : SY)
  | trap (o : SC)
  | esc (o : SS)
  | mret (o : SG)
  | yield (o : SG)
  | pmq (o : SY)
  | pmpull (o : SC)
  | ctxsave (o : SS)
  | ctxrest (o : SS)
  | ctxsw (o : SG)
  | dstop (o : SC)
  | wpset (o : SN)
  | wpclr (o : SN)
  | rdtick (o : SS)
  | rdcyc (o : SS)
  deriving DecidableEq, Repr

/-- The syllables of the L slot, one constructor per row of its opcode map (R57-R63). -/
inductive LSyl
  | br (o : LB)
  | call (o : LB)
  | ret (o : SG)
  | loop (o : LP)
  | loopImm (o : LI)
  | lend (o : LE)
  | lexit (o : LE)
  | bstep (o : LS)
  | bset (o : LS)
  | dict (o : LD)
  | ifence (o : SG)
  | kend (o : SG)
  | qset (o : LQ)
  deriving DecidableEq, Repr

/-- The syllables of the K slot, one constructor per row of its opcode map (R57-R63). -/
inductive KSyl
  | kld (o : KL)
  | kldp (o : KL)
  | kfill (o : KF)
  | kcpy (o : KC)
  deriving DecidableEq, Repr

/-- The syllables of either vector slot, one constructor per row of its opcode map (R57-R63). -/
inductive VSyl
  | vaddF32 (o : VR)
  | vsubF32 (o : VR)
  | vmulF32 (o : VR)
  | vfmaF32 (o : V3)
  | vfmsF32 (o : V3)
  | vfnmaF32 (o : V3)
  | vminF32 (o : VR)
  | vmaxF32 (o : VR)
  | vabsF32 (o : VR)
  | vnegF32 (o : VR)
  | vcmpeqF32 (o : VR)
  | vcmpltF32 (o : VR)
  | vcmpleF32 (o : VR)
  | vcmpunF32 (o : VR)
  | vsel (o : V3)
  | vclassF32 (o : VR)
  | vrecipF32 (o : VR)
  | vrsqrtF32 (o : VR)
  | vsqrtF32 (o : VR)
  | vexp2F32 (o : VR)
  | vlog2F32 (o : VR)
  | vsinpiF32 (o : VR)
  | vcospiF32 (o : VR)
  | vrecipBf16 (o : VR)
  | vrsqrtBf16 (o : VR)
  | vsqrtBf16 (o : VR)
  | vexp2Bf16 (o : VR)
  | vlog2Bf16 (o : VR)
  | vsinpiBf16 (o : VR)
  | vcospiBf16 (o : VR)
  | vaddBf16 (o : VR)
  | vsubBf16 (o : VR)
  | vmulBf16 (o : VR)
  | vfmaBf16 (o : V3)
  | vminBf16 (o : VR)
  | vmaxBf16 (o : VR)
  | vcmpeqBf16 (o : VR)
  | vcmpltBf16 (o : VR)
  | vaddF16 (o : VR)
  | vsubF16 (o : VR)
  | vmulF16 (o : VR)
  | vfmaF16 (o : V3)
  | vaddI32 (o : VR)
  | vsubI32 (o : VR)
  | vmulI32 (o : VR)
  | vmulhI32 (o : VR)
  | vaddsI32 (o : VR)
  | vsubsI32 (o : VR)
  | vminI32 (o : VR)
  | vmaxI32 (o : VR)
  | vminN32 (o : VR)
  | vmaxN32 (o : VR)
  | vand (o : VR)
  | vor (o : VR)
  | vxor (o : VR)
  | vshl (o : VR)
  | vshr (o : VR)
  | vsra (o : VR)
  | vcmpeqI32 (o : VR)
  | vcmpltI32 (o : VR)
  | vcmpltN32 (o : VR)
  | vcvtF32I32 (o : VR)
  | vcvtI32F32 (o : VR)
  | vcvtF32Bf16 (o : VR)
  | vcvtBf16F32 (o : VR)
  | vcvtF32F16 (o : VR)
  | vcvtF16F32 (o : VR)
  | vcvtF32E4m3 (o : VR)
  | vcvtE4m3F32 (o : VR)
  | vcvtF32E5m2 (o : VR)
  | vcvtE5m2F32 (o : VR)
  | vquantQ4 (o : VR)
  | vdequantQ4 (o : VR)
  | vquantQ8 (o : VR)
  | vperm (o : VR)
  | vrotl (o : VR)
  | vbcast (o : VR)
  | vzip (o : VR)
  | vunzip (o : VR)
  | vredsumF32 (o : VR)
  | vredmaxF32 (o : VR)
  | vredminF32 (o : VR)
  | vredsumI32 (o : VR)
  | vmand (o : VR)
  | vmor (o : VR)
  | vmxor (o : VR)
  | vmnot (o : VR)
  | vrng (o : VR)
  | vrngset (o : VR)
  | vxfer (o : VR)
  | vldF32 (o : VM)
  | vldI32 (o : VM)
  | vldBf16 (o : VM)
  | vldF16 (o : VM)
  | vstF32 (o : VM)
  | vstI32 (o : VM)
  | vstBf16 (o : VM)
  | vstF16 (o : VM)
  | vpmulP16 (o : VR)
  | vpmulP8 (o : VR)
  | vpcmpP16 (o : VR)
  | vpscP16 (o : VR)
  | vpsumP16 (o : VR)
  | vpresP16 (o : VR)
  | vplenP16 (o : VR)
  | vpcvtP8 (o : VR)
  deriving DecidableEq, Repr

/-- The syllables of the M slot, one constructor per row of its opcode map (R57-R63). -/
inductive MSyl
  | mpush (o : MO)
  | mshift (o : MO)
  | macc (o : MO)
  | maccp (o : MO)
  | mdrain (o : MO)
  | manch (o : MO)
  | mzero (o : MO)
  | mrow (o : MO)
  | mexact (o : MO)
  | mdrainv (o : MO)
  deriving DecidableEq, Repr

/-- The syllables of either copy slot, one constructor per row of its opcode map (R57-R63). -/
inductive CSyl
  | copy1d (o : CA)
  | copy2d (o : CA)
  | copy3d (o : CA)
  | gather (o : CA)
  | scatter (o : CA)
  | mcast (o : CA)
  | send (o : CA)
  | recv (o : CA)
  | bankWadd (o : CA)
  | bankAdd (o : CA)
  | bankMax (o : CA)
  | bankMin (o : CA)
  | barArrive (o : CA)
  | barWait (o : CA)
  | sfence (o : CA)
  | srst (o : CA)
  | copy1dCs (o : CS)
  | copy2dCs (o : CS)
  | copy3dCs (o : CS)
  | gatherCs (o : CS)
  | scatterCs (o : CS)
  | st32 (o : CS)
  | st64 (o : CS)
  | ld64 (o : CS)
  | atomAdd (o : CS)
  | atomAnd (o : CS)
  | atomOr (o : CS)
  | atomXor (o : CS)
  | atomMax (o : CS)
  | atomMin (o : CS)
  | atomSwap (o : CS)
  | atomCas (o : CS)
  | msaCas4 (o : CS)
  | msaEnq (o : CS)
  | msaDeq (o : CS)
  | msaChase (o : CS)
  | scLd64 (o : CS)
  | scSt64 (o : CS)
  | scSwap (o : CS)
  | scAdd (o : CS)
  deriving DecidableEq, Repr

/-- A syllable with its slot, as the decoder reads it; `band` is a code of the forward-compatibility band (R57). -/
inductive Syl
  | s (y : SSyl)
  | l (y : LSyl)
  | k (y : KSyl)
  | v (sd : Side) (y : VSyl)
  | m (y : MSyl)
  | c (ch : Side) (y : CSyl)
  | band (slot : BitVec 3) (w : BitVec 64)
  deriving DecidableEq, Repr

/-- Every row of the opcode table. -/
inductive Instr
  /-- BUNDLE_ISSUE (R32): A context's next bundle falls due under its stall count and issues whole, or traps, with its present, template and sticky slots. -/
  | bundleIssue (k : IssueIn)
  /-- BRAKE_RELEASE (R22): The last stalling condition of the cluster clears, the brake is released on the next cycle, and held boundary arrivals enter in arrival order. -/
  | brakeRelease (cl : ClId)
  /-- BOUNDARY_ADMIT (R255): While braked, the cluster boundary admits the arrivals that complete an awaited transfer, with every arrival ahead of them. -/
  | boundaryAdmit (cl : ClId)
  /-- BRAKE_TIMEOUT (R258): The brake watchdog reaches 2^w cycles and the cluster's primaries are pre-empted and saved as group images, or the fault domain is stopped. -/
  | brakeTimeout (cl : ClId)
  /-- FORM_ROW_ISSUE (R119): Row i of a multi-row form issues in the i-th cycle after its syllable, reading masks and sources at that cycle. -/
  | formRowIssue (c : CtxId) (slot : BitVec 3)
  /-- RESULT_LAND (R95): A pending register, flag or tile result lands at its latency and the scoreboard releases its readers. -/
  | resultLand (c : CtxId)
  /-- FORWARD_COMPAT_NOP (R57): A syllable with a code in 0xF0-0xFF issues as a no-operation and becomes the slot's sticky record. -/
  | forwardCompatNop (slot : BitVec 3) (w : BitVec 64)
  /-- ADD (R100): sd := sa + sb modulo 2^64. -/
  | add (o : SR)
  /-- SUB (R100): sd := sa - sb modulo 2^64. -/
  | sub (o : SR)
  /-- MUL (R100): sd := low 64 bits of sa × sb. -/
  | mul (o : SR)
  /-- MULH (R100): sd := high 64 bits of the signed 128-bit product. -/
  | mulh (o : SR)
  /-- MULHU (R100): sd := high 64 bits of the unsigned 128-bit product. -/
  | mulhu (o : SR)
  /-- AND (R100): sd := sa and sb. -/
  | and (o : SR)
  /-- OR (R100): sd := sa or sb. -/
  | or (o : SR)
  /-- XOR (R100): sd := sa xor sb. -/
  | xor (o : SR)
  /-- ANDN (R100): sd := sa and not sb. -/
  | andn (o : SR)
  /-- SHL (R100): sd := sa shifted left by sb & 63. -/
  | shl (o : SR)
  /-- SHR (R100): sd := sa shifted logically right by sb & 63. -/
  | shr (o : SR)
  /-- SRA (R100): sd := sa shifted arithmetically right by sb & 63. -/
  | sra (o : SR)
  /-- ROTL (R100): sd := sa rotated left by sb & 63. -/
  | rotl (o : SR)
  /-- MIN (R100): sd := signed minimum of sa and sb. -/
  | min (o : SR)
  /-- MAX (R100): sd := signed maximum of sa and sb. -/
  | max (o : SR)
  /-- MINU (R100): sd := unsigned minimum of sa and sb. -/
  | minu (o : SR)
  /-- MAXU (R100): sd := unsigned maximum of sa and sb. -/
  | maxu (o : SR)
  /-- POPC (R100): sd := number of one bits of sa. -/
  | popc (o : SU)
  /-- CLZ (R100): sd := number of leading zero bits of sa. -/
  | clz (o : SU)
  /-- CTZ (R100): sd := number of trailing zero bits of sa. -/
  | ctz (o : SU)
  /-- BEXT (R104): sd := the bit field of sa whose position and width sb gives. -/
  | bext (o : SR)
  /-- BINS (R104): Inserts sa into the bit field of sd that sb gives. -/
  | bins (o : SR)
  /-- CMPEQ (R102): gd := sa = sb. -/
  | cmpeq (o : SR)
  /-- CMPNE (R102): gd := sa ≠ sb. -/
  | cmpne (o : SR)
  /-- CMPLT (R102): gd := sa < sb, signed. -/
  | cmplt (o : SR)
  /-- CMPLTU (R102): gd := sa < sb, unsigned. -/
  | cmpltu (o : SR)
  /-- CMPLE (R102): gd := sa ≤ sb, signed. -/
  | cmple (o : SR)
  /-- CMPLEU (R102): gd := sa ≤ sb, unsigned. -/
  | cmpleu (o : SR)
  /-- GAND (R102): gd := ga and gb. -/
  | gand (o : SR)
  /-- GOR (R102): gd := ga or gb. -/
  | gor (o : SR)
  /-- GXOR (R102): gd := ga xor gb. -/
  | gxor (o : SR)
  /-- GNOT (R102): gd := not ga. -/
  | gnot (o : SU)
  /-- ADD_SI (R100): sd := sa + sign-extended imm8. -/
  | addSi (o : SI)
  /-- AND_SI (R100): sd := sa and sign-extended imm8. -/
  | andSi (o : SI)
  /-- OR_SI (R100): sd := sa or sign-extended imm8. -/
  | orSi (o : SI)
  /-- XOR_SI (R100): sd := sa xor sign-extended imm8. -/
  | xorSi (o : SI)
  /-- SHL_SI (R100): sd := sa shifted left by the unsigned count 0-63. -/
  | shlSi (o : SI)
  /-- SHR_SI (R100): sd := sa shifted logically right by the unsigned count 0-63. -/
  | shrSi (o : SI)
  /-- SRA_SI (R100): sd := sa shifted arithmetically right by the unsigned count 0-63. -/
  | sraSi (o : SI)
  /-- CMPEQ_SI (R102): gd := sa equals the sign-extended imm8. -/
  | cmpeqSi (o : SI)
  /-- CMPLT_SI (R102): gd := sa < sign-extended imm8, signed. -/
  | cmpltSi (o : SI)
  /-- CMPLTU_SI (R102): gd := sa < sign-extended imm8, unsigned. -/
  | cmpltuSi (o : SI)
  /-- MOVI (R101): sd := sign-extended imm14. -/
  | movi (o : SJ)
  /-- MOVK_H1 (R101): Inserts imm14 into bits 27:14 of sd. -/
  | movkH1 (o : SJ)
  /-- MOVK_H2 (R101): Inserts imm14 into bits 41:28 of sd. -/
  | movkH2 (o : SJ)
  /-- MOVK_H3 (R101): Inserts imm14 into bits 55:42 of sd. -/
  | movkH3 (o : SJ)
  /-- MOVK_H4 (R101): Inserts imm14 bits 7:0 into bits 63:56 of sd. -/
  | movkH4 (o : SK)
  /-- ADD_SJ (R100): sd := sd + sign-extended imm14. -/
  | addSj (o : SJ)
  /-- AND_SJ (R100): sd := sd and sign-extended imm14. -/
  | andSj (o : SJ)
  /-- OR_SJ (R100): sd := sd or sign-extended imm14. -/
  | orSj (o : SJ)
  /-- XOR_SJ (R100): sd := sd xor sign-extended imm14. -/
  | xorSj (o : SJ)
  /-- SLD8 (R105): sd := sign-extended byte from the scratchpad. -/
  | sld8 (o : SM)
  /-- SLD16 (R105): sd := sign-extended 2 bytes from the scratchpad. -/
  | sld16 (o : SM)
  /-- SLD32 (R105): sd := sign-extended 4 bytes from the scratchpad. -/
  | sld32 (o : SM)
  /-- SLD64 (R105): sd := 8 bytes from the scratchpad. -/
  | sld64 (o : SM)
  /-- SLDZ8 (R105): sd := zero-extended byte from the scratchpad. -/
  | sldz8 (o : SM)
  /-- SLDZ16 (R105): sd := zero-extended 2 bytes from the scratchpad. -/
  | sldz16 (o : SM)
  /-- SLDZ32 (R105): sd := zero-extended 4 bytes from the scratchpad. -/
  | sldz32 (o : SM)
  /-- SST8 (R105): Writes the low byte of ss to the scratchpad. -/
  | sst8 (o : SM)
  /-- SST16 (R105): Writes the low 2 bytes of ss to the scratchpad. -/
  | sst16 (o : SM)
  /-- SST32 (R105): Writes the low 4 bytes of ss to the scratchpad. -/
  | sst32 (o : SM)
  /-- SST64 (R105): Writes ss to 8 bytes of the scratchpad. -/
  | sst64 (o : SM)
  /-- LOP3 (R103): Each bit of sd := the 8-bit truth table of sa, sb and old sd. -/
  | lop3 (o : Lop)
  /-- FSET (R106): Writes one field of a form's shadow from imm13. -/
  | fset (o : SF)
  /-- FSET_REG (R106): Writes one field of a form's shadow from an s register. -/
  | fsetReg (o : SFR)
  /-- VROT (R107): Sets a vector file's rotating region base and resets its rotation count. -/
  | vrot (o : SV)
  /-- CPY_FROM_S (R108): Writes a b, d, e or vector register from an s register. -/
  | cpyFromS (o : SX)
  /-- CPY_TO_S (R108): Writes an s register from a b, l, d, e or vector register. -/
  | cpyToS (o : SX)
  /-- WDONE (R109): Holds the context until the named transfer of a channel has completed, reporting failures from the list. -/
  | wdone (o : SW)
  /-- MOV_FROM_SYS (R110): Reads a system register into an s register. -/
  | movFromSys (o : SY)
  /-- MOV_TO_SYS (R110): Writes a system register from an s register under its access codes. -/
  | movToSys (o : SY)
  /-- TRAP (R287): Commits the other slots and enters the monitor with cause TRAP and the code in %mtval. -/
  | trap (o : SC)
  /-- ESC (R288): Sends the monitor's cause and sN to the firmware error core and waits for its answer. -/
  | esc (o : SS)
  /-- MRET (R289): Exchanges the banks back and resumes the kernel at %mepc and %mrpt. -/
  | mret (o : SG)
  /-- YIELD (R286): Makes the context yield-eligible until its next memory-writing syllable or its pre-emption. -/
  | yield (o : SG)
  /-- PMQ (R290): Returns whether a unit is present, absent, departing or outside the footprint. -/
  | pmq (o : SY)
  /-- PMPULL (R290): Asks the sack hoist to pull a unit next, without waiting or trapping. -/
  | pmpull (o : SC)
  /-- CTXSAVE (R291): Requests the save of the interrupted context into the image at sA. -/
  | ctxsave (o : SS)
  /-- CTXREST (R291): Requests the restore of the image at sA into the core's other slot. -/
  | ctxrest (o : SS)
  /-- CTXSW (R286): Marks the secondary of the same tenant starved so that it is promoted at the next kernel boundary. -/
  | ctxsw (o : SG)
  /-- DSTOP (R342): Requests a DEBUG_STOP at the next kernel-iteration boundary when a debugger is attached. -/
  | dstop (o : SC)
  /-- WPSET (R343): Arms watchpoint n from %wpaddrn and %wpmaskn. -/
  | wpset (o : SN)
  /-- WPCLR (R343): Disarms watchpoint n. -/
  | wpclr (o : SN)
  /-- RDTICK (R286): sD := the global time-base tick count at issue. -/
  | rdtick (o : SS)
  /-- RDCYC (R286): sD := the cycle number of the issue counted from cycle 0 of the kernel. -/
  | rdcyc (o : SS)
  /-- BR (R111): Branches to the bundle at its own address plus 4 × offset. -/
  | br (o : LB)
  /-- CALL (R111): Pushes the next bundle's address on the return stack and branches. -/
  | call (o : LB)
  /-- RET (R111): Pops the return stack and branches to the popped address. -/
  | ret (o : SG)
  /-- LOOP (R112): Starts a modulo loop with its iteration count from an s register. -/
  | loop (o : LP)
  /-- LOOP_IMM (R112): Starts a modulo loop with an immediate iteration count. -/
  | loopImm (o : LI)
  /-- LEND (R113): Closes a loop pass: rotates regions, steps bases, shifts stage predicates and branches back or falls through. -/
  | lend (o : LE)
  /-- LEXIT (R114): Sets the loop's exit flag so that its next lend falls through. -/
  | lexit (o : LE)
  /-- BSTEP (R115): Sets the step of a base register. -/
  | bstep (o : LS)
  /-- BSET (R115): Sets a base register from a signed immediate. -/
  | bset (o : LS)
  /-- DICT (R36): Loads the 15 template entries at the offset and refetches, with a fixed 24-cycle cost. -/
  | dict (o : LD)
  /-- IFENCE (R117): Discards fetched bundles of the context and refetches, with a fixed 12-cycle cost. -/
  | ifence (o : SG)
  /-- KEND (R118): Ends the kernel run after every transfer and drain of the context has completed. -/
  | kend (o : SG)
  /-- QSET (R116): Writes q7-q0 from an 8-bit field. -/
  | qset (o : LQ)
  /-- KLD (R142): Loads 128 raw scratchpad bytes into a scale latch. -/
  | kld (o : KL)
  /-- KLDP (R142): Loads a scale latch from the scale bytes of 128 records of a Q panel. -/
  | kldp (o : KL)
  /-- KFILL (R142): Fills every byte of a scale latch with one byte. -/
  | kfill (o : KF)
  /-- KCPY (R142): Copies one scale latch into another. -/
  | kcpy (o : KC)
  /-- VADD_F32 (R121): FP32 add per active lane, rounded once. -/
  | vaddF32 (sd : Side) (o : VR)
  /-- VSUB_F32 (R121): FP32 subtract per active lane, rounded once. -/
  | vsubF32 (sd : Side) (o : VR)
  /-- VMUL_F32 (R121): FP32 multiply per active lane, rounded once. -/
  | vmulF32 (sd : Side) (o : VR)
  /-- VFMA_F32 (R121): FP32 a × b + c with one rounding. -/
  | vfmaF32 (sd : Side) (o : V3)
  /-- VFMS_F32 (R121): FP32 a × b - c with one rounding. -/
  | vfmsF32 (sd : Side) (o : V3)
  /-- VFNMA_F32 (R121): FP32 -(a × b) + c with one rounding. -/
  | vfnmaF32 (sd : Side) (o : V3)
  /-- VMIN_F32 (R122): FP32 minimum per lane, NaN-avoiding, no flags. -/
  | vminF32 (sd : Side) (o : VR)
  /-- VMAX_F32 (R122): FP32 maximum per lane, NaN-avoiding, no flags. -/
  | vmaxF32 (sd : Side) (o : VR)
  /-- VABS_F32 (R122): Clears the sign of each FP32 lane. -/
  | vabsF32 (sd : Side) (o : VR)
  /-- VNEG_F32 (R122): Inverts the sign of each FP32 lane. -/
  | vnegF32 (sd : Side) (o : VR)
  /-- VCMPEQ_F32 (R123): Writes mask bits for FP32 equality. -/
  | vcmpeqF32 (sd : Side) (o : VR)
  /-- VCMPLT_F32 (R123): Writes mask bits for FP32 less-than. -/
  | vcmpltF32 (sd : Side) (o : VR)
  /-- VCMPLE_F32 (R123): Writes mask bits for FP32 less-or-equal. -/
  | vcmpleF32 (sd : Side) (o : VR)
  /-- VCMPUN_F32 (R123): Writes mask bits where either input is a NaN. -/
  | vcmpunF32 (sd : Side) (o : VR)
  /-- VSEL (R123): Selects va or vb per lane by whether vc is non-zero. -/
  | vsel (sd : Side) (o : V3)
  /-- VCLASS_F32 (R122): Writes a one-hot class code for each FP32 lane. -/
  | vclassF32 (sd : Side) (o : VR)
  /-- VRECIP_F32 (R124): Correctly rounded FP32 reciprocal. -/
  | vrecipF32 (sd : Side) (o : VR)
  /-- VRSQRT_F32 (R124): Correctly rounded FP32 reciprocal square root. -/
  | vrsqrtF32 (sd : Side) (o : VR)
  /-- VSQRT_F32 (R124): Correctly rounded FP32 square root. -/
  | vsqrtF32 (sd : Side) (o : VR)
  /-- VEXP2_F32 (R124): Correctly rounded FP32 2^x. -/
  | vexp2F32 (sd : Side) (o : VR)
  /-- VLOG2_F32 (R124): Correctly rounded FP32 base-2 logarithm. -/
  | vlog2F32 (sd : Side) (o : VR)
  /-- VSINPI_F32 (R124): Correctly rounded FP32 sin(πx). -/
  | vsinpiF32 (sd : Side) (o : VR)
  /-- VCOSPI_F32 (R124): Correctly rounded FP32 cos(πx). -/
  | vcospiF32 (sd : Side) (o : VR)
  /-- VRECIP_BF16 (R124): Correctly rounded BF16 reciprocal of each element. -/
  | vrecipBf16 (sd : Side) (o : VR)
  /-- VRSQRT_BF16 (R124): Correctly rounded BF16 reciprocal square root. -/
  | vrsqrtBf16 (sd : Side) (o : VR)
  /-- VSQRT_BF16 (R124): Correctly rounded BF16 square root. -/
  | vsqrtBf16 (sd : Side) (o : VR)
  /-- VEXP2_BF16 (R124): Correctly rounded BF16 2^x. -/
  | vexp2Bf16 (sd : Side) (o : VR)
  /-- VLOG2_BF16 (R124): Correctly rounded BF16 base-2 logarithm. -/
  | vlog2Bf16 (sd : Side) (o : VR)
  /-- VSINPI_BF16 (R124): Correctly rounded BF16 sin(πx). -/
  | vsinpiBf16 (sd : Side) (o : VR)
  /-- VCOSPI_BF16 (R124): Correctly rounded BF16 cos(πx). -/
  | vcospiBf16 (sd : Side) (o : VR)
  /-- VADD_BF16 (R125): BF16 add of two elements per lane. -/
  | vaddBf16 (sd : Side) (o : VR)
  /-- VSUB_BF16 (R125): BF16 subtract of two elements per lane. -/
  | vsubBf16 (sd : Side) (o : VR)
  /-- VMUL_BF16 (R125): BF16 multiply of two elements per lane. -/
  | vmulBf16 (sd : Side) (o : VR)
  /-- VFMA_BF16 (R125): BF16 fused multiply-add per element. -/
  | vfmaBf16 (sd : Side) (o : V3)
  /-- VMIN_BF16 (R125): BF16 minimum per element. -/
  | vminBf16 (sd : Side) (o : VR)
  /-- VMAX_BF16 (R125): BF16 maximum per element. -/
  | vmaxBf16 (sd : Side) (o : VR)
  /-- VCMPEQ_BF16 (R125): BF16 equality into an even and an odd mask register. -/
  | vcmpeqBf16 (sd : Side) (o : VR)
  /-- VCMPLT_BF16 (R125): BF16 less-than into an even and an odd mask register. -/
  | vcmpltBf16 (sd : Side) (o : VR)
  /-- VADD_F16 (R125): FP16 add of two elements per lane. -/
  | vaddF16 (sd : Side) (o : VR)
  /-- VSUB_F16 (R125): FP16 subtract of two elements per lane. -/
  | vsubF16 (sd : Side) (o : VR)
  /-- VMUL_F16 (R125): FP16 multiply of two elements per lane. -/
  | vmulF16 (sd : Side) (o : VR)
  /-- VFMA_F16 (R125): FP16 fused multiply-add per element. -/
  | vfmaF16 (sd : Side) (o : V3)
  /-- VADD_I32 (R126): 32-bit integer add modulo 2^32. -/
  | vaddI32 (sd : Side) (o : VR)
  /-- VSUB_I32 (R126): 32-bit integer subtract modulo 2^32. -/
  | vsubI32 (sd : Side) (o : VR)
  /-- VMUL_I32 (R126): 32-bit integer multiply modulo 2^32. -/
  | vmulI32 (sd : Side) (o : VR)
  /-- VMULH_I32 (R126): High 32 bits of the signed 64-bit product. -/
  | vmulhI32 (sd : Side) (o : VR)
  /-- VADDS_I32 (R126): Signed saturating 32-bit add. -/
  | vaddsI32 (sd : Side) (o : VR)
  /-- VSUBS_I32 (R126): Signed saturating 32-bit subtract. -/
  | vsubsI32 (sd : Side) (o : VR)
  /-- VMIN_I32 (R126): Signed 32-bit minimum. -/
  | vminI32 (sd : Side) (o : VR)
  /-- VMAX_I32 (R126): Signed 32-bit maximum. -/
  | vmaxI32 (sd : Side) (o : VR)
  /-- VMIN_N32 (R126): Unsigned 32-bit minimum. -/
  | vminN32 (sd : Side) (o : VR)
  /-- VMAX_N32 (R126): Unsigned 32-bit maximum. -/
  | vmaxN32 (sd : Side) (o : VR)
  /-- VAND (R126): Bitwise and per lane. -/
  | vand (sd : Side) (o : VR)
  /-- VOR (R126): Bitwise or per lane. -/
  | vor (sd : Side) (o : VR)
  /-- VXOR (R126): Bitwise xor per lane. -/
  | vxor (sd : Side) (o : VR)
  /-- VSHL (R127): Shifts each lane left by a register or immediate count. -/
  | vshl (sd : Side) (o : VR)
  /-- VSHR (R127): Shifts each lane logically right. -/
  | vshr (sd : Side) (o : VR)
  /-- VSRA (R127): Shifts each lane arithmetically right. -/
  | vsra (sd : Side) (o : VR)
  /-- VCMPEQ_I32 (R126): Writes mask bits for 32-bit integer equality. -/
  | vcmpeqI32 (sd : Side) (o : VR)
  /-- VCMPLT_I32 (R126): Writes mask bits for signed less-than. -/
  | vcmpltI32 (sd : Side) (o : VR)
  /-- VCMPLT_N32 (R126): Writes mask bits for unsigned less-than. -/
  | vcmpltN32 (sd : Side) (o : VR)
  /-- VCVT_F32_I32 (R128): Converts int32 lanes to FP32, rounded in rmode. -/
  | vcvtF32I32 (sd : Side) (o : VR)
  /-- VCVT_I32_F32 (R128): Converts FP32 lanes to int32 with clamping. -/
  | vcvtI32F32 (sd : Side) (o : VR)
  /-- VCVT_F32_BF16 (R128): Widens a selected BF16 element of each lane to FP32. -/
  | vcvtF32Bf16 (sd : Side) (o : VR)
  /-- VCVT_BF16_F32 (R128): Narrows two FP32 sources into BF16 element pairs. -/
  | vcvtBf16F32 (sd : Side) (o : VR)
  /-- VCVT_F32_F16 (R128): Widens a selected FP16 element of each lane to FP32. -/
  | vcvtF32F16 (sd : Side) (o : VR)
  /-- VCVT_F16_F32 (R128): Narrows two FP32 sources into FP16 element pairs. -/
  | vcvtF16F32 (sd : Side) (o : VR)
  /-- VCVT_F32_E4M3 (R128): Widens a selected E4M3 byte of each lane to FP32. -/
  | vcvtF32E4m3 (sd : Side) (o : VR)
  /-- VCVT_E4M3_F32 (R128): Narrows FP32 to a selected saturating E4M3 byte. -/
  | vcvtE4m3F32 (sd : Side) (o : VR)
  /-- VCVT_F32_E5M2 (R128): Widens a selected E5M2 byte of each lane to FP32. -/
  | vcvtF32E5m2 (sd : Side) (o : VR)
  /-- VCVT_E5M2_F32 (R128): Narrows FP32 to a selected saturating E5M2 byte. -/
  | vcvtE5m2F32 (sd : Side) (o : VR)
  /-- VQUANT_Q4 (R129): Quantizes two 32-lane blocks into Q4 records. -/
  | vquantQ4 (sd : Side) (o : VR)
  /-- VDEQUANT_Q4 (R129): Decodes two Q4 records into 64 FP32 lanes. -/
  | vdequantQ4 (sd : Side) (o : VR)
  /-- VQUANT_Q8 (R129): Quantizes two 32-lane blocks into Q8 records. -/
  | vquantQ8 (sd : Side) (o : VR)
  /-- VPERM (R130): Permutes lanes of va by indices in vb. -/
  | vperm (sd : Side) (o : VR)
  /-- VROTL (R127): Rotates the lanes of va by a count. -/
  | vrotl (sd : Side) (o : VR)
  /-- VBCAST (R130): Broadcasts lane k of va. -/
  | vbcast (sd : Side) (o : VR)
  /-- VZIP (R130): Interleaves lanes of va and vb. -/
  | vzip (sd : Side) (o : VR)
  /-- VUNZIP (R130): De-interleaves lanes of va and vb. -/
  | vunzip (sd : Side) (o : VR)
  /-- VREDSUM_F32 (R131): Sums a row's active FP32 lanes by the fixed tree into lane 0. -/
  | vredsumF32 (sd : Side) (o : VR)
  /-- VREDMAX_F32 (R131): Reduces a row by FP32 maximum into lane 0. -/
  | vredmaxF32 (sd : Side) (o : VR)
  /-- VREDMIN_F32 (R131): Reduces a row by FP32 minimum into lane 0. -/
  | vredminF32 (sd : Side) (o : VR)
  /-- VREDSUM_I32 (R131): Sums a row's active int32 lanes modulo 2^32 into lane 0. -/
  | vredsumI32 (sd : Side) (o : VR)
  /-- VMAND (R132): Mask and of two mask registers. -/
  | vmand (sd : Side) (o : VR)
  /-- VMOR (R132): Mask or of two mask registers. -/
  | vmor (sd : Side) (o : VR)
  /-- VMXOR (R132): Mask xor of two mask registers. -/
  | vmxor (sd : Side) (o : VR)
  /-- VMNOT (R132): Mask not of a mask register. -/
  | vmnot (sd : Side) (o : VR)
  /-- VRNG (R133): Writes each active lane with its word of one generator draw. -/
  | vrng (sd : Side) (o : VR)
  /-- VRNGSET (R133): Loads the slot generator's key and counter, or only the counter, from va. -/
  | vrngset (sd : Side) (o : VR)
  /-- VXFER (R134): Copies a register of the other vector file into this file. -/
  | vxfer (sd : Side) (o : VR)
  /-- VLD_F32 (R135): Loads FP32 rows from the scratchpad, tag-checked. -/
  | vldF32 (sd : Side) (o : VM)
  /-- VLD_I32 (R135): Loads int32 or nat32 rows from the scratchpad. -/
  | vldI32 (sd : Side) (o : VM)
  /-- VLD_BF16 (R135): Loads BF16 rows from the scratchpad. -/
  | vldBf16 (sd : Side) (o : VM)
  /-- VLD_F16 (R135): Loads FP16 rows from the scratchpad. -/
  | vldF16 (sd : Side) (o : VM)
  /-- VST_F32 (R135): Stores FP32 rows to the scratchpad, tag-checked. -/
  | vstF32 (sd : Side) (o : VM)
  /-- VST_I32 (R135): Stores int32 or nat32 rows to the scratchpad. -/
  | vstI32 (sd : Side) (o : VM)
  /-- VST_BF16 (R135): Stores BF16 rows to the scratchpad. -/
  | vstBf16 (sd : Side) (o : VM)
  /-- VST_F16 (R135): Stores FP16 rows to the scratchpad. -/
  | vstF16 (sd : Side) (o : VM)
  /-- VPMUL_P16 (R154): Adds P16 angles element by element. -/
  | vpmulP16 (sd : Side) (o : VR)
  /-- VPMUL_P8 (R154): Adds P8 angles element by element. -/
  | vpmulP8 (sd : Side) (o : VR)
  /-- VPCMP_P16 (R155): Compares P16 angles wrap-safely into two mask registers. -/
  | vpcmpP16 (sd : Side) (o : VR)
  /-- VPSC_P16 (R154): Writes the cosine or sine table entry of a P16 element as int32. -/
  | vpscP16 (sd : Side) (o : VR)
  /-- VPSUM_P16 (R156): Reduces a row of P16 angles into a C, S, n state. -/
  | vpsumP16 (sd : Side) (o : VR)
  /-- VPRES_P16 (R157): Writes the resultant angle of a state. -/
  | vpresP16 (sd : Side) (o : VR)
  /-- VPLEN_P16 (R157): Writes the resultant length of a state in FP32. -/
  | vplenP16 (sd : Side) (o : VR)
  /-- VPCVT_P8 (R158): Converts between P16 and P8 angles. -/
  | vpcvtP8 (sd : Side) (o : VR)
  /-- MPUSH (R146): Fills the held edge H from a pipe or a lent port. -/
  | mpush (o : MO)
  /-- MSHIFT (R146): Rotates the held edge H by n positions. -/
  | mshift (o : MO)
  /-- MACC (R147): Accumulates one outer product into a tile in exact or anchored mode. -/
  | macc (o : MO)
  /-- MACCP (R149): Accumulates phasor products into a phasor tile and counts the beat. -/
  | maccp (o : MO)
  /-- MDRAIN (R150): Rounds a tile row once and writes it to memory at %mpd. -/
  | mdrain (o : MO)
  /-- MANCH (R145): Clears a tile and sets anchored mode with anchor a. -/
  | manch (o : MO)
  /-- MZERO (R145): Clears every cell of a tile and its beat count. -/
  | mzero (o : MO)
  /-- MROW (R145): Clears one row of a tile. -/
  | mrow (o : MO)
  /-- MEXACT (R145): Clears a tile and sets exact or phasor mode. -/
  | mexact (o : MO)
  /-- MDRAINV (R151): Rounds a tile row once and writes it into a vector file. -/
  | mdrainv (o : MO)
  /-- COPY_1D (R214): Raw one-dimensional copy in stream 0. -/
  | copy1d (sd : Side) (o : CA)
  /-- COPY_2D (R214): Raw two-dimensional copy in stream 0. -/
  | copy2d (sd : Side) (o : CA)
  /-- COPY_3D (R214): Raw three-dimensional copy in stream 0. -/
  | copy3d (sd : Side) (o : CA)
  /-- GATHER (R215): Gathers indexed elements into a contiguous destination. -/
  | gather (sd : Side) (o : CA)
  /-- SCATTER (R215): Scatters contiguous elements to indexed destinations. -/
  | scatter (sd : Side) (o : CA)
  /-- MCAST (R217): Stores 4-256 bytes into the scratchpads of the cores of a multicast window, landing 10 cycles later. -/
  | mcast (sd : Side) (o : CA)
  /-- SEND (R218): Sends 4-256 bytes to a receive entry of a cluster core, arriving 12 cycles later. -/
  | send (sd : Side) (o : CA)
  /-- RECV (R219): Takes the arrival held in a receive entry, waits for one in flight, or traps with TIMING_FAULT. -/
  | recv (sd : Side) (o : CA)
  /-- BANK_WADD (R228): Adds wide cells or phasor pairs into die shared memory at the bank ALU. -/
  | bankWadd (sd : Side) (o : CA)
  /-- BANK_ADD (R228): Adds integers into die shared memory at the bank ALU. -/
  | bankAdd (sd : Side) (o : CA)
  /-- BANK_MAX (R228): Takes the maximum into die shared memory at the bank ALU. -/
  | bankMax (sd : Side) (o : CA)
  /-- BANK_MIN (R228): Takes the minimum into die shared memory at the bank ALU. -/
  | bankMin (sd : Side) (o : CA)
  /-- BAR_ARRIVE (R231): Marks the leaf arrived for the barrier's next phase and sends the arrival once earlier transfers complete. -/
  | barArrive (sd : Side) (o : CA)
  /-- BAR_WAIT (R232): Passes if the leaf's arrival has flipped, otherwise parks the context until the flip. -/
  | barWait (sd : Side) (o : CA)
  /-- SFENCE (R234): Completes when every earlier transfer of the masked streams is complete. -/
  | sfence (sd : Side) (o : CA)
  /-- SRST (R235): Resets a stream: waits, resynchronises its destinations and clears its broken mark. -/
  | srst (sd : Side) (o : CA)
  /-- COPY_1D_CS (R214): One-dimensional copy with stream, scope, acquire and release. -/
  | copy1dCs (sd : Side) (o : CS)
  /-- COPY_2D_CS (R214): Two-dimensional copy with stream, scope, acquire and release. -/
  | copy2dCs (sd : Side) (o : CS)
  /-- COPY_3D_CS (R214): Three-dimensional copy with stream, scope, acquire and release. -/
  | copy3dCs (sd : Side) (o : CS)
  /-- GATHER_CS (R215): Gather with stream, scope, acquire and release. -/
  | gatherCs (sd : Side) (o : CS)
  /-- SCATTER_CS (R215): Scatter with stream, scope, acquire and release. -/
  | scatterCs (sd : Side) (o : CS)
  /-- ST32 (R222): Stores 4 bytes at any address, single-copy atomic. -/
  | st32 (sd : Side) (o : CS)
  /-- ST64 (R222): Stores 8 bytes at any address, single-copy atomic. -/
  | st64 (sd : Side) (o : CS)
  /-- LD64 (R222): Loads 8 bytes from any address into a register at completion. -/
  | ld64 (sd : Side) (o : CS)
  /-- ATOM_ADD (R223): Atomic add at the word's primary, returning the old value. -/
  | atomAdd (sd : Side) (o : CS)
  /-- ATOM_AND (R223): Atomic and, returning the old value. -/
  | atomAnd (sd : Side) (o : CS)
  /-- ATOM_OR (R223): Atomic or, returning the old value. -/
  | atomOr (sd : Side) (o : CS)
  /-- ATOM_XOR (R223): Atomic xor, returning the old value. -/
  | atomXor (sd : Side) (o : CS)
  /-- ATOM_MAX (R223): Atomic signed maximum, returning the old value. -/
  | atomMax (sd : Side) (o : CS)
  /-- ATOM_MIN (R223): Atomic signed minimum, returning the old value. -/
  | atomMin (sd : Side) (o : CS)
  /-- ATOM_SWAP (R223): Atomic swap, returning the old value. -/
  | atomSwap (sd : Side) (o : CS)
  /-- ATOM_CAS (R223): Atomic compare-and-swap, returning the old value. -/
  | atomCas (sd : Side) (o : CS)
  /-- MSA_CAS4 (R225): Compares and swaps up to four words atomically at the memory-side agent. -/
  | msaCas4 (sd : Side) (o : CS)
  /-- MSA_ENQ (R226): Enqueues a 64-byte entry on a queue at the memory-side agent. -/
  | msaEnq (sd : Side) (o : CS)
  /-- MSA_DEQ (R226): Dequeues a 64-byte entry from a queue at the memory-side agent. -/
  | msaDeq (sd : Side) (o : CS)
  /-- MSA_CHASE (R227): Follows up to 16 pointers at the memory-side agents, matching a key. -/
  | msaChase (sd : Side) (o : CS)
  /-- SC_LD64 (R236): Wheel-ordered load of a word from its primary copy. -/
  | scLd64 (sd : Side) (o : CS)
  /-- SC_ST64 (R236): Wheel-ordered store of a word. -/
  | scSt64 (sd : Side) (o : CS)
  /-- SC_SWAP (R236): Wheel-ordered swap, returning the old word. -/
  | scSwap (sd : Side) (o : CS)
  /-- SC_ADD (R236): Wheel-ordered add, returning the old word. -/
  | scAdd (sd : Side) (o : CS)
  /-- TRANSFER_COMPLETE (R206): A transfer completes: its result register is written, %done passes it, and a failure enters the channel's failure list. -/
  | transferComplete (c : CtxId) (ch : Side) (t : XferIn)
  /-- RELEASE_WRITE_SEND (R179): A release's held last write is performed once every covered write is performed or acknowledged. -/
  | releaseWriteSend (c : CtxId) (ch : Side) (tid : BitVec 32)
  /-- SEND_ARRIVAL (R218): A sent row lands in its receive entry at t + 12, is taken, held, or makes a TIMING_FAULT pending. -/
  | sendArrival (cl : ClId)
  /-- MCAST_LANDING (R188): A multicast store lands in every target core's scratchpad at t + 10. -/
  | mcastLanding (cl : ClId)
  /-- BARRIER_ARRIVAL_SEND (R231): A marked arrival is sent towards the root once the context's earlier transfers are complete. -/
  | barrierArrivalSend (c : CtxId) (bar : BarId)
  /-- BARRIER_ROOT_ARRIVAL (R231): An arrival reaches the barrier root, and the barrier flips when the last arrival has reached it. -/
  | barrierRootArrival (bar : BarRef)
  /-- BARRIER_FLIP_REACH (R232): The flip reaches the leaves at L, completing bar.arrive transfers and ending parks. -/
  | barrierFlipReach (bar : BarRef) (cl : ClId)
  /-- SC_PERFORM (R187): An SC operation is performed at its primary 96 positions after its key. -/
  | scPerform (c : CtxId) (ch : Side) (tid : BitVec 32)
  /-- STREAM_PACKET_ARRIVE (R182): A stream 1-15 packet arrives at the millrace and is dropped, held or committed in sequence with a cumulative acknowledgement. -/
  | streamPacketArrive (p : Packet)
  /-- STREAM0_PACKET_ARRIVE (R183): A stream 0 packet arrives and is committed once, dropped as a duplicate, or dropped beyond the window. -/
  | stream0PacketArrive (p : Packet)
  /-- ACK_RECEIVE (R237): An acknowledgement reaches the source gateway and frees the held packets it covers. -/
  | ackReceive (a : Ack)
  /-- PACKET_RESEND_TIMEOUT (R184): An unacknowledged packet's 8,000-tick timer runs out and it is resent on the next plane, or fails after 16 resends. -/
  | packetResendTimeout (k : PktKey)
  /-- PLANE_FAIL (R184): A fabric plane fails and its unacknowledged packets are re-sprayed over the surviving planes. -/
  | planeFail (plane : BitVec 3)
  /-- STREAM_RESYNC (R235): After a stream's packets are settled, resync messages are sent to its destinations. -/
  | streamResync (c : CtxId) (ch : Side) (tid : BitVec 32)
  /-- RESYNC_RECEIVE (R235): A destination receives a resync, discards held packets below n and sets its expected number to n. -/
  | resyncReceive (r : Resync)
  /-- PAIR_REKEY (R309): A pair key is replaced before any packet counter reaches 2^48. -/
  | pairRekey (peer : BitVec 12) (plane : BitVec 3)
  /-- REPLICA_WRITE_APPLY (R176): A forwarded replicated write is applied at a die once its clock conditions hold. -/
  | replicaWriteApply (die : BitVec 4)
  /-- REPLICA_READ_SERVE (R177): A held read of a replicated page is served once the serving die's clock reaches the reader's horizon. -/
  | replicaReadServe (c : CtxId) (ch : Side) (tid : BitVec 32)
  /-- MIGRATION_CUTOVER (R190): A migrating page cuts over to its new agent, which takes the duplicate state and answers redirected requests. -/
  | migrationCutover (page : BitVec 64)
  /-- PAGE_WALK_DONE (R303): A page walk ends with a translation, PAGE_FAULT or PERMISSION. -/
  | pageWalkDone (region : BitVec 32) (va : BitVec 64)
  /-- TW_MATMUL (R273): Tile word for a matrix product summed exactly and drained once. -/
  | twMatmul (t : TileIn)
  /-- TW_MATMULP (R273): Tile word for a phasor matrix product's resultants. -/
  | twMatmulp (t : TileIn)
  /-- TW_UNARY (R273): Tile word applying a vector operation elementwise to one input. -/
  | twUnary (t : TileIn)
  /-- TW_BINARY (R273): Tile word applying a vector operation elementwise to two inputs. -/
  | twBinary (t : TileIn)
  /-- TW_REDUCE (R273): Tile word reducing each row exactly and rounding once. -/
  | twReduce (t : TileIn)
  /-- TW_TRANSPOSE (R273): Tile word transposing a tensor raw. -/
  | twTranspose (t : TileIn)
  /-- TW_GATHER (R273): Tile word gathering rows by an index list. -/
  | twGather (t : TileIn)
  /-- TW_SCATTERADD (R273): Tile word adding rows into indexed output rows. -/
  | twScatteradd (t : TileIn)
  /-- TW_ALLREDUCE (R275): Domain tile word summing every package's input into every package's output. -/
  | twAllreduce (t : TileIn)
  /-- TW_PHREDUCE (R273): Tile word reducing each row of P16 angles to its resultant. -/
  | twPhreduce (t : TileIn)
  /-- TW_CALL (R283): Tile word starting a registered kernel with its call block. -/
  | twCall (t : TileIn)
  /-- TW_BARRIER (R275): Tile word completing when earlier tile words commit and, at level 4, every package arrives. -/
  | twBarrier (t : TileIn)
  /-- TW_SFENCE (R275): Tile word completing when earlier tile words of the masked streams commit. -/
  | twSfence (t : TileIn)
  /-- TW_COPY (R273): Tile word copying a tensor raw. -/
  | twCopy (t : TileIn)
  /-- TW_FILL (R273): Tile word filling a tensor with a pattern. -/
  | twFill (t : TileIn)
  /-- TW_QUANT (R273): Tile word quantizing FP32 blocks into Q4 or Q8. -/
  | twQuant (t : TileIn)
  /-- TW_DEQUANT (R273): Tile word decoding Q4 or Q8 into FP32. -/
  | twDequant (t : TileIn)
  /-- TW_CONVERT (R273): Tile word converting elementwise. -/
  | twConvert (t : TileIn)
  /-- TW_RNG (R273): Tile word writing generator words. -/
  | twRng (t : TileIn)
  /-- TW_WADD (R273): Tile word adding wide cells elementwise. -/
  | twWadd (t : TileIn)
  /-- TW_DRAIN (R273): Tile word draining wide cells or phasor pairs once. -/
  | twDrain (t : TileIn)
  /-- TW_SIGNAL (R273): Tile word storing a value by one st64 with its release and stream. -/
  | twSignal (t : TileIn)
  /-- TW_WAIT (R273): Tile word completing once an acquire read of a word returns the value. -/
  | twWait (t : TileIn)
  /-- TW_NOP (R273): Tile word that completes at once. -/
  | twNop (t : TileIn)
  /-- TW_FORWARD_BAND (R272): A tile word with a code in 0xF0-0xFF passes CHECK and completes as tw.nop. -/
  | twForwardBand (op : BitVec 4) (t : TileIn)
  /-- TILE_STAGE_DONE (R245): An entry's staging copies complete and, once the active entry is FREE, it becomes active and enters ISSUE. -/
  | tileStageDone (e : EntryId)
  /-- TILE_CHILD_ISSUE (R246): A child tile word is written into a child's shadow once that shadow is FREE. -/
  | tileChildIssue (e : EntryId)
  /-- TILE_CHILD_COMPLETE (R245): A child reports completion, and when all have, the entry enters JOIN or COMMIT. -/
  | tileChildComplete (e : EntryId) (k : BitVec 32)
  /-- TILE_CHILD_FAULT (R279): A child reports a fault and is replayed from its issue record or its parent faults with CHILD_FAULT. -/
  | tileChildFault (e : EntryId) (k : BitVec 32)
  /-- TILE_JOIN_DONE (R278): The partials of a split reduction are added by bank ALUs and drained once. -/
  | tileJoinDone (e : EntryId)
  /-- TILE_COMMIT (R285): An entry commits its outputs to the parent level and reports completion. -/
  | tileCommit (e : EntryId)
  /-- KERNEL_START (R284): A core-level tile word starts its kernel once its inputs are staged and its footprint is present. -/
  | kernelStart (e : EntryId) (c : CtxId)
  /-- PROMOTION (R250): In the cycle after the primary slot becomes EMPTY the roles are chosen and a secondary may be promoted. -/
  | promotion (core : BitVec 8)
  /-- STARVATION_MARK (R250): A secondary's starvation counter reaches its bound and the secondary is marked starved. -/
  | starvationMark (core : BitVec 8)
  /-- YIELD_ELIGIBLE (R260): A context's spin counter reaches rcb.yieldthr and it becomes yield-eligible. -/
  | yieldEligible (c : CtxId)
  /-- PREEMPTION (R261): The scheduling core pre-empts a yield-eligible context, a group or a lower-priority group. -/
  | preemption (c : CtxId)
  /-- PROGRESS_TIMEOUT (R263): A region's progress timer reaches its limit and its fault domain is stopped with a report of every waiter. -/
  | progressTimeout (region : BitVec 32)
  /-- ESC_ANSWER (R288): The firmware answers an escalation by resuming the monitor or stopping the fault domain. -/
  | escAnswer (c : CtxId) (ans : EscAns)
  /-- CTX_REQUEST_DECIDED (R291): The cluster tile sequencer accepts or refuses a ctxsave or ctxrest and clears ctxst.busy. -/
  | ctxRequestDecided (c : CtxId)
  /-- CONTEXT_SAVE (R320): After in-flight work settles, the context's header, directory and core head are written and its units marked departing. -/
  | contextSave (c : CtxId)
  /-- UNIT_DEPARTURE_DONE (R321): A departing unit's write completes, its directory byte becomes written and its block is freed. -/
  | unitDepartureDone (cl : ClId) (fails : Bool)
  /-- SAVE_FAILED (R325): An image write fails or a source image stays unreachable, and the save ends with SAVE_FAILED. -/
  | saveFailed (cl : ClId)
  /-- CONTEXT_RESTORE (R322): An image is checked, units are mapped absent, the template store is reloaded and the slot enters RUN. -/
  | contextRestore (c : CtxId) (region : BitVec 32) (image : BitVec 64)
  /-- PULL_LAND (R321): A pulled unit lands and becomes present, releasing holds on it. -/
  | pullLand (c : CtxId) (unit : BitVec 10)
  /-- RESTORE_UNREACHABLE (R324): A pull or restore read fails and the context stops with RESTORE_UNREACHABLE. -/
  | restoreUnreachable (c : CtxId) (unit : BitVec 10)
  /-- DIRECTORY_REREAD (R323): Every 256 ticks a pending pull or image copy rereads its directory byte, and fails after 2^20 ticks at 01. -/
  | directoryReread (c : CtxId) (unit : BitVec 10)
  /-- STOP_LANDING (R342): A pending stop lands at a kernel-iteration boundary as a trap with a stop record. -/
  | stopLanding (c : CtxId)
  /-- DEBUGGER_STOP_REQUEST (R342): An attached debugger requests a stop through the firmware. -/
  | debuggerStopRequest (c : CtxId) (code : BitVec 14)
  /-- WATCH_CHANNEL_MATCH (R345): A copy channel performs or sends a watched write and an imprecise watch record is written. -/
  | watchChannelMatch (c : CtxId) (ch : Side) (tid : BitVec 32)
  /-- SAMPLE_POINT (R341): At each wall cycle that is a multiple of 2^k a sample record is written per non-empty slot. -/
  | samplePoint (cl : ClId)
  /-- SEGMENT_ROLLOVER (R339): tr.delta would pass 2^31 and a new clock segment begins. -/
  | segmentRollover (cl : ClId)
  /-- TRACE_DRAIN (R337): A cluster drains a buffered record into the region's trace buffer or drops and counts it. -/
  | traceDrain (cl : ClId)
  /-- RING_ENABLE (R350): Setting rb.enable starts serving a ring from ring.read. -/
  | ringEnable (k : BitVec 6)
  /-- RING_RESTART (R355): Writing 1 to rb.stopped restarts a stopped ring. -/
  | ringRestart (k : BitVec 6)
  /-- REGISTER_WRITE (R8): A write to a register without behaviour of its own sets its fields under their access codes; with it stand the
  application cores' other accesses, which have no row of their own (R180); `bytes` are those that the access writes. -/
  | registerWrite (k : AppAccess) (bytes : List Byte)
  /-- RING_PACKET_TAKE (R354): The command core takes a published packet at its read index and publishes ring.read as required. -/
  | ringPacketTake (k : BitVec 6)
  /-- SUBMIT (R358): Submits a chain of up to 64 top-level tile words with dependence masks. -/
  | submit (c : Cmd)
  /-- REGION_INSTALL (R243): Installs a region control block if every condition holds. -/
  | regionInstall (c : Cmd)
  /-- REGION_REMOVE (R357): Removes a region with no tile word in flight. -/
  | regionRemove (c : Cmd)
  /-- KERNEL_REGISTER (R281): Loads a kernel's registration record and code image. -/
  | kernelRegister (c : Cmd)
  /-- MAP (R304): Maps pages with rights and format, completing after TLB invalidation. -/
  | map (c : Cmd)
  /-- UNMAP (R304): Unmaps pages, completing after old translations are gone. -/
  | unmap (c : Cmd)
  /-- TRACE_SET (R341): Sets a region's sample exponent and bolter mode. -/
  | traceSet (c : Cmd)
  /-- DUMP_SET (R327): Sets or clears a region's dump buffer. -/
  | dumpSet (c : Cmd)
  /-- EXPORT_SET (R306): Writes an export window entry. -/
  | exportSet (c : Cmd)
  /-- SAVE_POOL (R385): Names or clears a region's save pool. -/
  | savePool (c : Cmd)
  /-- MAILBOX_MESSAGE (R360): A 64-byte message is delivered whole to a firmware core's mailbox. -/
  | mailboxMessage (src dst : BitVec 3) (m : BitVec 512)
  /-- GET_VERSION (R311): SPDM request for the supported versions. -/
  | getVersion
  /-- GET_CAPABILITIES (R311): SPDM request for capabilities. -/
  | getCapabilities (flags : BitVec 32)
  /-- NEGOTIATE_ALGORITHMS (R311): SPDM request negotiating algorithms. -/
  | negotiateAlgorithms (shake slh : Bool)
  /-- GET_DIGESTS (R311): SPDM request for certificate digests. -/
  | getDigests
  /-- GET_CERTIFICATE (R311): SPDM request for a certificate chain. -/
  | getCertificate (cslot : BitVec 4) (off len : BitVec 16)
  /-- CHALLENGE (R311): SPDM challenge signed with the device identity key. -/
  | challenge (cslot : BitVec 4) (nonce : BitVec 256)
  /-- GET_MEASUREMENTS (R311): SPDM request for the measurement blocks of the registers. -/
  | getMeasurements (idx : BitVec 8) (sign : Bool) (nonce : BitVec 256)
  /-- KEY_EXCHANGE (R311): SPDM key exchange with secp384r1 opening a session. -/
  | keyExchange (share : BitVec 768) (nonce : BitVec 256)
  /-- FINISH (R311): SPDM FINISH completing a session's establishment. -/
  | finish (mac : BitVec 512)
  /-- END_SESSION (R311): SPDM request ending a session. -/
  | endSession
  /-- UNSUPPORTED_REQUEST (R311): Any other SPDM request returns ERROR with UnsupportedRequest. -/
  | unsupportedRequest (code : BitVec 8)
  /-- FIRMWARE_IMAGE_WRITE (R362): An update image is written to the inactive bank and verified within an SPDM session. -/
  | firmwareImageWrite (image sig : BitVec 512) (version : BitVec 64)
  /-- FUNCTION_SWITCH (R362): A firmware function, once mailbox-quiescent, loads its new image and resumes. -/
  | functionSwitch (f : BitVec 3)
  /-- FIRMWARE_REMEASURE (R310): Every 2^30 ticks each firmware core's code is measured again, an alarm following any difference. -/
  | firmwareRemeasure (f : BitVec 3) (digest : BitVec 512)
  /-- PACKAGE_COLD_RESET (R363): Clears everything and runs the boot sequence of R310. -/
  | packageColdReset
  /-- PACKAGE_WARM_RESET (R363): Clears all regions, tenant keys, dies and application cores. -/
  | packageWarmReset
  /-- HOST_DIE_RESET (R363): Resets the application cores, rings and key slot 1. -/
  | hostDieReset
  /-- COMPUTE_DIE_RESET (R363): Resets one compute die after stopping its regions' fault domains. -/
  | computeDieReset (die : BitVec 3)
  /-- CLUSTER_CLEAR (R299): Clears a cluster's state before it changes tenant or on a cluster reset. -/
  | clusterClear (cl : ClId)
  /-- CORE_RESET (R363): Resets both context slots, memories and core head of a core. -/
  | coreReset (core : BitVec 8)
  /-- ENGINE_RESET (R364): Resets one engine after stopping the fault domains that use it. -/
  | engineReset (e : EngineId)
  /-- FIRMWARE_CORE_RESET (R363): A firmware core and its mailbox are reset and restart from the active bank. -/
  | firmwareCoreReset (f : BitVec 3)
  /-- TAMPER_EVENT (R312): A tamper sensor, supply, clock or line glitch is detected. -/
  | tamperEvent (k : Tamper)
  /-- CLOCK_RATIO_CHANGE (R365): The power core lowers or raises a cluster's clock ratio, beginning a clock segment. -/
  | clockRatioChange (cl : ClId) (n : BitVec 5)
  /-- THERMAL_SHUTDOWN (R365): Junction above 110 °C or inlet above 50 °C triggers a package warm reset. -/
  | thermalShutdown
  /-- TELEMETRY_PERIODIC (R361): The telemetry core sends a periodic record when its interval elapses. -/
  | telemetryPeriodic (ty : BitVec 16)
  /-- PEER_WITHDRAW (R305): The fabric-management core withdraws a peer by clearing peer.enabled, or restores it, so that later class 0xC accesses to it fail with PEER_FAULT or succeed. -/
  | peerWithdraw (region : BitVec 32) (p : PeerIn)
  /-- DEBUGGER_ATTACH (R292): A debugger attaches to or detaches from a region, setting or clearing mstatus.dbg. -/
  | debuggerAttach (region : BitVec 32) (on : Bool)
  /-- PAGE_MIGRATION_START (R190): The memory-management core starts migrating a main-memory page, and the old agent begins serialising writes and applying them to both copies. -/
  | pageMigrationStart (region : BitVec 32) (va : BitVec 64) (die : BitVec 3)
  /-- PAGE_REPLICATION (R176): The memory-management core replicates a read-mostly page on up to eight compute dies, after which writes carry vector clocks to the replicas. -/
  | pageReplication (region : BitVec 32) (va : BitVec 64) (dies : BitVec 8)
  /-- TELEMETRY_REQUEST (R361): The baseboard controller requests telemetry over PLDM through MCTP, and the telemetry core answers, sending the identity record again when it is asked for. -/
  | telemetryRequest (ty : BitVec 16)
  deriving DecidableEq, Repr

/-- The syllable of a syllable row; none for a step of the part. -/
def sylOf : Instr → Option Syl
  | .bundleIssue _ => none
  | .brakeRelease _ => none
  | .boundaryAdmit _ => none
  | .brakeTimeout _ => none
  | .formRowIssue _ _ => none
  | .resultLand _ => none
  | .forwardCompatNop slot w => some (.band slot w)
  | .add o => some (.s (.add o))
  | .sub o => some (.s (.sub o))
  | .mul o => some (.s (.mul o))
  | .mulh o => some (.s (.mulh o))
  | .mulhu o => some (.s (.mulhu o))
  | .and o => some (.s (.and o))
  | .or o => some (.s (.or o))
  | .xor o => some (.s (.xor o))
  | .andn o => some (.s (.andn o))
  | .shl o => some (.s (.shl o))
  | .shr o => some (.s (.shr o))
  | .sra o => some (.s (.sra o))
  | .rotl o => some (.s (.rotl o))
  | .min o => some (.s (.min o))
  | .max o => some (.s (.max o))
  | .minu o => some (.s (.minu o))
  | .maxu o => some (.s (.maxu o))
  | .popc o => some (.s (.popc o))
  | .clz o => some (.s (.clz o))
  | .ctz o => some (.s (.ctz o))
  | .bext o => some (.s (.bext o))
  | .bins o => some (.s (.bins o))
  | .cmpeq o => some (.s (.cmpeq o))
  | .cmpne o => some (.s (.cmpne o))
  | .cmplt o => some (.s (.cmplt o))
  | .cmpltu o => some (.s (.cmpltu o))
  | .cmple o => some (.s (.cmple o))
  | .cmpleu o => some (.s (.cmpleu o))
  | .gand o => some (.s (.gand o))
  | .gor o => some (.s (.gor o))
  | .gxor o => some (.s (.gxor o))
  | .gnot o => some (.s (.gnot o))
  | .addSi o => some (.s (.addSi o))
  | .andSi o => some (.s (.andSi o))
  | .orSi o => some (.s (.orSi o))
  | .xorSi o => some (.s (.xorSi o))
  | .shlSi o => some (.s (.shlSi o))
  | .shrSi o => some (.s (.shrSi o))
  | .sraSi o => some (.s (.sraSi o))
  | .cmpeqSi o => some (.s (.cmpeqSi o))
  | .cmpltSi o => some (.s (.cmpltSi o))
  | .cmpltuSi o => some (.s (.cmpltuSi o))
  | .movi o => some (.s (.movi o))
  | .movkH1 o => some (.s (.movkH1 o))
  | .movkH2 o => some (.s (.movkH2 o))
  | .movkH3 o => some (.s (.movkH3 o))
  | .movkH4 o => some (.s (.movkH4 o))
  | .addSj o => some (.s (.addSj o))
  | .andSj o => some (.s (.andSj o))
  | .orSj o => some (.s (.orSj o))
  | .xorSj o => some (.s (.xorSj o))
  | .sld8 o => some (.s (.sld8 o))
  | .sld16 o => some (.s (.sld16 o))
  | .sld32 o => some (.s (.sld32 o))
  | .sld64 o => some (.s (.sld64 o))
  | .sldz8 o => some (.s (.sldz8 o))
  | .sldz16 o => some (.s (.sldz16 o))
  | .sldz32 o => some (.s (.sldz32 o))
  | .sst8 o => some (.s (.sst8 o))
  | .sst16 o => some (.s (.sst16 o))
  | .sst32 o => some (.s (.sst32 o))
  | .sst64 o => some (.s (.sst64 o))
  | .lop3 o => some (.s (.lop3 o))
  | .fset o => some (.s (.fset o))
  | .fsetReg o => some (.s (.fsetReg o))
  | .vrot o => some (.s (.vrot o))
  | .cpyFromS o => some (.s (.cpyFromS o))
  | .cpyToS o => some (.s (.cpyToS o))
  | .wdone o => some (.s (.wdone o))
  | .movFromSys o => some (.s (.movFromSys o))
  | .movToSys o => some (.s (.movToSys o))
  | .trap o => some (.s (.trap o))
  | .esc o => some (.s (.esc o))
  | .mret o => some (.s (.mret o))
  | .yield o => some (.s (.yield o))
  | .pmq o => some (.s (.pmq o))
  | .pmpull o => some (.s (.pmpull o))
  | .ctxsave o => some (.s (.ctxsave o))
  | .ctxrest o => some (.s (.ctxrest o))
  | .ctxsw o => some (.s (.ctxsw o))
  | .dstop o => some (.s (.dstop o))
  | .wpset o => some (.s (.wpset o))
  | .wpclr o => some (.s (.wpclr o))
  | .rdtick o => some (.s (.rdtick o))
  | .rdcyc o => some (.s (.rdcyc o))
  | .br o => some (.l (.br o))
  | .call o => some (.l (.call o))
  | .ret o => some (.l (.ret o))
  | .loop o => some (.l (.loop o))
  | .loopImm o => some (.l (.loopImm o))
  | .lend o => some (.l (.lend o))
  | .lexit o => some (.l (.lexit o))
  | .bstep o => some (.l (.bstep o))
  | .bset o => some (.l (.bset o))
  | .dict o => some (.l (.dict o))
  | .ifence o => some (.l (.ifence o))
  | .kend o => some (.l (.kend o))
  | .qset o => some (.l (.qset o))
  | .kld o => some (.k (.kld o))
  | .kldp o => some (.k (.kldp o))
  | .kfill o => some (.k (.kfill o))
  | .kcpy o => some (.k (.kcpy o))
  | .vaddF32 sd o => some (.v sd (.vaddF32 o))
  | .vsubF32 sd o => some (.v sd (.vsubF32 o))
  | .vmulF32 sd o => some (.v sd (.vmulF32 o))
  | .vfmaF32 sd o => some (.v sd (.vfmaF32 o))
  | .vfmsF32 sd o => some (.v sd (.vfmsF32 o))
  | .vfnmaF32 sd o => some (.v sd (.vfnmaF32 o))
  | .vminF32 sd o => some (.v sd (.vminF32 o))
  | .vmaxF32 sd o => some (.v sd (.vmaxF32 o))
  | .vabsF32 sd o => some (.v sd (.vabsF32 o))
  | .vnegF32 sd o => some (.v sd (.vnegF32 o))
  | .vcmpeqF32 sd o => some (.v sd (.vcmpeqF32 o))
  | .vcmpltF32 sd o => some (.v sd (.vcmpltF32 o))
  | .vcmpleF32 sd o => some (.v sd (.vcmpleF32 o))
  | .vcmpunF32 sd o => some (.v sd (.vcmpunF32 o))
  | .vsel sd o => some (.v sd (.vsel o))
  | .vclassF32 sd o => some (.v sd (.vclassF32 o))
  | .vrecipF32 sd o => some (.v sd (.vrecipF32 o))
  | .vrsqrtF32 sd o => some (.v sd (.vrsqrtF32 o))
  | .vsqrtF32 sd o => some (.v sd (.vsqrtF32 o))
  | .vexp2F32 sd o => some (.v sd (.vexp2F32 o))
  | .vlog2F32 sd o => some (.v sd (.vlog2F32 o))
  | .vsinpiF32 sd o => some (.v sd (.vsinpiF32 o))
  | .vcospiF32 sd o => some (.v sd (.vcospiF32 o))
  | .vrecipBf16 sd o => some (.v sd (.vrecipBf16 o))
  | .vrsqrtBf16 sd o => some (.v sd (.vrsqrtBf16 o))
  | .vsqrtBf16 sd o => some (.v sd (.vsqrtBf16 o))
  | .vexp2Bf16 sd o => some (.v sd (.vexp2Bf16 o))
  | .vlog2Bf16 sd o => some (.v sd (.vlog2Bf16 o))
  | .vsinpiBf16 sd o => some (.v sd (.vsinpiBf16 o))
  | .vcospiBf16 sd o => some (.v sd (.vcospiBf16 o))
  | .vaddBf16 sd o => some (.v sd (.vaddBf16 o))
  | .vsubBf16 sd o => some (.v sd (.vsubBf16 o))
  | .vmulBf16 sd o => some (.v sd (.vmulBf16 o))
  | .vfmaBf16 sd o => some (.v sd (.vfmaBf16 o))
  | .vminBf16 sd o => some (.v sd (.vminBf16 o))
  | .vmaxBf16 sd o => some (.v sd (.vmaxBf16 o))
  | .vcmpeqBf16 sd o => some (.v sd (.vcmpeqBf16 o))
  | .vcmpltBf16 sd o => some (.v sd (.vcmpltBf16 o))
  | .vaddF16 sd o => some (.v sd (.vaddF16 o))
  | .vsubF16 sd o => some (.v sd (.vsubF16 o))
  | .vmulF16 sd o => some (.v sd (.vmulF16 o))
  | .vfmaF16 sd o => some (.v sd (.vfmaF16 o))
  | .vaddI32 sd o => some (.v sd (.vaddI32 o))
  | .vsubI32 sd o => some (.v sd (.vsubI32 o))
  | .vmulI32 sd o => some (.v sd (.vmulI32 o))
  | .vmulhI32 sd o => some (.v sd (.vmulhI32 o))
  | .vaddsI32 sd o => some (.v sd (.vaddsI32 o))
  | .vsubsI32 sd o => some (.v sd (.vsubsI32 o))
  | .vminI32 sd o => some (.v sd (.vminI32 o))
  | .vmaxI32 sd o => some (.v sd (.vmaxI32 o))
  | .vminN32 sd o => some (.v sd (.vminN32 o))
  | .vmaxN32 sd o => some (.v sd (.vmaxN32 o))
  | .vand sd o => some (.v sd (.vand o))
  | .vor sd o => some (.v sd (.vor o))
  | .vxor sd o => some (.v sd (.vxor o))
  | .vshl sd o => some (.v sd (.vshl o))
  | .vshr sd o => some (.v sd (.vshr o))
  | .vsra sd o => some (.v sd (.vsra o))
  | .vcmpeqI32 sd o => some (.v sd (.vcmpeqI32 o))
  | .vcmpltI32 sd o => some (.v sd (.vcmpltI32 o))
  | .vcmpltN32 sd o => some (.v sd (.vcmpltN32 o))
  | .vcvtF32I32 sd o => some (.v sd (.vcvtF32I32 o))
  | .vcvtI32F32 sd o => some (.v sd (.vcvtI32F32 o))
  | .vcvtF32Bf16 sd o => some (.v sd (.vcvtF32Bf16 o))
  | .vcvtBf16F32 sd o => some (.v sd (.vcvtBf16F32 o))
  | .vcvtF32F16 sd o => some (.v sd (.vcvtF32F16 o))
  | .vcvtF16F32 sd o => some (.v sd (.vcvtF16F32 o))
  | .vcvtF32E4m3 sd o => some (.v sd (.vcvtF32E4m3 o))
  | .vcvtE4m3F32 sd o => some (.v sd (.vcvtE4m3F32 o))
  | .vcvtF32E5m2 sd o => some (.v sd (.vcvtF32E5m2 o))
  | .vcvtE5m2F32 sd o => some (.v sd (.vcvtE5m2F32 o))
  | .vquantQ4 sd o => some (.v sd (.vquantQ4 o))
  | .vdequantQ4 sd o => some (.v sd (.vdequantQ4 o))
  | .vquantQ8 sd o => some (.v sd (.vquantQ8 o))
  | .vperm sd o => some (.v sd (.vperm o))
  | .vrotl sd o => some (.v sd (.vrotl o))
  | .vbcast sd o => some (.v sd (.vbcast o))
  | .vzip sd o => some (.v sd (.vzip o))
  | .vunzip sd o => some (.v sd (.vunzip o))
  | .vredsumF32 sd o => some (.v sd (.vredsumF32 o))
  | .vredmaxF32 sd o => some (.v sd (.vredmaxF32 o))
  | .vredminF32 sd o => some (.v sd (.vredminF32 o))
  | .vredsumI32 sd o => some (.v sd (.vredsumI32 o))
  | .vmand sd o => some (.v sd (.vmand o))
  | .vmor sd o => some (.v sd (.vmor o))
  | .vmxor sd o => some (.v sd (.vmxor o))
  | .vmnot sd o => some (.v sd (.vmnot o))
  | .vrng sd o => some (.v sd (.vrng o))
  | .vrngset sd o => some (.v sd (.vrngset o))
  | .vxfer sd o => some (.v sd (.vxfer o))
  | .vldF32 sd o => some (.v sd (.vldF32 o))
  | .vldI32 sd o => some (.v sd (.vldI32 o))
  | .vldBf16 sd o => some (.v sd (.vldBf16 o))
  | .vldF16 sd o => some (.v sd (.vldF16 o))
  | .vstF32 sd o => some (.v sd (.vstF32 o))
  | .vstI32 sd o => some (.v sd (.vstI32 o))
  | .vstBf16 sd o => some (.v sd (.vstBf16 o))
  | .vstF16 sd o => some (.v sd (.vstF16 o))
  | .vpmulP16 sd o => some (.v sd (.vpmulP16 o))
  | .vpmulP8 sd o => some (.v sd (.vpmulP8 o))
  | .vpcmpP16 sd o => some (.v sd (.vpcmpP16 o))
  | .vpscP16 sd o => some (.v sd (.vpscP16 o))
  | .vpsumP16 sd o => some (.v sd (.vpsumP16 o))
  | .vpresP16 sd o => some (.v sd (.vpresP16 o))
  | .vplenP16 sd o => some (.v sd (.vplenP16 o))
  | .vpcvtP8 sd o => some (.v sd (.vpcvtP8 o))
  | .mpush o => some (.m (.mpush o))
  | .mshift o => some (.m (.mshift o))
  | .macc o => some (.m (.macc o))
  | .maccp o => some (.m (.maccp o))
  | .mdrain o => some (.m (.mdrain o))
  | .manch o => some (.m (.manch o))
  | .mzero o => some (.m (.mzero o))
  | .mrow o => some (.m (.mrow o))
  | .mexact o => some (.m (.mexact o))
  | .mdrainv o => some (.m (.mdrainv o))
  | .copy1d sd o => some (.c sd (.copy1d o))
  | .copy2d sd o => some (.c sd (.copy2d o))
  | .copy3d sd o => some (.c sd (.copy3d o))
  | .gather sd o => some (.c sd (.gather o))
  | .scatter sd o => some (.c sd (.scatter o))
  | .mcast sd o => some (.c sd (.mcast o))
  | .send sd o => some (.c sd (.send o))
  | .recv sd o => some (.c sd (.recv o))
  | .bankWadd sd o => some (.c sd (.bankWadd o))
  | .bankAdd sd o => some (.c sd (.bankAdd o))
  | .bankMax sd o => some (.c sd (.bankMax o))
  | .bankMin sd o => some (.c sd (.bankMin o))
  | .barArrive sd o => some (.c sd (.barArrive o))
  | .barWait sd o => some (.c sd (.barWait o))
  | .sfence sd o => some (.c sd (.sfence o))
  | .srst sd o => some (.c sd (.srst o))
  | .copy1dCs sd o => some (.c sd (.copy1dCs o))
  | .copy2dCs sd o => some (.c sd (.copy2dCs o))
  | .copy3dCs sd o => some (.c sd (.copy3dCs o))
  | .gatherCs sd o => some (.c sd (.gatherCs o))
  | .scatterCs sd o => some (.c sd (.scatterCs o))
  | .st32 sd o => some (.c sd (.st32 o))
  | .st64 sd o => some (.c sd (.st64 o))
  | .ld64 sd o => some (.c sd (.ld64 o))
  | .atomAdd sd o => some (.c sd (.atomAdd o))
  | .atomAnd sd o => some (.c sd (.atomAnd o))
  | .atomOr sd o => some (.c sd (.atomOr o))
  | .atomXor sd o => some (.c sd (.atomXor o))
  | .atomMax sd o => some (.c sd (.atomMax o))
  | .atomMin sd o => some (.c sd (.atomMin o))
  | .atomSwap sd o => some (.c sd (.atomSwap o))
  | .atomCas sd o => some (.c sd (.atomCas o))
  | .msaCas4 sd o => some (.c sd (.msaCas4 o))
  | .msaEnq sd o => some (.c sd (.msaEnq o))
  | .msaDeq sd o => some (.c sd (.msaDeq o))
  | .msaChase sd o => some (.c sd (.msaChase o))
  | .scLd64 sd o => some (.c sd (.scLd64 o))
  | .scSt64 sd o => some (.c sd (.scSt64 o))
  | .scSwap sd o => some (.c sd (.scSwap o))
  | .scAdd sd o => some (.c sd (.scAdd o))
  | .transferComplete _ _ _ => none
  | .releaseWriteSend _ _ _ => none
  | .sendArrival _ => none
  | .mcastLanding _ => none
  | .barrierArrivalSend _ _ => none
  | .barrierRootArrival _ => none
  | .barrierFlipReach _ _ => none
  | .scPerform _ _ _ => none
  | .streamPacketArrive _ => none
  | .stream0PacketArrive _ => none
  | .ackReceive _ => none
  | .packetResendTimeout _ => none
  | .planeFail _ => none
  | .streamResync _ _ _ => none
  | .resyncReceive _ => none
  | .pairRekey _ _ => none
  | .replicaWriteApply _ => none
  | .replicaReadServe _ _ _ => none
  | .migrationCutover _ => none
  | .pageWalkDone _ _ => none
  | .twMatmul _ => none
  | .twMatmulp _ => none
  | .twUnary _ => none
  | .twBinary _ => none
  | .twReduce _ => none
  | .twTranspose _ => none
  | .twGather _ => none
  | .twScatteradd _ => none
  | .twAllreduce _ => none
  | .twPhreduce _ => none
  | .twCall _ => none
  | .twBarrier _ => none
  | .twSfence _ => none
  | .twCopy _ => none
  | .twFill _ => none
  | .twQuant _ => none
  | .twDequant _ => none
  | .twConvert _ => none
  | .twRng _ => none
  | .twWadd _ => none
  | .twDrain _ => none
  | .twSignal _ => none
  | .twWait _ => none
  | .twNop _ => none
  | .twForwardBand _ _ => none
  | .tileStageDone _ => none
  | .tileChildIssue _ => none
  | .tileChildComplete _ _ => none
  | .tileChildFault _ _ => none
  | .tileJoinDone _ => none
  | .tileCommit _ => none
  | .kernelStart _ _ => none
  | .promotion _ => none
  | .starvationMark _ => none
  | .yieldEligible _ => none
  | .preemption _ => none
  | .progressTimeout _ => none
  | .escAnswer _ _ => none
  | .ctxRequestDecided _ => none
  | .contextSave _ => none
  | .unitDepartureDone _ _ => none
  | .saveFailed _ => none
  | .contextRestore _ _ _ => none
  | .pullLand _ _ => none
  | .restoreUnreachable _ _ => none
  | .directoryReread _ _ => none
  | .stopLanding _ => none
  | .debuggerStopRequest _ _ => none
  | .watchChannelMatch _ _ _ => none
  | .samplePoint _ => none
  | .segmentRollover _ => none
  | .traceDrain _ => none
  | .ringEnable _ => none
  | .ringRestart _ => none
  | .registerWrite _ _ => none
  | .ringPacketTake _ => none
  | .submit _ => none
  | .regionInstall _ => none
  | .regionRemove _ => none
  | .kernelRegister _ => none
  | .map _ => none
  | .unmap _ => none
  | .traceSet _ => none
  | .dumpSet _ => none
  | .exportSet _ => none
  | .savePool _ => none
  | .mailboxMessage _ _ _ => none
  | .getVersion => none
  | .getCapabilities _ => none
  | .negotiateAlgorithms _ _ => none
  | .getDigests => none
  | .getCertificate _ _ _ => none
  | .challenge _ _ => none
  | .getMeasurements _ _ _ => none
  | .keyExchange _ _ => none
  | .finish _ => none
  | .endSession => none
  | .unsupportedRequest _ => none
  | .firmwareImageWrite _ _ _ => none
  | .functionSwitch _ => none
  | .firmwareRemeasure _ _ => none
  | .packageColdReset => none
  | .packageWarmReset => none
  | .hostDieReset => none
  | .computeDieReset _ => none
  | .clusterClear _ => none
  | .coreReset _ => none
  | .engineReset _ => none
  | .firmwareCoreReset _ => none
  | .tamperEvent _ => none
  | .clockRatioChange _ _ => none
  | .thermalShutdown => none
  | .telemetryPeriodic _ => none
  | .peerWithdraw _ _ => none
  | .debuggerAttach _ _ => none
  | .pageMigrationStart _ _ _ => none
  | .pageReplication _ _ _ => none
  | .telemetryRequest _ => none

/-- The row of a syllable. Noncomputable only because Lean's runtime has no constructor tags above 244; the kernel evaluates it. -/
noncomputable def instrOf : Syl → Instr
  | .s (.add o) => .add o
  | .s (.sub o) => .sub o
  | .s (.mul o) => .mul o
  | .s (.mulh o) => .mulh o
  | .s (.mulhu o) => .mulhu o
  | .s (.and o) => .and o
  | .s (.or o) => .or o
  | .s (.xor o) => .xor o
  | .s (.andn o) => .andn o
  | .s (.shl o) => .shl o
  | .s (.shr o) => .shr o
  | .s (.sra o) => .sra o
  | .s (.rotl o) => .rotl o
  | .s (.min o) => .min o
  | .s (.max o) => .max o
  | .s (.minu o) => .minu o
  | .s (.maxu o) => .maxu o
  | .s (.popc o) => .popc o
  | .s (.clz o) => .clz o
  | .s (.ctz o) => .ctz o
  | .s (.bext o) => .bext o
  | .s (.bins o) => .bins o
  | .s (.cmpeq o) => .cmpeq o
  | .s (.cmpne o) => .cmpne o
  | .s (.cmplt o) => .cmplt o
  | .s (.cmpltu o) => .cmpltu o
  | .s (.cmple o) => .cmple o
  | .s (.cmpleu o) => .cmpleu o
  | .s (.gand o) => .gand o
  | .s (.gor o) => .gor o
  | .s (.gxor o) => .gxor o
  | .s (.gnot o) => .gnot o
  | .s (.addSi o) => .addSi o
  | .s (.andSi o) => .andSi o
  | .s (.orSi o) => .orSi o
  | .s (.xorSi o) => .xorSi o
  | .s (.shlSi o) => .shlSi o
  | .s (.shrSi o) => .shrSi o
  | .s (.sraSi o) => .sraSi o
  | .s (.cmpeqSi o) => .cmpeqSi o
  | .s (.cmpltSi o) => .cmpltSi o
  | .s (.cmpltuSi o) => .cmpltuSi o
  | .s (.movi o) => .movi o
  | .s (.movkH1 o) => .movkH1 o
  | .s (.movkH2 o) => .movkH2 o
  | .s (.movkH3 o) => .movkH3 o
  | .s (.movkH4 o) => .movkH4 o
  | .s (.addSj o) => .addSj o
  | .s (.andSj o) => .andSj o
  | .s (.orSj o) => .orSj o
  | .s (.xorSj o) => .xorSj o
  | .s (.sld8 o) => .sld8 o
  | .s (.sld16 o) => .sld16 o
  | .s (.sld32 o) => .sld32 o
  | .s (.sld64 o) => .sld64 o
  | .s (.sldz8 o) => .sldz8 o
  | .s (.sldz16 o) => .sldz16 o
  | .s (.sldz32 o) => .sldz32 o
  | .s (.sst8 o) => .sst8 o
  | .s (.sst16 o) => .sst16 o
  | .s (.sst32 o) => .sst32 o
  | .s (.sst64 o) => .sst64 o
  | .s (.lop3 o) => .lop3 o
  | .s (.fset o) => .fset o
  | .s (.fsetReg o) => .fsetReg o
  | .s (.vrot o) => .vrot o
  | .s (.cpyFromS o) => .cpyFromS o
  | .s (.cpyToS o) => .cpyToS o
  | .s (.wdone o) => .wdone o
  | .s (.movFromSys o) => .movFromSys o
  | .s (.movToSys o) => .movToSys o
  | .s (.trap o) => .trap o
  | .s (.esc o) => .esc o
  | .s (.mret o) => .mret o
  | .s (.yield o) => .yield o
  | .s (.pmq o) => .pmq o
  | .s (.pmpull o) => .pmpull o
  | .s (.ctxsave o) => .ctxsave o
  | .s (.ctxrest o) => .ctxrest o
  | .s (.ctxsw o) => .ctxsw o
  | .s (.dstop o) => .dstop o
  | .s (.wpset o) => .wpset o
  | .s (.wpclr o) => .wpclr o
  | .s (.rdtick o) => .rdtick o
  | .s (.rdcyc o) => .rdcyc o
  | .l (.br o) => .br o
  | .l (.call o) => .call o
  | .l (.ret o) => .ret o
  | .l (.loop o) => .loop o
  | .l (.loopImm o) => .loopImm o
  | .l (.lend o) => .lend o
  | .l (.lexit o) => .lexit o
  | .l (.bstep o) => .bstep o
  | .l (.bset o) => .bset o
  | .l (.dict o) => .dict o
  | .l (.ifence o) => .ifence o
  | .l (.kend o) => .kend o
  | .l (.qset o) => .qset o
  | .k (.kld o) => .kld o
  | .k (.kldp o) => .kldp o
  | .k (.kfill o) => .kfill o
  | .k (.kcpy o) => .kcpy o
  | .v sd (.vaddF32 o) => .vaddF32 sd o
  | .v sd (.vsubF32 o) => .vsubF32 sd o
  | .v sd (.vmulF32 o) => .vmulF32 sd o
  | .v sd (.vfmaF32 o) => .vfmaF32 sd o
  | .v sd (.vfmsF32 o) => .vfmsF32 sd o
  | .v sd (.vfnmaF32 o) => .vfnmaF32 sd o
  | .v sd (.vminF32 o) => .vminF32 sd o
  | .v sd (.vmaxF32 o) => .vmaxF32 sd o
  | .v sd (.vabsF32 o) => .vabsF32 sd o
  | .v sd (.vnegF32 o) => .vnegF32 sd o
  | .v sd (.vcmpeqF32 o) => .vcmpeqF32 sd o
  | .v sd (.vcmpltF32 o) => .vcmpltF32 sd o
  | .v sd (.vcmpleF32 o) => .vcmpleF32 sd o
  | .v sd (.vcmpunF32 o) => .vcmpunF32 sd o
  | .v sd (.vsel o) => .vsel sd o
  | .v sd (.vclassF32 o) => .vclassF32 sd o
  | .v sd (.vrecipF32 o) => .vrecipF32 sd o
  | .v sd (.vrsqrtF32 o) => .vrsqrtF32 sd o
  | .v sd (.vsqrtF32 o) => .vsqrtF32 sd o
  | .v sd (.vexp2F32 o) => .vexp2F32 sd o
  | .v sd (.vlog2F32 o) => .vlog2F32 sd o
  | .v sd (.vsinpiF32 o) => .vsinpiF32 sd o
  | .v sd (.vcospiF32 o) => .vcospiF32 sd o
  | .v sd (.vrecipBf16 o) => .vrecipBf16 sd o
  | .v sd (.vrsqrtBf16 o) => .vrsqrtBf16 sd o
  | .v sd (.vsqrtBf16 o) => .vsqrtBf16 sd o
  | .v sd (.vexp2Bf16 o) => .vexp2Bf16 sd o
  | .v sd (.vlog2Bf16 o) => .vlog2Bf16 sd o
  | .v sd (.vsinpiBf16 o) => .vsinpiBf16 sd o
  | .v sd (.vcospiBf16 o) => .vcospiBf16 sd o
  | .v sd (.vaddBf16 o) => .vaddBf16 sd o
  | .v sd (.vsubBf16 o) => .vsubBf16 sd o
  | .v sd (.vmulBf16 o) => .vmulBf16 sd o
  | .v sd (.vfmaBf16 o) => .vfmaBf16 sd o
  | .v sd (.vminBf16 o) => .vminBf16 sd o
  | .v sd (.vmaxBf16 o) => .vmaxBf16 sd o
  | .v sd (.vcmpeqBf16 o) => .vcmpeqBf16 sd o
  | .v sd (.vcmpltBf16 o) => .vcmpltBf16 sd o
  | .v sd (.vaddF16 o) => .vaddF16 sd o
  | .v sd (.vsubF16 o) => .vsubF16 sd o
  | .v sd (.vmulF16 o) => .vmulF16 sd o
  | .v sd (.vfmaF16 o) => .vfmaF16 sd o
  | .v sd (.vaddI32 o) => .vaddI32 sd o
  | .v sd (.vsubI32 o) => .vsubI32 sd o
  | .v sd (.vmulI32 o) => .vmulI32 sd o
  | .v sd (.vmulhI32 o) => .vmulhI32 sd o
  | .v sd (.vaddsI32 o) => .vaddsI32 sd o
  | .v sd (.vsubsI32 o) => .vsubsI32 sd o
  | .v sd (.vminI32 o) => .vminI32 sd o
  | .v sd (.vmaxI32 o) => .vmaxI32 sd o
  | .v sd (.vminN32 o) => .vminN32 sd o
  | .v sd (.vmaxN32 o) => .vmaxN32 sd o
  | .v sd (.vand o) => .vand sd o
  | .v sd (.vor o) => .vor sd o
  | .v sd (.vxor o) => .vxor sd o
  | .v sd (.vshl o) => .vshl sd o
  | .v sd (.vshr o) => .vshr sd o
  | .v sd (.vsra o) => .vsra sd o
  | .v sd (.vcmpeqI32 o) => .vcmpeqI32 sd o
  | .v sd (.vcmpltI32 o) => .vcmpltI32 sd o
  | .v sd (.vcmpltN32 o) => .vcmpltN32 sd o
  | .v sd (.vcvtF32I32 o) => .vcvtF32I32 sd o
  | .v sd (.vcvtI32F32 o) => .vcvtI32F32 sd o
  | .v sd (.vcvtF32Bf16 o) => .vcvtF32Bf16 sd o
  | .v sd (.vcvtBf16F32 o) => .vcvtBf16F32 sd o
  | .v sd (.vcvtF32F16 o) => .vcvtF32F16 sd o
  | .v sd (.vcvtF16F32 o) => .vcvtF16F32 sd o
  | .v sd (.vcvtF32E4m3 o) => .vcvtF32E4m3 sd o
  | .v sd (.vcvtE4m3F32 o) => .vcvtE4m3F32 sd o
  | .v sd (.vcvtF32E5m2 o) => .vcvtF32E5m2 sd o
  | .v sd (.vcvtE5m2F32 o) => .vcvtE5m2F32 sd o
  | .v sd (.vquantQ4 o) => .vquantQ4 sd o
  | .v sd (.vdequantQ4 o) => .vdequantQ4 sd o
  | .v sd (.vquantQ8 o) => .vquantQ8 sd o
  | .v sd (.vperm o) => .vperm sd o
  | .v sd (.vrotl o) => .vrotl sd o
  | .v sd (.vbcast o) => .vbcast sd o
  | .v sd (.vzip o) => .vzip sd o
  | .v sd (.vunzip o) => .vunzip sd o
  | .v sd (.vredsumF32 o) => .vredsumF32 sd o
  | .v sd (.vredmaxF32 o) => .vredmaxF32 sd o
  | .v sd (.vredminF32 o) => .vredminF32 sd o
  | .v sd (.vredsumI32 o) => .vredsumI32 sd o
  | .v sd (.vmand o) => .vmand sd o
  | .v sd (.vmor o) => .vmor sd o
  | .v sd (.vmxor o) => .vmxor sd o
  | .v sd (.vmnot o) => .vmnot sd o
  | .v sd (.vrng o) => .vrng sd o
  | .v sd (.vrngset o) => .vrngset sd o
  | .v sd (.vxfer o) => .vxfer sd o
  | .v sd (.vldF32 o) => .vldF32 sd o
  | .v sd (.vldI32 o) => .vldI32 sd o
  | .v sd (.vldBf16 o) => .vldBf16 sd o
  | .v sd (.vldF16 o) => .vldF16 sd o
  | .v sd (.vstF32 o) => .vstF32 sd o
  | .v sd (.vstI32 o) => .vstI32 sd o
  | .v sd (.vstBf16 o) => .vstBf16 sd o
  | .v sd (.vstF16 o) => .vstF16 sd o
  | .v sd (.vpmulP16 o) => .vpmulP16 sd o
  | .v sd (.vpmulP8 o) => .vpmulP8 sd o
  | .v sd (.vpcmpP16 o) => .vpcmpP16 sd o
  | .v sd (.vpscP16 o) => .vpscP16 sd o
  | .v sd (.vpsumP16 o) => .vpsumP16 sd o
  | .v sd (.vpresP16 o) => .vpresP16 sd o
  | .v sd (.vplenP16 o) => .vplenP16 sd o
  | .v sd (.vpcvtP8 o) => .vpcvtP8 sd o
  | .m (.mpush o) => .mpush o
  | .m (.mshift o) => .mshift o
  | .m (.macc o) => .macc o
  | .m (.maccp o) => .maccp o
  | .m (.mdrain o) => .mdrain o
  | .m (.manch o) => .manch o
  | .m (.mzero o) => .mzero o
  | .m (.mrow o) => .mrow o
  | .m (.mexact o) => .mexact o
  | .m (.mdrainv o) => .mdrainv o
  | .c sd (.copy1d o) => .copy1d sd o
  | .c sd (.copy2d o) => .copy2d sd o
  | .c sd (.copy3d o) => .copy3d sd o
  | .c sd (.gather o) => .gather sd o
  | .c sd (.scatter o) => .scatter sd o
  | .c sd (.mcast o) => .mcast sd o
  | .c sd (.send o) => .send sd o
  | .c sd (.recv o) => .recv sd o
  | .c sd (.bankWadd o) => .bankWadd sd o
  | .c sd (.bankAdd o) => .bankAdd sd o
  | .c sd (.bankMax o) => .bankMax sd o
  | .c sd (.bankMin o) => .bankMin sd o
  | .c sd (.barArrive o) => .barArrive sd o
  | .c sd (.barWait o) => .barWait sd o
  | .c sd (.sfence o) => .sfence sd o
  | .c sd (.srst o) => .srst sd o
  | .c sd (.copy1dCs o) => .copy1dCs sd o
  | .c sd (.copy2dCs o) => .copy2dCs sd o
  | .c sd (.copy3dCs o) => .copy3dCs sd o
  | .c sd (.gatherCs o) => .gatherCs sd o
  | .c sd (.scatterCs o) => .scatterCs sd o
  | .c sd (.st32 o) => .st32 sd o
  | .c sd (.st64 o) => .st64 sd o
  | .c sd (.ld64 o) => .ld64 sd o
  | .c sd (.atomAdd o) => .atomAdd sd o
  | .c sd (.atomAnd o) => .atomAnd sd o
  | .c sd (.atomOr o) => .atomOr sd o
  | .c sd (.atomXor o) => .atomXor sd o
  | .c sd (.atomMax o) => .atomMax sd o
  | .c sd (.atomMin o) => .atomMin sd o
  | .c sd (.atomSwap o) => .atomSwap sd o
  | .c sd (.atomCas o) => .atomCas sd o
  | .c sd (.msaCas4 o) => .msaCas4 sd o
  | .c sd (.msaEnq o) => .msaEnq sd o
  | .c sd (.msaDeq o) => .msaDeq sd o
  | .c sd (.msaChase o) => .msaChase sd o
  | .c sd (.scLd64 o) => .scLd64 sd o
  | .c sd (.scSt64 o) => .scSt64 sd o
  | .c sd (.scSwap o) => .scSwap sd o
  | .c sd (.scAdd o) => .scAdd sd o
  | .band slot w => .forwardCompatNop slot w

end Sys2Proof
end

