-- ==== Sys2Proof/WellFormed.lean ====
section
/-! DEFINITION. Which operands of a syllable the encoding admits: reserved and unused fields, register numbers outside their file and illegal
field values make a syllable trap with ILLEGAL_OPCODE (03 R49, R50-R57; 05 R95). The steps of the part have no encoding. -/

namespace Sys2Proof

/-- A guard destination: g1 to g7 (R50). -/
def gDest (rd : BitVec 6) : Bool := decide (1 ≤ rd.toNat) && decide (rd.toNat < 8)
/-- A guard source: g0 to g7 (R50). -/
def gSrc (r : BitVec 6) : Bool := decide (r.toNat < 8)

/-- `cpy` from an s register: b, d, e, va or vb (R108). -/
def cpyInto (file : BitVec 3) (reg : BitVec 11) : Bool :=
  match file.toNat with
  | 0 => decide (reg.toNat < 8)
  | 2 => decide (reg.toNat < 32)
  | 3 => decide (reg.toNat < 32)
  | 4 => true
  | 5 => true
  | _ => false

/-- `cpy` into an s register: also the fields 0 to 2 of l0 to l3 (R108). -/
def cpyOutOf (file : BitVec 3) (reg : BitVec 11) : Bool :=
  match file.toNat with
  | 1 => decide (reg.toNat < 16) && !(reg.toNat % 4 == 3)
  | _ => cpyInto file reg

/-- The numbers of the system registers: those of kernels (R110) and those of the monitor (13 R292). -/
def sysNumber (n : BitVec 14) : Bool :=
  decide (n.toNat ≤ 5) || (decide (8 ≤ n.toNat) && decide (n.toNat ≤ 0x1B)) || (decide (0x40 ≤ n.toNat) && decide (n.toNat ≤ 0x5F)) ||
  (decide (0x200 ≤ n.toNat) && decide (n.toNat ≤ 0x205)) || (decide (0x208 ≤ n.toNat) && decide (n.toNat ≤ 0x217)) || n.toNat == 0x220

/-- A present/absent unit as `pmq` and `pmpull` name it (13 R290). -/
def unitNumber (n : BitVec 14) : Bool :=
  match n.toNat / 4096 with
  | 0 => decide (n.toNat % 4096 < 512)
  | 3 => decide (n.toNat % 4096 < 32)
  | _ => decide (n.toNat % 4096 < 128)

/-- The count of a shift or lane rotation (R127): a register count (imm9 zero), or imm9 bit 8 with bits 7:6 zero, vsb zero and a count below `lim`. -/
def shiftImm (imm : BitVec 9) (vsb : BitVec 11) (lim : Nat) : Bool :=
  imm == 0 || (decide (256 ≤ imm.toNat) && decide (imm.toNat < 256 + lim) && vsb == 0)

/-- Scope 110 and 111 are illegal, and a stream, acquire or release with scope 000 (R56). -/
def csScope (o : CS) : Bool :=
  decide (o.scope.toNat < 6) && (!(o.scope == 0) || (o.stream == 0 && o.acq == 0 && o.rel == 0))


/-- A word of the forward-compatibility band (R57): its slot's opcode field is 0xF0 to 0xFF, and a 32-bit slot's word has 32 bits. -/
def bandWord (slot : BitVec 3) (w : BitVec 64) : Bool :=
  bif decide (3 ≤ slot.toNat ∧ slot.toNat ≤ 5) then decide (0xF0 ≤ w.toNat / 2 ^ 56)
  else decide (0xF0 ≤ w.toNat / 2 ^ 24 ∧ w.toNat < 2 ^ 32)

/-- The operand limits of the syllables of the S slot. -/
def wfS : SSyl → Bool
  | .add _ => true
  | .sub _ => true
  | .mul _ => true
  | .mulh _ => true
  | .mulhu _ => true
  | .and _ => true
  | .or _ => true
  | .xor _ => true
  | .andn _ => true
  | .shl _ => true
  | .shr _ => true
  | .sra _ => true
  | .rotl _ => true
  | .min _ => true
  | .max _ => true
  | .minu _ => true
  | .maxu _ => true
  | .popc _ => true
  | .clz _ => true
  | .ctz _ => true
  | .bext _ => true
  | .bins _ => true
  | .cmpeq o => gDest o.rd
  | .cmpne o => gDest o.rd
  | .cmplt o => gDest o.rd
  | .cmpltu o => gDest o.rd
  | .cmple o => gDest o.rd
  | .cmpleu o => gDest o.rd
  | .gand o => gDest o.rd && gSrc o.ra && gSrc o.rb
  | .gor o => gDest o.rd && gSrc o.ra && gSrc o.rb
  | .gxor o => gDest o.rd && gSrc o.ra && gSrc o.rb
  | .gnot o => gDest o.rd && gSrc o.ra
  | .addSi _ => true
  | .andSi _ => true
  | .orSi _ => true
  | .xorSi _ => true
  | .shlSi o => decide (o.imm.toNat < 64)
  | .shrSi o => decide (o.imm.toNat < 64)
  | .sraSi o => decide (o.imm.toNat < 64)
  | .cmpeqSi o => gDest o.rd
  | .cmpltSi o => gDest o.rd
  | .cmpltuSi o => gDest o.rd
  | .movi _ => true
  | .movkH1 _ => true
  | .movkH2 _ => true
  | .movkH3 _ => true
  | .movkH4 _ => true
  | .addSj _ => true
  | .andSj _ => true
  | .orSj _ => true
  | .xorSj _ => true
  | .sld8 _ => true
  | .sld16 _ => true
  | .sld32 _ => true
  | .sld64 _ => true
  | .sldz8 _ => true
  | .sldz16 _ => true
  | .sldz32 _ => true
  | .sst8 _ => true
  | .sst16 _ => true
  | .sst32 _ => true
  | .sst64 _ => true
  | .lop3 _ => true
  | .fset o => decide (o.slot.toNat < 5)
  | .fsetReg o => decide (o.slot.toNat < 5)
  | .vrot _ => true
  | .cpyFromS o => cpyInto o.file o.reg
  | .cpyToS o => cpyOutOf o.file o.reg
  | .wdone _ => true
  | .movFromSys o => sysNumber o.n
  | .movToSys o => sysNumber o.n
  | .trap _ => true
  | .esc _ => true
  | .mret _ => true
  | .yield _ => true
  | .pmq o => unitNumber o.n
  | .pmpull o => unitNumber o.n
  | .ctxsave _ => true
  | .ctxrest _ => true
  | .ctxsw _ => true
  | .dstop _ => true
  | .wpset _ => true
  | .wpclr _ => true
  | .rdtick _ => true
  | .rdcyc _ => true

/-- The operand limits of the syllables of the L slot. -/
def wfL : LSyl → Bool
  | .br _ => true
  | .call _ => true
  | .ret _ => true
  | .loop o => decide (o.st.toNat < 8)
  | .loopImm o => decide (o.st.toNat < 8) && decide (0 < o.cnt.toNat)
  | .lend _ => true
  | .lexit _ => true
  | .bstep _ => true
  | .bset _ => true
  | .dict _ => true
  | .ifence _ => true
  | .kend _ => true
  | .qset _ => true

/-- The operand limits of the syllables of the K slot. -/
def wfK : KSyl → Bool
  | .kld _ => true
  | .kldp _ => true
  | .kfill _ => true
  | .kcpy _ => true

/-- The operand limits of the syllables of either vector slot. -/
def wfV : VSyl → Bool
  | .vaddF32 o => decide (o.rm.toNat < 5) && o.imm == 0
  | .vsubF32 o => decide (o.rm.toNat < 5) && o.imm == 0
  | .vmulF32 o => decide (o.rm.toNat < 5) && o.imm == 0
  | .vfmaF32 o => decide (o.rm.toNat < 5)
  | .vfmsF32 o => decide (o.rm.toNat < 5)
  | .vfnmaF32 o => decide (o.rm.toNat < 5)
  | .vminF32 o => o.rm == 0 && o.imm == 0
  | .vmaxF32 o => o.rm == 0 && o.imm == 0
  | .vabsF32 o => o.rm == 0 && o.imm == 0 && o.vsb == 0
  | .vnegF32 o => o.rm == 0 && o.imm == 0 && o.vsb == 0
  | .vcmpeqF32 o => o.rm == 0 && o.imm == 0 && decide (o.vd.toNat < 16)
  | .vcmpltF32 o => o.rm == 0 && o.imm == 0 && decide (o.vd.toNat < 16)
  | .vcmpleF32 o => o.rm == 0 && o.imm == 0 && decide (o.vd.toNat < 16)
  | .vcmpunF32 o => o.rm == 0 && o.imm == 0 && decide (o.vd.toNat < 16)
  | .vsel o => o.rm == 0
  | .vclassF32 o => o.rm == 0 && o.imm == 0 && o.vsb == 0
  | .vrecipF32 o => decide (o.rm.toNat < 5) && o.imm == 0 && o.vsb == 0
  | .vrsqrtF32 o => decide (o.rm.toNat < 5) && o.imm == 0 && o.vsb == 0
  | .vsqrtF32 o => decide (o.rm.toNat < 5) && o.imm == 0 && o.vsb == 0
  | .vexp2F32 o => decide (o.rm.toNat < 5) && o.imm == 0 && o.vsb == 0
  | .vlog2F32 o => decide (o.rm.toNat < 5) && o.imm == 0 && o.vsb == 0
  | .vsinpiF32 o => decide (o.rm.toNat < 5) && o.imm == 0 && o.vsb == 0
  | .vcospiF32 o => decide (o.rm.toNat < 5) && o.imm == 0 && o.vsb == 0
  | .vrecipBf16 o => decide (o.rm.toNat < 5) && o.imm == 0 && o.vsb == 0
  | .vrsqrtBf16 o => decide (o.rm.toNat < 5) && o.imm == 0 && o.vsb == 0
  | .vsqrtBf16 o => decide (o.rm.toNat < 5) && o.imm == 0 && o.vsb == 0
  | .vexp2Bf16 o => decide (o.rm.toNat < 5) && o.imm == 0 && o.vsb == 0
  | .vlog2Bf16 o => decide (o.rm.toNat < 5) && o.imm == 0 && o.vsb == 0
  | .vsinpiBf16 o => decide (o.rm.toNat < 5) && o.imm == 0 && o.vsb == 0
  | .vcospiBf16 o => decide (o.rm.toNat < 5) && o.imm == 0 && o.vsb == 0
  | .vaddBf16 o => decide (o.rm.toNat < 5) && o.imm == 0
  | .vsubBf16 o => decide (o.rm.toNat < 5) && o.imm == 0
  | .vmulBf16 o => decide (o.rm.toNat < 5) && o.imm == 0
  | .vfmaBf16 o => decide (o.rm.toNat < 5)
  | .vminBf16 o => o.rm == 0 && o.imm == 0
  | .vmaxBf16 o => o.rm == 0 && o.imm == 0
  | .vcmpeqBf16 o => o.rm == 0 && o.imm == 0 && decide (o.vd.toNat < 16) && o.vd.toNat % 2 == 0
  | .vcmpltBf16 o => o.rm == 0 && o.imm == 0 && decide (o.vd.toNat < 16) && o.vd.toNat % 2 == 0
  | .vaddF16 o => decide (o.rm.toNat < 5) && o.imm == 0
  | .vsubF16 o => decide (o.rm.toNat < 5) && o.imm == 0
  | .vmulF16 o => decide (o.rm.toNat < 5) && o.imm == 0
  | .vfmaF16 o => decide (o.rm.toNat < 5)
  | .vaddI32 o => o.rm == 0 && o.imm == 0
  | .vsubI32 o => o.rm == 0 && o.imm == 0
  | .vmulI32 o => o.rm == 0 && o.imm == 0
  | .vmulhI32 o => o.rm == 0 && o.imm == 0
  | .vaddsI32 o => o.rm == 0 && o.imm == 0
  | .vsubsI32 o => o.rm == 0 && o.imm == 0
  | .vminI32 o => o.rm == 0 && o.imm == 0
  | .vmaxI32 o => o.rm == 0 && o.imm == 0
  | .vminN32 o => o.rm == 0 && o.imm == 0
  | .vmaxN32 o => o.rm == 0 && o.imm == 0
  | .vand o => o.rm == 0 && o.imm == 0
  | .vor o => o.rm == 0 && o.imm == 0
  | .vxor o => o.rm == 0 && o.imm == 0
  | .vshl o => o.rm == 0 && shiftImm o.imm o.vsb 32
  | .vshr o => o.rm == 0 && shiftImm o.imm o.vsb 32
  | .vsra o => o.rm == 0 && shiftImm o.imm o.vsb 32
  | .vcmpeqI32 o => o.rm == 0 && o.imm == 0 && decide (o.vd.toNat < 16)
  | .vcmpltI32 o => o.rm == 0 && o.imm == 0 && decide (o.vd.toNat < 16)
  | .vcmpltN32 o => o.rm == 0 && o.imm == 0 && decide (o.vd.toNat < 16)
  | .vcvtF32I32 o => decide (o.rm.toNat < 5) && o.imm == 0 && o.vsb == 0
  | .vcvtI32F32 o => decide (o.rm.toNat < 5) && o.imm == 0 && o.vsb == 0
  | .vcvtF32Bf16 o => o.rm == 0 && decide (o.imm.toNat < 2) && o.vsb == 0
  | .vcvtBf16F32 o => decide (o.rm.toNat < 5) && o.imm == 0
  | .vcvtF32F16 o => o.rm == 0 && decide (o.imm.toNat < 2) && o.vsb == 0
  | .vcvtF16F32 o => decide (o.rm.toNat < 5) && o.imm == 0
  | .vcvtF32E4m3 o => o.rm == 0 && decide (o.imm.toNat < 4) && o.vsb == 0
  | .vcvtE4m3F32 o => decide (o.rm.toNat < 5) && decide (o.imm.toNat < 4) && o.vsb == 0
  | .vcvtF32E5m2 o => o.rm == 0 && decide (o.imm.toNat < 4) && o.vsb == 0
  | .vcvtE5m2F32 o => decide (o.rm.toNat < 5) && decide (o.imm.toNat < 4) && o.vsb == 0
  | .vquantQ4 o => o.rm == 0 && decide (o.imm.toNat < 4) && o.vsb == 0
  | .vdequantQ4 o => o.rm == 0 && o.imm == 0 && o.vsb == 0
  | .vquantQ8 o => o.rm == 0 && decide (o.imm.toNat < 3) && o.vsb == 0
  | .vperm o => o.rm == 0 && o.imm == 0
  | .vrotl o => o.rm == 0 && shiftImm o.imm o.vsb 64
  | .vbcast o => o.rm == 0 && decide (o.imm.toNat < 64) && o.vsb == 0
  | .vzip o => o.rm == 0 && decide (o.imm.toNat < 2)
  | .vunzip o => o.rm == 0 && decide (o.imm.toNat < 2)
  | .vredsumF32 o => decide (o.rm.toNat < 5) && o.imm == 0 && o.vsb == 0
  | .vredmaxF32 o => o.rm == 0 && o.imm == 0 && o.vsb == 0
  | .vredminF32 o => o.rm == 0 && o.imm == 0 && o.vsb == 0
  | .vredsumI32 o => o.rm == 0 && o.imm == 0 && o.vsb == 0
  | .vmand o => o.rm == 0 && o.imm == 0 && decide (o.vd.toNat < 16) && decide (o.vsa.toNat < 16) && decide (o.vsb.toNat < 16)
  | .vmor o => o.rm == 0 && o.imm == 0 && decide (o.vd.toNat < 16) && decide (o.vsa.toNat < 16) && decide (o.vsb.toNat < 16)
  | .vmxor o => o.rm == 0 && o.imm == 0 && decide (o.vd.toNat < 16) && decide (o.vsa.toNat < 16) && decide (o.vsb.toNat < 16)
  | .vmnot o => o.rm == 0 && o.imm == 0 && o.vsb == 0 && decide (o.vd.toNat < 16) && decide (o.vsa.toNat < 16)
  | .vrng o => o.rm == 0 && o.imm == 0 && o.vsb == 0 && o.vsa == 0
  | .vrngset o => o.rm == 0 && decide (o.imm.toNat < 2) && o.vsb == 0 && o.vd == 0
  | .vxfer o => o.rm == 0 && o.imm == 0 && o.vsb == 0
  | .vldF32 _ => true
  | .vldI32 _ => true
  | .vldBf16 _ => true
  | .vldF16 _ => true
  | .vstF32 _ => true
  | .vstI32 _ => true
  | .vstBf16 _ => true
  | .vstF16 _ => true
  | .vpmulP16 o => o.rm == 0 && o.imm == 0
  | .vpmulP8 o => o.rm == 0 && o.imm == 0
  | .vpcmpP16 o => o.rm == 0 && decide (o.imm.toNat < 32) && decide (o.vd.toNat < 16) && o.vd.toNat % 2 == 0
  | .vpscP16 o => o.rm == 0 && decide (o.imm.toNat < 4) && o.vsb == 0
  | .vpsumP16 o => o.rm == 0 && decide (o.imm.toNat < 4) && o.vsb == 0
  | .vpresP16 o => o.rm == 0 && o.imm == 0 && o.vsb == 0
  | .vplenP16 o => o.rm == 0 && o.imm == 0 && o.vsb == 0
  | .vpcvtP8 o => o.rm == 0 && decide (o.imm.toNat < 4) && (bif o.imm.getLsbD 0 then o.vsb == 0 else o.imm == 0)

/-- The operand limits of the syllables of the M slot. -/
def wfM : MSyl → Bool
  | .mpush o => o.acc == 0 && o.row == 0 && (bif decide (o.src.toNat < 2) then o.v == 0 && o.fmt == 0 else o.disp == 0 && decide (o.fmt.toNat < 7))
  | .mshift o => o.acc == 0 && o.src == 0 && o.v == 0 && o.disp == 0 && o.fmt == 0
  | .macc o => o.row == 0 && (bif decide (o.src.toNat < 2) then o.v == 0 && o.fmt == 0 else decide (o.fmt.toNat < 7))
  | .maccp o => o.row == 0 && (bif decide (o.src.toNat < 2) then o.v == 0 && o.fmt == 0 else decide (o.fmt.toNat < 7))
  | .mdrain o => o.src == 0 && o.v == 0 && decide (o.fmt.toNat < 5)
  | .manch o => o.row == 0 && o.src == 0 && o.v == 0 && o.fmt == 0 && decide (-1024 ≤ o.disp.toInt ∧ o.disp.toInt < 1024)
  | .mzero o => o.row == 0 && o.src == 0 && o.v == 0 && o.disp == 0 && o.fmt == 0
  | .mrow o => o.src == 0 && o.v == 0 && o.disp == 0 && o.fmt == 0
  | .mexact o => o.src == 0 && o.v == 0 && o.disp == 0 && o.fmt == 0 && decide (o.row.toNat < 2)
  | .mdrainv o => o.disp == 0 && decide (2 ≤ o.src.toNat) && decide (o.fmt.toNat < 5)

/-- The operand limits of the syllables of either copy slot. -/
def wfC : CSyl → Bool
  | .copy1d _ => true
  | .copy2d o => decide (o.len.toNat + 1 < 32)
  | .copy3d o => decide (o.len.toNat + 3 < 32)
  | .gather o => decide (o.len.toNat + 1 < 32)
  | .scatter o => decide (o.len.toNat + 1 < 32)
  | .mcast _ => true
  | .send _ => true
  | .recv o => o.len == 0
  | .bankWadd _ => true
  | .bankAdd _ => true
  | .bankMax _ => true
  | .bankMin _ => true
  | .barArrive o => o.s == 0 && o.len == 0
  | .barWait o => o.s == 0 && o.len == 0
  | .sfence o => o.s == 0 && o.len == 0
  | .srst o => o.s == 0 && o.len == 0
  | .copy1dCs o => csScope o && decide (o.s.toNat + 1 < 32)
  | .copy2dCs o => csScope o && decide (o.s.toNat + 2 < 32)
  | .copy3dCs o => csScope o && decide (o.s.toNat + 4 < 32)
  | .gatherCs o => csScope o && decide (o.s.toNat + 2 < 32)
  | .scatterCs o => csScope o && decide (o.s.toNat + 2 < 32)
  | .st32 o => csScope o && o.acq == 0
  | .st64 o => csScope o && o.acq == 0
  | .ld64 o => csScope o && o.rel == 0
  | .atomAdd o => csScope o && decide (o.s.toNat + 1 < 32)
  | .atomAnd o => csScope o && decide (o.s.toNat + 1 < 32)
  | .atomOr o => csScope o && decide (o.s.toNat + 1 < 32)
  | .atomXor o => csScope o && decide (o.s.toNat + 1 < 32)
  | .atomMax o => csScope o && decide (o.s.toNat + 1 < 32)
  | .atomMin o => csScope o && decide (o.s.toNat + 1 < 32)
  | .atomSwap o => csScope o && decide (o.s.toNat + 1 < 32)
  | .atomCas o => csScope o && decide (o.s.toNat + 1 < 32)
  | .msaCas4 o => csScope o && decide (o.s.toNat + 8 < 32)
  | .msaEnq o => csScope o && decide (o.s.toNat + 1 < 32)
  | .msaDeq o => csScope o && decide (o.s.toNat + 1 < 32)
  | .msaChase o => csScope o && decide (o.s.toNat + 1 < 32)
  | .scLd64 o => o.stream == 0 && o.scope == 0 && o.acq == 0 && o.rel == 0
  | .scSt64 o => o.stream == 0 && o.scope == 0 && o.acq == 0 && o.rel == 0
  | .scSwap o => o.stream == 0 && o.scope == 0 && o.acq == 0 && o.rel == 0 && decide (o.s.toNat + 1 < 32)
  | .scAdd o => o.stream == 0 && o.scope == 0 && o.acq == 0 && o.rel == 0 && decide (o.s.toNat + 1 < 32)

/-- The operand limits of every syllable that the encoding can break. -/
def wfSyl : Syl → Bool
  | .s y => wfS y | .l y => wfL y | .k y => wfK y | .v _ y => wfV y | .m y => wfM y | .c _ y => wfC y
  | .band slot w => bandWord slot w

/-- A row is well formed when its syllable is; a step of the part has no encoding. -/
def wf (i : Instr) : Bool :=
  match sylOf i with
  | some y => wfSyl y
  | none => true

end Sys2Proof
end

