-- ==== Sys2Proof/Decode.lean ====
section
/-! DEFINITION. The decoder of every slot, total, from the opcode maps (03 R57-R63) and the syllable layouts (R50-R56), and the encoder, written
from the same tables. A syllable that fails is named ILLEGAL_OPCODE by the machine (R49, R95). -/

namespace Sys2Proof

/-- Why a word is no syllable: its code is unassigned, or a field breaks its layout. -/
inductive DecodeError
  | unassigned | badField
  deriving DecidableEq, Repr

/-- Fields of SR. -/
def decSR (w : Nat) : SR := ⟨.ofNat 4 (w / 2 ^ 20), .ofNat 6 (w / 2 ^ 14), .ofNat 6 (w / 2 ^ 8), .ofNat 6 (w / 2 ^ 2)⟩
/-- SR in place. -/
def encSR (o : SR) : Nat := o.g.toNat * 2 ^ 20 + o.rd.toNat * 2 ^ 14 + o.ra.toNat * 2 ^ 8 + o.rb.toNat * 2 ^ 2

/-- Fields of SU. -/
def decSU (w : Nat) : SU := ⟨.ofNat 4 (w / 2 ^ 20), .ofNat 6 (w / 2 ^ 14), .ofNat 6 (w / 2 ^ 8)⟩
/-- SU in place. -/
def encSU (o : SU) : Nat := o.g.toNat * 2 ^ 20 + o.rd.toNat * 2 ^ 14 + o.ra.toNat * 2 ^ 8

/-- Fields of SI. -/
def decSI (w : Nat) : SI := ⟨.ofNat 4 (w / 2 ^ 20), .ofNat 6 (w / 2 ^ 14), .ofNat 6 (w / 2 ^ 8), .ofNat 8 (w / 2 ^ 0)⟩
/-- SI in place. -/
def encSI (o : SI) : Nat := o.g.toNat * 2 ^ 20 + o.rd.toNat * 2 ^ 14 + o.ra.toNat * 2 ^ 8 + o.imm.toNat * 2 ^ 0

/-- Fields of SJ. -/
def decSJ (w : Nat) : SJ := ⟨.ofNat 4 (w / 2 ^ 20), .ofNat 6 (w / 2 ^ 14), .ofNat 14 (w / 2 ^ 0)⟩
/-- SJ in place. -/
def encSJ (o : SJ) : Nat := o.g.toNat * 2 ^ 20 + o.rd.toNat * 2 ^ 14 + o.imm.toNat * 2 ^ 0

/-- Fields of SK. -/
def decSK (w : Nat) : SK := ⟨.ofNat 4 (w / 2 ^ 20), .ofNat 6 (w / 2 ^ 14), .ofNat 8 (w / 2 ^ 0)⟩
/-- SK in place. -/
def encSK (o : SK) : Nat := o.g.toNat * 2 ^ 20 + o.rd.toNat * 2 ^ 14 + o.imm.toNat * 2 ^ 0

/-- Fields of SM. -/
def decSM (w : Nat) : SM := ⟨.ofNat 4 (w / 2 ^ 20), .ofNat 6 (w / 2 ^ 14), .ofNat 3 (w / 2 ^ 11), .ofNat 11 (w / 2 ^ 0)⟩
/-- SM in place. -/
def encSM (o : SM) : Nat := o.g.toNat * 2 ^ 20 + o.r.toNat * 2 ^ 14 + o.b.toNat * 2 ^ 11 + o.off.toNat * 2 ^ 0

/-- Fields of Lop. -/
def decLop (w : Nat) : Lop := ⟨.ofNat 2 (w / 2 ^ 24), .ofNat 6 (w / 2 ^ 18), .ofNat 6 (w / 2 ^ 12), .ofNat 6 (w / 2 ^ 6), .ofNat 6 (w / 2 ^ 0)⟩
/-- Lop in place. -/
def encLop (o : Lop) : Nat := o.th.toNat * 2 ^ 24 + o.rd.toNat * 2 ^ 18 + o.ra.toNat * 2 ^ 12 + o.rb.toNat * 2 ^ 6 + o.tl.toNat * 2 ^ 0

/-- Fields of SF. -/
def decSF (w : Nat) : SF := ⟨.ofNat 4 (w / 2 ^ 20), .ofNat 3 (w / 2 ^ 17), .ofNat 2 (w / 2 ^ 15), .ofNat 2 (w / 2 ^ 13), .ofNat 13 (w / 2 ^ 0)⟩
/-- SF in place. -/
def encSF (o : SF) : Nat := o.g.toNat * 2 ^ 20 + o.slot.toNat * 2 ^ 17 + o.form.toNat * 2 ^ 15 + o.fld.toNat * 2 ^ 13 + o.imm.toNat * 2 ^ 0

/-- Fields of SFR. -/
def decSFR (w : Nat) : SFR := ⟨.ofNat 4 (w / 2 ^ 20), .ofNat 3 (w / 2 ^ 17), .ofNat 2 (w / 2 ^ 15), .ofNat 2 (w / 2 ^ 13), .ofNat 6 (w / 2 ^ 7)⟩
/-- SFR in place. -/
def encSFR (o : SFR) : Nat := o.g.toNat * 2 ^ 20 + o.slot.toNat * 2 ^ 17 + o.form.toNat * 2 ^ 15 + o.fld.toNat * 2 ^ 13 + o.s.toNat * 2 ^ 7

/-- Fields of SV. -/
def decSV (w : Nat) : SV := ⟨.ofNat 4 (w / 2 ^ 20), .ofNat 1 (w / 2 ^ 19), .ofNat 11 (w / 2 ^ 8)⟩
/-- SV in place. -/
def encSV (o : SV) : Nat := o.g.toNat * 2 ^ 20 + o.file.toNat * 2 ^ 19 + o.base.toNat * 2 ^ 8

/-- Fields of SX. -/
def decSX (w : Nat) : SX := ⟨.ofNat 4 (w / 2 ^ 20), .ofNat 6 (w / 2 ^ 14), .ofNat 3 (w / 2 ^ 11), .ofNat 11 (w / 2 ^ 0)⟩
/-- SX in place. -/
def encSX (o : SX) : Nat := o.g.toNat * 2 ^ 20 + o.s.toNat * 2 ^ 14 + o.file.toNat * 2 ^ 11 + o.reg.toNat * 2 ^ 0

/-- Fields of SW. -/
def decSW (w : Nat) : SW := ⟨.ofNat 4 (w / 2 ^ 20), .ofNat 1 (w / 2 ^ 19), .ofNat 6 (w / 2 ^ 13)⟩
/-- SW in place. -/
def encSW (o : SW) : Nat := o.g.toNat * 2 ^ 20 + o.ch.toNat * 2 ^ 19 + o.s.toNat * 2 ^ 13

/-- Fields of SY. -/
def decSY (w : Nat) : SY := ⟨.ofNat 4 (w / 2 ^ 20), .ofNat 6 (w / 2 ^ 14), .ofNat 14 (w / 2 ^ 0)⟩
/-- SY in place. -/
def encSY (o : SY) : Nat := o.g.toNat * 2 ^ 20 + o.s.toNat * 2 ^ 14 + o.n.toNat * 2 ^ 0

/-- Fields of SC. -/
def decSC (w : Nat) : SC := ⟨.ofNat 4 (w / 2 ^ 20), .ofNat 14 (w / 2 ^ 0)⟩
/-- SC in place. -/
def encSC (o : SC) : Nat := o.g.toNat * 2 ^ 20 + o.n.toNat * 2 ^ 0

/-- Fields of SS. -/
def decSS (w : Nat) : SS := ⟨.ofNat 4 (w / 2 ^ 20), .ofNat 6 (w / 2 ^ 14)⟩
/-- SS in place. -/
def encSS (o : SS) : Nat := o.g.toNat * 2 ^ 20 + o.s.toNat * 2 ^ 14

/-- Fields of SG. -/
def decSG (w : Nat) : SG := ⟨.ofNat 4 (w / 2 ^ 20)⟩
/-- SG in place. -/
def encSG (o : SG) : Nat := o.g.toNat * 2 ^ 20

/-- Fields of SN. -/
def decSN (w : Nat) : SN := ⟨.ofNat 4 (w / 2 ^ 20), .ofNat 2 (w / 2 ^ 0)⟩
/-- SN in place. -/
def encSN (o : SN) : Nat := o.g.toNat * 2 ^ 20 + o.n.toNat * 2 ^ 0

/-- Fields of LB. -/
def decLB (w : Nat) : LB := ⟨.ofNat 4 (w / 2 ^ 20), .ofNat 20 (w / 2 ^ 0)⟩
/-- LB in place. -/
def encLB (o : LB) : Nat := o.g.toNat * 2 ^ 20 + o.off.toNat * 2 ^ 0

/-- Fields of LP. -/
def decLP (w : Nat) : LP := ⟨.ofNat 4 (w / 2 ^ 20), .ofNat 2 (w / 2 ^ 18), .ofNat 6 (w / 2 ^ 12), .ofNat 4 (w / 2 ^ 0)⟩
/-- LP in place. -/
def encLP (o : LP) : Nat := o.g.toNat * 2 ^ 20 + o.l.toNat * 2 ^ 18 + o.s.toNat * 2 ^ 12 + o.st.toNat * 2 ^ 0

/-- Fields of LI. -/
def decLI (w : Nat) : LI := ⟨.ofNat 4 (w / 2 ^ 20), .ofNat 2 (w / 2 ^ 18), .ofNat 14 (w / 2 ^ 4), .ofNat 4 (w / 2 ^ 0)⟩
/-- LI in place. -/
def encLI (o : LI) : Nat := o.g.toNat * 2 ^ 20 + o.l.toNat * 2 ^ 18 + o.cnt.toNat * 2 ^ 4 + o.st.toNat * 2 ^ 0

/-- Fields of LE. -/
def decLE (w : Nat) : LE := ⟨.ofNat 4 (w / 2 ^ 20), .ofNat 2 (w / 2 ^ 18)⟩
/-- LE in place. -/
def encLE (o : LE) : Nat := o.g.toNat * 2 ^ 20 + o.l.toNat * 2 ^ 18

/-- Fields of LS. -/
def decLS (w : Nat) : LS := ⟨.ofNat 4 (w / 2 ^ 20), .ofNat 3 (w / 2 ^ 17), .ofNat 17 (w / 2 ^ 0)⟩
/-- LS in place. -/
def encLS (o : LS) : Nat := o.g.toNat * 2 ^ 20 + o.b.toNat * 2 ^ 17 + o.imm.toNat * 2 ^ 0

/-- Fields of LQ. -/
def decLQ (w : Nat) : LQ := ⟨.ofNat 4 (w / 2 ^ 20), .ofNat 8 (w / 2 ^ 0)⟩
/-- LQ in place. -/
def encLQ (o : LQ) : Nat := o.g.toNat * 2 ^ 20 + o.q.toNat * 2 ^ 0

/-- Fields of LD. -/
def decLD (w : Nat) : LD := ⟨.ofNat 4 (w / 2 ^ 20), .ofNat 12 (w / 2 ^ 0)⟩
/-- LD in place. -/
def encLD (o : LD) : Nat := o.g.toNat * 2 ^ 20 + o.off.toNat * 2 ^ 0

/-- Fields of KL. -/
def decKL (w : Nat) : KL := ⟨.ofNat 4 (w / 2 ^ 20), .ofNat 2 (w / 2 ^ 18), .ofNat 3 (w / 2 ^ 15), .ofNat 15 (w / 2 ^ 0)⟩
/-- KL in place. -/
def encKL (o : KL) : Nat := o.g.toNat * 2 ^ 20 + o.x.toNat * 2 ^ 18 + o.b.toNat * 2 ^ 15 + o.off.toNat * 2 ^ 0

/-- Fields of KF. -/
def decKF (w : Nat) : KF := ⟨.ofNat 4 (w / 2 ^ 20), .ofNat 2 (w / 2 ^ 18), .ofNat 8 (w / 2 ^ 0)⟩
/-- KF in place. -/
def encKF (o : KF) : Nat := o.g.toNat * 2 ^ 20 + o.x.toNat * 2 ^ 18 + o.v.toNat * 2 ^ 0

/-- Fields of KC. -/
def decKC (w : Nat) : KC := ⟨.ofNat 4 (w / 2 ^ 20), .ofNat 2 (w / 2 ^ 18), .ofNat 2 (w / 2 ^ 16)⟩
/-- KC in place. -/
def encKC (o : KC) : Nat := o.g.toNat * 2 ^ 20 + o.x.toNat * 2 ^ 18 + o.y.toNat * 2 ^ 16

/-- Fields of VR. -/
def decVR (w : Nat) : VR := ⟨.ofNat 4 (w / 2 ^ 52), .ofNat 11 (w / 2 ^ 41), .ofNat 11 (w / 2 ^ 30), .ofNat 11 (w / 2 ^ 19), .ofNat 9 (w / 2 ^ 10), .ofNat 3 (w / 2 ^ 7), .ofNat 4 (w / 2 ^ 3), .ofNat 2 (w / 2 ^ 1), .ofNat 1 (w / 2 ^ 0)⟩
/-- VR in place. -/
def encVR (o : VR) : Nat := o.g.toNat * 2 ^ 52 + o.vd.toNat * 2 ^ 41 + o.vsa.toNat * 2 ^ 30 + o.vsb.toNat * 2 ^ 19 + o.imm.toNat * 2 ^ 10 + o.rm.toNat * 2 ^ 7 + o.mask.toNat * 2 ^ 3 + o.form.toNat * 2 ^ 1 + o.sw.toNat * 2 ^ 0

/-- Fields of V3. -/
def decV3 (w : Nat) : V3 := ⟨.ofNat 4 (w / 2 ^ 52), .ofNat 11 (w / 2 ^ 41), .ofNat 11 (w / 2 ^ 30), .ofNat 11 (w / 2 ^ 19), .ofNat 11 (w / 2 ^ 8), .ofNat 3 (w / 2 ^ 5), .ofNat 2 (w / 2 ^ 3), .ofNat 2 (w / 2 ^ 1), .ofNat 1 (w / 2 ^ 0)⟩
/-- V3 in place. -/
def encV3 (o : V3) : Nat := o.g.toNat * 2 ^ 52 + o.vd.toNat * 2 ^ 41 + o.vsa.toNat * 2 ^ 30 + o.vsb.toNat * 2 ^ 19 + o.vsc.toNat * 2 ^ 8 + o.rm.toNat * 2 ^ 5 + o.mask.toNat * 2 ^ 3 + o.form.toNat * 2 ^ 1 + o.sw.toNat * 2 ^ 0

/-- Fields of VM. -/
def decVM (w : Nat) : VM := ⟨.ofNat 4 (w / 2 ^ 52), .ofNat 11 (w / 2 ^ 41), .ofNat 3 (w / 2 ^ 38), .ofNat 22 (w / 2 ^ 16), .ofNat 4 (w / 2 ^ 3), .ofNat 2 (w / 2 ^ 1), .ofNat 1 (w / 2 ^ 0)⟩
/-- VM in place. -/
def encVM (o : VM) : Nat := o.g.toNat * 2 ^ 52 + o.v.toNat * 2 ^ 41 + o.b.toNat * 2 ^ 38 + o.off.toNat * 2 ^ 16 + o.mask.toNat * 2 ^ 3 + o.form.toNat * 2 ^ 1 + o.sw.toNat * 2 ^ 0

/-- Fields of MO. -/
def decMO (w : Nat) : MO := ⟨.ofNat 4 (w / 2 ^ 52), .ofNat 1 (w / 2 ^ 51), .ofNat 7 (w / 2 ^ 44), .ofNat 2 (w / 2 ^ 42), .ofNat 11 (w / 2 ^ 31), .ofNat 23 (w / 2 ^ 8), .ofNat 3 (w / 2 ^ 5), .ofNat 2 (w / 2 ^ 1), .ofNat 1 (w / 2 ^ 0)⟩
/-- MO in place. -/
def encMO (o : MO) : Nat := o.g.toNat * 2 ^ 52 + o.acc.toNat * 2 ^ 51 + o.row.toNat * 2 ^ 44 + o.src.toNat * 2 ^ 42 + o.v.toNat * 2 ^ 31 + o.disp.toNat * 2 ^ 8 + o.fmt.toNat * 2 ^ 5 + o.form.toNat * 2 ^ 1 + o.sw.toNat * 2 ^ 0

/-- Fields of CA. -/
def decCA (w : Nat) : CA := ⟨.ofNat 4 (w / 2 ^ 20), .ofNat 5 (w / 2 ^ 15), .ofNat 5 (w / 2 ^ 10), .ofNat 5 (w / 2 ^ 5), .ofNat 2 (w / 2 ^ 3), .ofNat 1 (w / 2 ^ 2)⟩
/-- CA in place. -/
def encCA (o : CA) : Nat := o.g.toNat * 2 ^ 20 + o.d.toNat * 2 ^ 15 + o.s.toNat * 2 ^ 10 + o.len.toNat * 2 ^ 5 + o.form.toNat * 2 ^ 3 + o.sw.toNat * 2 ^ 2

/-- Fields of CS. -/
def decCS (w : Nat) : CS := ⟨.ofNat 4 (w / 2 ^ 20), .ofNat 5 (w / 2 ^ 15), .ofNat 5 (w / 2 ^ 10), .ofNat 4 (w / 2 ^ 6), .ofNat 3 (w / 2 ^ 3), .ofNat 1 (w / 2 ^ 2), .ofNat 1 (w / 2 ^ 1)⟩
/-- CS in place. -/
def encCS (o : CS) : Nat := o.g.toNat * 2 ^ 20 + o.d.toNat * 2 ^ 15 + o.s.toNat * 2 ^ 10 + o.stream.toNat * 2 ^ 6 + o.scope.toNat * 2 ^ 3 + o.acq.toNat * 2 ^ 2 + o.rel.toNat * 2 ^ 1

/-- An opcode above a field word. -/
def opAt (op sh f : Nat) : Nat := op * 2 ^ sh + f

/-- The word of a syllable of the S slot: the opcode of R58-R63 above its fields. -/
def encodeS : SSyl → Nat
  | .add o => opAt 0x00 24 (encSR o)
  | .sub o => opAt 0x01 24 (encSR o)
  | .mul o => opAt 0x02 24 (encSR o)
  | .mulh o => opAt 0x03 24 (encSR o)
  | .mulhu o => opAt 0x04 24 (encSR o)
  | .and o => opAt 0x05 24 (encSR o)
  | .or o => opAt 0x06 24 (encSR o)
  | .xor o => opAt 0x07 24 (encSR o)
  | .andn o => opAt 0x08 24 (encSR o)
  | .shl o => opAt 0x09 24 (encSR o)
  | .shr o => opAt 0x0A 24 (encSR o)
  | .sra o => opAt 0x0B 24 (encSR o)
  | .rotl o => opAt 0x0C 24 (encSR o)
  | .min o => opAt 0x0D 24 (encSR o)
  | .max o => opAt 0x0E 24 (encSR o)
  | .minu o => opAt 0x0F 24 (encSR o)
  | .maxu o => opAt 0x10 24 (encSR o)
  | .popc o => opAt 0x11 24 (encSU o)
  | .clz o => opAt 0x12 24 (encSU o)
  | .ctz o => opAt 0x13 24 (encSU o)
  | .bext o => opAt 0x14 24 (encSR o)
  | .bins o => opAt 0x15 24 (encSR o)
  | .cmpeq o => opAt 0x16 24 (encSR o)
  | .cmpne o => opAt 0x17 24 (encSR o)
  | .cmplt o => opAt 0x18 24 (encSR o)
  | .cmpltu o => opAt 0x19 24 (encSR o)
  | .cmple o => opAt 0x1A 24 (encSR o)
  | .cmpleu o => opAt 0x1B 24 (encSR o)
  | .gand o => opAt 0x1C 24 (encSR o)
  | .gor o => opAt 0x1D 24 (encSR o)
  | .gxor o => opAt 0x1E 24 (encSR o)
  | .gnot o => opAt 0x1F 24 (encSU o)
  | .addSi o => opAt 0x20 24 (encSI o)
  | .andSi o => opAt 0x21 24 (encSI o)
  | .orSi o => opAt 0x22 24 (encSI o)
  | .xorSi o => opAt 0x23 24 (encSI o)
  | .shlSi o => opAt 0x24 24 (encSI o)
  | .shrSi o => opAt 0x25 24 (encSI o)
  | .sraSi o => opAt 0x26 24 (encSI o)
  | .cmpeqSi o => opAt 0x27 24 (encSI o)
  | .cmpltSi o => opAt 0x28 24 (encSI o)
  | .cmpltuSi o => opAt 0x29 24 (encSI o)
  | .movi o => opAt 0x2A 24 (encSJ o)
  | .movkH1 o => opAt 0x2B 24 (encSJ o)
  | .movkH2 o => opAt 0x2C 24 (encSJ o)
  | .movkH3 o => opAt 0x2D 24 (encSJ o)
  | .movkH4 o => opAt 0x2E 24 (encSK o)
  | .addSj o => opAt 0x2F 24 (encSJ o)
  | .andSj o => opAt 0x30 24 (encSJ o)
  | .orSj o => opAt 0x31 24 (encSJ o)
  | .xorSj o => opAt 0x32 24 (encSJ o)
  | .sld8 o => opAt 0x33 24 (encSM o)
  | .sld16 o => opAt 0x34 24 (encSM o)
  | .sld32 o => opAt 0x35 24 (encSM o)
  | .sld64 o => opAt 0x36 24 (encSM o)
  | .sldz8 o => opAt 0x37 24 (encSM o)
  | .sldz16 o => opAt 0x38 24 (encSM o)
  | .sldz32 o => opAt 0x39 24 (encSM o)
  | .sst8 o => opAt 0x3A 24 (encSM o)
  | .sst16 o => opAt 0x3B 24 (encSM o)
  | .sst32 o => opAt 0x3C 24 (encSM o)
  | .sst64 o => opAt 0x3D 24 (encSM o)
  | .lop3 o => opAt 0x40 24 (encLop o)
  | .fset o => opAt 0x44 24 (encSF o)
  | .fsetReg o => opAt 0x45 24 (encSFR o)
  | .vrot o => opAt 0x46 24 (encSV o)
  | .cpyFromS o => opAt 0x47 24 (encSX o)
  | .cpyToS o => opAt 0x48 24 (encSX o)
  | .wdone o => opAt 0x49 24 (encSW o)
  | .movFromSys o => opAt 0x4A 24 (encSY o)
  | .movToSys o => opAt 0x4B 24 (encSY o)
  | .trap o => opAt 0x50 24 (encSC o)
  | .esc o => opAt 0x51 24 (encSS o)
  | .mret o => opAt 0x52 24 (encSG o)
  | .yield o => opAt 0x53 24 (encSG o)
  | .pmq o => opAt 0x54 24 (encSY o)
  | .pmpull o => opAt 0x55 24 (encSC o)
  | .ctxsave o => opAt 0x56 24 (encSS o)
  | .ctxrest o => opAt 0x57 24 (encSS o)
  | .ctxsw o => opAt 0x58 24 (encSG o)
  | .dstop o => opAt 0x59 24 (encSC o)
  | .wpset o => opAt 0x5A 24 (encSN o)
  | .wpclr o => opAt 0x5B 24 (encSN o)
  | .rdtick o => opAt 0x5C 24 (encSS o)
  | .rdcyc o => opAt 0x5D 24 (encSS o)

/-- The word of a syllable of the L slot: the opcode of R58-R63 above its fields. -/
def encodeL : LSyl → Nat
  | .br o => opAt 0x00 24 (encLB o)
  | .call o => opAt 0x01 24 (encLB o)
  | .ret o => opAt 0x02 24 (encSG o)
  | .loop o => opAt 0x03 24 (encLP o)
  | .loopImm o => opAt 0x04 24 (encLI o)
  | .lend o => opAt 0x05 24 (encLE o)
  | .lexit o => opAt 0x06 24 (encLE o)
  | .bstep o => opAt 0x07 24 (encLS o)
  | .bset o => opAt 0x08 24 (encLS o)
  | .dict o => opAt 0x09 24 (encLD o)
  | .ifence o => opAt 0x0A 24 (encSG o)
  | .kend o => opAt 0x0B 24 (encSG o)
  | .qset o => opAt 0x0C 24 (encLQ o)

/-- The word of a syllable of the K slot: the opcode of R58-R63 above its fields. -/
def encodeK : KSyl → Nat
  | .kld o => opAt 0x00 24 (encKL o)
  | .kldp o => opAt 0x01 24 (encKL o)
  | .kfill o => opAt 0x02 24 (encKF o)
  | .kcpy o => opAt 0x03 24 (encKC o)

/-- The word of a syllable of either vector slot: the opcode of R58-R63 above its fields. -/
def encodeV : VSyl → Nat
  | .vaddF32 o => opAt 0x00 56 (encVR o)
  | .vsubF32 o => opAt 0x01 56 (encVR o)
  | .vmulF32 o => opAt 0x02 56 (encVR o)
  | .vfmaF32 o => opAt 0x03 56 (encV3 o)
  | .vfmsF32 o => opAt 0x04 56 (encV3 o)
  | .vfnmaF32 o => opAt 0x05 56 (encV3 o)
  | .vminF32 o => opAt 0x06 56 (encVR o)
  | .vmaxF32 o => opAt 0x07 56 (encVR o)
  | .vabsF32 o => opAt 0x08 56 (encVR o)
  | .vnegF32 o => opAt 0x09 56 (encVR o)
  | .vcmpeqF32 o => opAt 0x0A 56 (encVR o)
  | .vcmpltF32 o => opAt 0x0B 56 (encVR o)
  | .vcmpleF32 o => opAt 0x0C 56 (encVR o)
  | .vcmpunF32 o => opAt 0x0D 56 (encVR o)
  | .vsel o => opAt 0x0E 56 (encV3 o)
  | .vclassF32 o => opAt 0x0F 56 (encVR o)
  | .vrecipF32 o => opAt 0x10 56 (encVR o)
  | .vrsqrtF32 o => opAt 0x11 56 (encVR o)
  | .vsqrtF32 o => opAt 0x12 56 (encVR o)
  | .vexp2F32 o => opAt 0x13 56 (encVR o)
  | .vlog2F32 o => opAt 0x14 56 (encVR o)
  | .vsinpiF32 o => opAt 0x15 56 (encVR o)
  | .vcospiF32 o => opAt 0x16 56 (encVR o)
  | .vrecipBf16 o => opAt 0x18 56 (encVR o)
  | .vrsqrtBf16 o => opAt 0x19 56 (encVR o)
  | .vsqrtBf16 o => opAt 0x1A 56 (encVR o)
  | .vexp2Bf16 o => opAt 0x1B 56 (encVR o)
  | .vlog2Bf16 o => opAt 0x1C 56 (encVR o)
  | .vsinpiBf16 o => opAt 0x1D 56 (encVR o)
  | .vcospiBf16 o => opAt 0x1E 56 (encVR o)
  | .vaddBf16 o => opAt 0x20 56 (encVR o)
  | .vsubBf16 o => opAt 0x21 56 (encVR o)
  | .vmulBf16 o => opAt 0x22 56 (encVR o)
  | .vfmaBf16 o => opAt 0x23 56 (encV3 o)
  | .vminBf16 o => opAt 0x24 56 (encVR o)
  | .vmaxBf16 o => opAt 0x25 56 (encVR o)
  | .vcmpeqBf16 o => opAt 0x26 56 (encVR o)
  | .vcmpltBf16 o => opAt 0x27 56 (encVR o)
  | .vaddF16 o => opAt 0x28 56 (encVR o)
  | .vsubF16 o => opAt 0x29 56 (encVR o)
  | .vmulF16 o => opAt 0x2A 56 (encVR o)
  | .vfmaF16 o => opAt 0x2B 56 (encV3 o)
  | .vaddI32 o => opAt 0x30 56 (encVR o)
  | .vsubI32 o => opAt 0x31 56 (encVR o)
  | .vmulI32 o => opAt 0x32 56 (encVR o)
  | .vmulhI32 o => opAt 0x33 56 (encVR o)
  | .vaddsI32 o => opAt 0x34 56 (encVR o)
  | .vsubsI32 o => opAt 0x35 56 (encVR o)
  | .vminI32 o => opAt 0x36 56 (encVR o)
  | .vmaxI32 o => opAt 0x37 56 (encVR o)
  | .vminN32 o => opAt 0x38 56 (encVR o)
  | .vmaxN32 o => opAt 0x39 56 (encVR o)
  | .vand o => opAt 0x3A 56 (encVR o)
  | .vor o => opAt 0x3B 56 (encVR o)
  | .vxor o => opAt 0x3C 56 (encVR o)
  | .vshl o => opAt 0x3D 56 (encVR o)
  | .vshr o => opAt 0x3E 56 (encVR o)
  | .vsra o => opAt 0x3F 56 (encVR o)
  | .vcmpeqI32 o => opAt 0x40 56 (encVR o)
  | .vcmpltI32 o => opAt 0x41 56 (encVR o)
  | .vcmpltN32 o => opAt 0x42 56 (encVR o)
  | .vcvtF32I32 o => opAt 0x43 56 (encVR o)
  | .vcvtI32F32 o => opAt 0x44 56 (encVR o)
  | .vcvtF32Bf16 o => opAt 0x45 56 (encVR o)
  | .vcvtBf16F32 o => opAt 0x46 56 (encVR o)
  | .vcvtF32F16 o => opAt 0x47 56 (encVR o)
  | .vcvtF16F32 o => opAt 0x48 56 (encVR o)
  | .vcvtF32E4m3 o => opAt 0x49 56 (encVR o)
  | .vcvtE4m3F32 o => opAt 0x4A 56 (encVR o)
  | .vcvtF32E5m2 o => opAt 0x4B 56 (encVR o)
  | .vcvtE5m2F32 o => opAt 0x4C 56 (encVR o)
  | .vquantQ4 o => opAt 0x4D 56 (encVR o)
  | .vdequantQ4 o => opAt 0x4E 56 (encVR o)
  | .vquantQ8 o => opAt 0x4F 56 (encVR o)
  | .vperm o => opAt 0x50 56 (encVR o)
  | .vrotl o => opAt 0x51 56 (encVR o)
  | .vbcast o => opAt 0x52 56 (encVR o)
  | .vzip o => opAt 0x53 56 (encVR o)
  | .vunzip o => opAt 0x54 56 (encVR o)
  | .vredsumF32 o => opAt 0x55 56 (encVR o)
  | .vredmaxF32 o => opAt 0x56 56 (encVR o)
  | .vredminF32 o => opAt 0x57 56 (encVR o)
  | .vredsumI32 o => opAt 0x58 56 (encVR o)
  | .vmand o => opAt 0x59 56 (encVR o)
  | .vmor o => opAt 0x5A 56 (encVR o)
  | .vmxor o => opAt 0x5B 56 (encVR o)
  | .vmnot o => opAt 0x5C 56 (encVR o)
  | .vrng o => opAt 0x5D 56 (encVR o)
  | .vrngset o => opAt 0x5E 56 (encVR o)
  | .vxfer o => opAt 0x5F 56 (encVR o)
  | .vldF32 o => opAt 0x60 56 (encVM o)
  | .vldI32 o => opAt 0x61 56 (encVM o)
  | .vldBf16 o => opAt 0x62 56 (encVM o)
  | .vldF16 o => opAt 0x63 56 (encVM o)
  | .vstF32 o => opAt 0x64 56 (encVM o)
  | .vstI32 o => opAt 0x65 56 (encVM o)
  | .vstBf16 o => opAt 0x66 56 (encVM o)
  | .vstF16 o => opAt 0x67 56 (encVM o)
  | .vpmulP16 o => opAt 0x68 56 (encVR o)
  | .vpmulP8 o => opAt 0x69 56 (encVR o)
  | .vpcmpP16 o => opAt 0x6A 56 (encVR o)
  | .vpscP16 o => opAt 0x6B 56 (encVR o)
  | .vpsumP16 o => opAt 0x6C 56 (encVR o)
  | .vpresP16 o => opAt 0x6D 56 (encVR o)
  | .vplenP16 o => opAt 0x6E 56 (encVR o)
  | .vpcvtP8 o => opAt 0x6F 56 (encVR o)

/-- The word of a syllable of the M slot: the opcode of R58-R63 above its fields. -/
def encodeM : MSyl → Nat
  | .mpush o => opAt 0x00 56 (encMO o)
  | .mshift o => opAt 0x01 56 (encMO o)
  | .macc o => opAt 0x02 56 (encMO o)
  | .maccp o => opAt 0x03 56 (encMO o)
  | .mdrain o => opAt 0x04 56 (encMO o)
  | .manch o => opAt 0x05 56 (encMO o)
  | .mzero o => opAt 0x06 56 (encMO o)
  | .mrow o => opAt 0x07 56 (encMO o)
  | .mexact o => opAt 0x08 56 (encMO o)
  | .mdrainv o => opAt 0x09 56 (encMO o)

/-- The word of a syllable of either copy slot: the opcode of R58-R63 above its fields. -/
def encodeC : CSyl → Nat
  | .copy1d o => opAt 0x00 24 (encCA o)
  | .copy2d o => opAt 0x01 24 (encCA o)
  | .copy3d o => opAt 0x02 24 (encCA o)
  | .gather o => opAt 0x03 24 (encCA o)
  | .scatter o => opAt 0x04 24 (encCA o)
  | .mcast o => opAt 0x05 24 (encCA o)
  | .send o => opAt 0x06 24 (encCA o)
  | .recv o => opAt 0x07 24 (encCA o)
  | .bankWadd o => opAt 0x08 24 (encCA o)
  | .bankAdd o => opAt 0x09 24 (encCA o)
  | .bankMax o => opAt 0x0A 24 (encCA o)
  | .bankMin o => opAt 0x0B 24 (encCA o)
  | .barArrive o => opAt 0x0C 24 (encCA o)
  | .barWait o => opAt 0x0D 24 (encCA o)
  | .sfence o => opAt 0x0E 24 (encCA o)
  | .srst o => opAt 0x0F 24 (encCA o)
  | .copy1dCs o => opAt 0x10 24 (encCS o)
  | .copy2dCs o => opAt 0x11 24 (encCS o)
  | .copy3dCs o => opAt 0x12 24 (encCS o)
  | .gatherCs o => opAt 0x13 24 (encCS o)
  | .scatterCs o => opAt 0x14 24 (encCS o)
  | .st32 o => opAt 0x15 24 (encCS o)
  | .st64 o => opAt 0x16 24 (encCS o)
  | .ld64 o => opAt 0x17 24 (encCS o)
  | .atomAdd o => opAt 0x18 24 (encCS o)
  | .atomAnd o => opAt 0x19 24 (encCS o)
  | .atomOr o => opAt 0x1A 24 (encCS o)
  | .atomXor o => opAt 0x1B 24 (encCS o)
  | .atomMax o => opAt 0x1C 24 (encCS o)
  | .atomMin o => opAt 0x1D 24 (encCS o)
  | .atomSwap o => opAt 0x1E 24 (encCS o)
  | .atomCas o => opAt 0x1F 24 (encCS o)
  | .msaCas4 o => opAt 0x20 24 (encCS o)
  | .msaEnq o => opAt 0x21 24 (encCS o)
  | .msaDeq o => opAt 0x22 24 (encCS o)
  | .msaChase o => opAt 0x23 24 (encCS o)
  | .scLd64 o => opAt 0x24 24 (encCS o)
  | .scSt64 o => opAt 0x25 24 (encCS o)
  | .scSwap o => opAt 0x26 24 (encCS o)
  | .scAdd o => opAt 0x27 24 (encCS o)

/-- The word of a syllable. -/
def encodeSyl : Syl → Nat
  | .s y => encodeS y | .l y => encodeL y | .k y => encodeK y | .v _ y => encodeV y | .m y => encodeM y | .c _ y => encodeC y
  | .band _ w => w.toNat

/-- The word of a row; a step of the part has none (0). -/
def encode (i : Instr) : Nat :=
  match sylOf i with
  | some y => encodeSyl y
  | none => 0

/-- The opcode map of the S slot. -/
def rawS (w : Nat) : Option SSyl :=
  match w / 2 ^ 24 with
  | 0x0 => some (.add (decSR w))
  | 0x1 => some (.sub (decSR w))
  | 0x2 => some (.mul (decSR w))
  | 0x3 => some (.mulh (decSR w))
  | 0x4 => some (.mulhu (decSR w))
  | 0x5 => some (.and (decSR w))
  | 0x6 => some (.or (decSR w))
  | 0x7 => some (.xor (decSR w))
  | 0x8 => some (.andn (decSR w))
  | 0x9 => some (.shl (decSR w))
  | 0xA => some (.shr (decSR w))
  | 0xB => some (.sra (decSR w))
  | 0xC => some (.rotl (decSR w))
  | 0xD => some (.min (decSR w))
  | 0xE => some (.max (decSR w))
  | 0xF => some (.minu (decSR w))
  | 0x10 => some (.maxu (decSR w))
  | 0x11 => some (.popc (decSU w))
  | 0x12 => some (.clz (decSU w))
  | 0x13 => some (.ctz (decSU w))
  | 0x14 => some (.bext (decSR w))
  | 0x15 => some (.bins (decSR w))
  | 0x16 => some (.cmpeq (decSR w))
  | 0x17 => some (.cmpne (decSR w))
  | 0x18 => some (.cmplt (decSR w))
  | 0x19 => some (.cmpltu (decSR w))
  | 0x1A => some (.cmple (decSR w))
  | 0x1B => some (.cmpleu (decSR w))
  | 0x1C => some (.gand (decSR w))
  | 0x1D => some (.gor (decSR w))
  | 0x1E => some (.gxor (decSR w))
  | 0x1F => some (.gnot (decSU w))
  | 0x20 => some (.addSi (decSI w))
  | 0x21 => some (.andSi (decSI w))
  | 0x22 => some (.orSi (decSI w))
  | 0x23 => some (.xorSi (decSI w))
  | 0x24 => some (.shlSi (decSI w))
  | 0x25 => some (.shrSi (decSI w))
  | 0x26 => some (.sraSi (decSI w))
  | 0x27 => some (.cmpeqSi (decSI w))
  | 0x28 => some (.cmpltSi (decSI w))
  | 0x29 => some (.cmpltuSi (decSI w))
  | 0x2A => some (.movi (decSJ w))
  | 0x2B => some (.movkH1 (decSJ w))
  | 0x2C => some (.movkH2 (decSJ w))
  | 0x2D => some (.movkH3 (decSJ w))
  | 0x2E => some (.movkH4 (decSK w))
  | 0x2F => some (.addSj (decSJ w))
  | 0x30 => some (.andSj (decSJ w))
  | 0x31 => some (.orSj (decSJ w))
  | 0x32 => some (.xorSj (decSJ w))
  | 0x33 => some (.sld8 (decSM w))
  | 0x34 => some (.sld16 (decSM w))
  | 0x35 => some (.sld32 (decSM w))
  | 0x36 => some (.sld64 (decSM w))
  | 0x37 => some (.sldz8 (decSM w))
  | 0x38 => some (.sldz16 (decSM w))
  | 0x39 => some (.sldz32 (decSM w))
  | 0x3A => some (.sst8 (decSM w))
  | 0x3B => some (.sst16 (decSM w))
  | 0x3C => some (.sst32 (decSM w))
  | 0x3D => some (.sst64 (decSM w))
  | 0x40 => some (.lop3 (decLop w))
  | 0x41 => some (.lop3 (decLop w))
  | 0x42 => some (.lop3 (decLop w))
  | 0x43 => some (.lop3 (decLop w))
  | 0x44 => some (.fset (decSF w))
  | 0x45 => some (.fsetReg (decSFR w))
  | 0x46 => some (.vrot (decSV w))
  | 0x47 => some (.cpyFromS (decSX w))
  | 0x48 => some (.cpyToS (decSX w))
  | 0x49 => some (.wdone (decSW w))
  | 0x4A => some (.movFromSys (decSY w))
  | 0x4B => some (.movToSys (decSY w))
  | 0x50 => some (.trap (decSC w))
  | 0x51 => some (.esc (decSS w))
  | 0x52 => some (.mret (decSG w))
  | 0x53 => some (.yield (decSG w))
  | 0x54 => some (.pmq (decSY w))
  | 0x55 => some (.pmpull (decSC w))
  | 0x56 => some (.ctxsave (decSS w))
  | 0x57 => some (.ctxrest (decSS w))
  | 0x58 => some (.ctxsw (decSG w))
  | 0x59 => some (.dstop (decSC w))
  | 0x5A => some (.wpset (decSN w))
  | 0x5B => some (.wpclr (decSN w))
  | 0x5C => some (.rdtick (decSS w))
  | 0x5D => some (.rdcyc (decSS w))
  | _ => none

/-- The opcode map of the L slot. -/
def rawL (w : Nat) : Option LSyl :=
  match w / 2 ^ 24 with
  | 0x0 => some (.br (decLB w))
  | 0x1 => some (.call (decLB w))
  | 0x2 => some (.ret (decSG w))
  | 0x3 => some (.loop (decLP w))
  | 0x4 => some (.loopImm (decLI w))
  | 0x5 => some (.lend (decLE w))
  | 0x6 => some (.lexit (decLE w))
  | 0x7 => some (.bstep (decLS w))
  | 0x8 => some (.bset (decLS w))
  | 0x9 => some (.dict (decLD w))
  | 0xA => some (.ifence (decSG w))
  | 0xB => some (.kend (decSG w))
  | 0xC => some (.qset (decLQ w))
  | _ => none

/-- The opcode map of the K slot. -/
def rawK (w : Nat) : Option KSyl :=
  match w / 2 ^ 24 with
  | 0x0 => some (.kld (decKL w))
  | 0x1 => some (.kldp (decKL w))
  | 0x2 => some (.kfill (decKF w))
  | 0x3 => some (.kcpy (decKC w))
  | _ => none

/-- The opcode map of either vector slot. -/
def rawV (w : Nat) : Option VSyl :=
  match w / 2 ^ 56 with
  | 0x0 => some (.vaddF32 (decVR w))
  | 0x1 => some (.vsubF32 (decVR w))
  | 0x2 => some (.vmulF32 (decVR w))
  | 0x3 => some (.vfmaF32 (decV3 w))
  | 0x4 => some (.vfmsF32 (decV3 w))
  | 0x5 => some (.vfnmaF32 (decV3 w))
  | 0x6 => some (.vminF32 (decVR w))
  | 0x7 => some (.vmaxF32 (decVR w))
  | 0x8 => some (.vabsF32 (decVR w))
  | 0x9 => some (.vnegF32 (decVR w))
  | 0xA => some (.vcmpeqF32 (decVR w))
  | 0xB => some (.vcmpltF32 (decVR w))
  | 0xC => some (.vcmpleF32 (decVR w))
  | 0xD => some (.vcmpunF32 (decVR w))
  | 0xE => some (.vsel (decV3 w))
  | 0xF => some (.vclassF32 (decVR w))
  | 0x10 => some (.vrecipF32 (decVR w))
  | 0x11 => some (.vrsqrtF32 (decVR w))
  | 0x12 => some (.vsqrtF32 (decVR w))
  | 0x13 => some (.vexp2F32 (decVR w))
  | 0x14 => some (.vlog2F32 (decVR w))
  | 0x15 => some (.vsinpiF32 (decVR w))
  | 0x16 => some (.vcospiF32 (decVR w))
  | 0x18 => some (.vrecipBf16 (decVR w))
  | 0x19 => some (.vrsqrtBf16 (decVR w))
  | 0x1A => some (.vsqrtBf16 (decVR w))
  | 0x1B => some (.vexp2Bf16 (decVR w))
  | 0x1C => some (.vlog2Bf16 (decVR w))
  | 0x1D => some (.vsinpiBf16 (decVR w))
  | 0x1E => some (.vcospiBf16 (decVR w))
  | 0x20 => some (.vaddBf16 (decVR w))
  | 0x21 => some (.vsubBf16 (decVR w))
  | 0x22 => some (.vmulBf16 (decVR w))
  | 0x23 => some (.vfmaBf16 (decV3 w))
  | 0x24 => some (.vminBf16 (decVR w))
  | 0x25 => some (.vmaxBf16 (decVR w))
  | 0x26 => some (.vcmpeqBf16 (decVR w))
  | 0x27 => some (.vcmpltBf16 (decVR w))
  | 0x28 => some (.vaddF16 (decVR w))
  | 0x29 => some (.vsubF16 (decVR w))
  | 0x2A => some (.vmulF16 (decVR w))
  | 0x2B => some (.vfmaF16 (decV3 w))
  | 0x30 => some (.vaddI32 (decVR w))
  | 0x31 => some (.vsubI32 (decVR w))
  | 0x32 => some (.vmulI32 (decVR w))
  | 0x33 => some (.vmulhI32 (decVR w))
  | 0x34 => some (.vaddsI32 (decVR w))
  | 0x35 => some (.vsubsI32 (decVR w))
  | 0x36 => some (.vminI32 (decVR w))
  | 0x37 => some (.vmaxI32 (decVR w))
  | 0x38 => some (.vminN32 (decVR w))
  | 0x39 => some (.vmaxN32 (decVR w))
  | 0x3A => some (.vand (decVR w))
  | 0x3B => some (.vor (decVR w))
  | 0x3C => some (.vxor (decVR w))
  | 0x3D => some (.vshl (decVR w))
  | 0x3E => some (.vshr (decVR w))
  | 0x3F => some (.vsra (decVR w))
  | 0x40 => some (.vcmpeqI32 (decVR w))
  | 0x41 => some (.vcmpltI32 (decVR w))
  | 0x42 => some (.vcmpltN32 (decVR w))
  | 0x43 => some (.vcvtF32I32 (decVR w))
  | 0x44 => some (.vcvtI32F32 (decVR w))
  | 0x45 => some (.vcvtF32Bf16 (decVR w))
  | 0x46 => some (.vcvtBf16F32 (decVR w))
  | 0x47 => some (.vcvtF32F16 (decVR w))
  | 0x48 => some (.vcvtF16F32 (decVR w))
  | 0x49 => some (.vcvtF32E4m3 (decVR w))
  | 0x4A => some (.vcvtE4m3F32 (decVR w))
  | 0x4B => some (.vcvtF32E5m2 (decVR w))
  | 0x4C => some (.vcvtE5m2F32 (decVR w))
  | 0x4D => some (.vquantQ4 (decVR w))
  | 0x4E => some (.vdequantQ4 (decVR w))
  | 0x4F => some (.vquantQ8 (decVR w))
  | 0x50 => some (.vperm (decVR w))
  | 0x51 => some (.vrotl (decVR w))
  | 0x52 => some (.vbcast (decVR w))
  | 0x53 => some (.vzip (decVR w))
  | 0x54 => some (.vunzip (decVR w))
  | 0x55 => some (.vredsumF32 (decVR w))
  | 0x56 => some (.vredmaxF32 (decVR w))
  | 0x57 => some (.vredminF32 (decVR w))
  | 0x58 => some (.vredsumI32 (decVR w))
  | 0x59 => some (.vmand (decVR w))
  | 0x5A => some (.vmor (decVR w))
  | 0x5B => some (.vmxor (decVR w))
  | 0x5C => some (.vmnot (decVR w))
  | 0x5D => some (.vrng (decVR w))
  | 0x5E => some (.vrngset (decVR w))
  | 0x5F => some (.vxfer (decVR w))
  | 0x60 => some (.vldF32 (decVM w))
  | 0x61 => some (.vldI32 (decVM w))
  | 0x62 => some (.vldBf16 (decVM w))
  | 0x63 => some (.vldF16 (decVM w))
  | 0x64 => some (.vstF32 (decVM w))
  | 0x65 => some (.vstI32 (decVM w))
  | 0x66 => some (.vstBf16 (decVM w))
  | 0x67 => some (.vstF16 (decVM w))
  | 0x68 => some (.vpmulP16 (decVR w))
  | 0x69 => some (.vpmulP8 (decVR w))
  | 0x6A => some (.vpcmpP16 (decVR w))
  | 0x6B => some (.vpscP16 (decVR w))
  | 0x6C => some (.vpsumP16 (decVR w))
  | 0x6D => some (.vpresP16 (decVR w))
  | 0x6E => some (.vplenP16 (decVR w))
  | 0x6F => some (.vpcvtP8 (decVR w))
  | _ => none

/-- The opcode map of the M slot. -/
def rawM (w : Nat) : Option MSyl :=
  match w / 2 ^ 56 with
  | 0x0 => some (.mpush (decMO w))
  | 0x1 => some (.mshift (decMO w))
  | 0x2 => some (.macc (decMO w))
  | 0x3 => some (.maccp (decMO w))
  | 0x4 => some (.mdrain (decMO w))
  | 0x5 => some (.manch (decMO w))
  | 0x6 => some (.mzero (decMO w))
  | 0x7 => some (.mrow (decMO w))
  | 0x8 => some (.mexact (decMO w))
  | 0x9 => some (.mdrainv (decMO w))
  | _ => none

/-- The opcode map of either copy slot. -/
def rawC (w : Nat) : Option CSyl :=
  match w / 2 ^ 24 with
  | 0x0 => some (.copy1d (decCA w))
  | 0x1 => some (.copy2d (decCA w))
  | 0x2 => some (.copy3d (decCA w))
  | 0x3 => some (.gather (decCA w))
  | 0x4 => some (.scatter (decCA w))
  | 0x5 => some (.mcast (decCA w))
  | 0x6 => some (.send (decCA w))
  | 0x7 => some (.recv (decCA w))
  | 0x8 => some (.bankWadd (decCA w))
  | 0x9 => some (.bankAdd (decCA w))
  | 0xA => some (.bankMax (decCA w))
  | 0xB => some (.bankMin (decCA w))
  | 0xC => some (.barArrive (decCA w))
  | 0xD => some (.barWait (decCA w))
  | 0xE => some (.sfence (decCA w))
  | 0xF => some (.srst (decCA w))
  | 0x10 => some (.copy1dCs (decCS w))
  | 0x11 => some (.copy2dCs (decCS w))
  | 0x12 => some (.copy3dCs (decCS w))
  | 0x13 => some (.gatherCs (decCS w))
  | 0x14 => some (.scatterCs (decCS w))
  | 0x15 => some (.st32 (decCS w))
  | 0x16 => some (.st64 (decCS w))
  | 0x17 => some (.ld64 (decCS w))
  | 0x18 => some (.atomAdd (decCS w))
  | 0x19 => some (.atomAnd (decCS w))
  | 0x1A => some (.atomOr (decCS w))
  | 0x1B => some (.atomXor (decCS w))
  | 0x1C => some (.atomMax (decCS w))
  | 0x1D => some (.atomMin (decCS w))
  | 0x1E => some (.atomSwap (decCS w))
  | 0x1F => some (.atomCas (decCS w))
  | 0x20 => some (.msaCas4 (decCS w))
  | 0x21 => some (.msaEnq (decCS w))
  | 0x22 => some (.msaDeq (decCS w))
  | 0x23 => some (.msaChase (decCS w))
  | 0x24 => some (.scLd64 (decCS w))
  | 0x25 => some (.scSt64 (decCS w))
  | 0x26 => some (.scSwap (decCS w))
  | 0x27 => some (.scAdd (decCS w))
  | _ => none

/-- The slots of a bundle in header order (R28). -/
inductive Slot | s | l | k | va | vb | m | c0 | c1
  deriving DecidableEq, Repr

/-- Slot numbers 0 to 7 (R28). -/
def Slot.num : Slot → Nat
  | .s => 0 | .l => 1 | .k => 2 | .va => 3 | .vb => 4 | .m => 5 | .c0 => 6 | .c1 => 7

/-- All slots in order. -/
def Slot.all : List Slot := [.s, .l, .k, .va, .vb, .m, .c0, .c1]

/-- Slots with 64-bit syllables (R31). -/
def Slot.wide : Slot → Bool
  | .va | .vb | .m => true
  | _ => false

/-- Bits of a slot's syllable (R31). -/
def Slot.bits (x : Slot) : Nat := if x.wide then 64 else 32

/-- The map of a slot. -/
def rawSlot (x : Slot) (w : Nat) : Option Syl :=
  match x with
  | .s => (rawS w).map .s
  | .l => (rawL w).map .l
  | .k => (rawK w).map .k
  | .va => (rawV w).map (.v .a)
  | .vb => (rawV w).map (.v .b)
  | .m => (rawM w).map .m
  | .c0 => (rawC w).map (.c .a)
  | .c1 => (rawC w).map (.c .b)

/-- The decoder of a slot: band codes are no-operations (R57), unassigned codes and broken layouts are refused by name. -/
def decodeSyl (x : Slot) (w : Nat) : Except DecodeError Syl :=
  if 2 ^ x.bits ≤ w then .error .badField
  else if 0xF0 ≤ w / 2 ^ (x.bits - 8) then .ok (.band (.ofNat 3 x.num) (.ofNat 64 w))
  else match rawSlot x w with
    | none => .error .unassigned
    | some y => if wfSyl y && encodeSyl y == w then .ok y else .error .badField

/-- The slot of a syllable. -/
def Syl.slot : Syl → Slot
  | .s _ => .s | .l _ => .l | .k _ => .k
  | .v .a _ => .va | .v .b _ => .vb | .m _ => .m
  | .c .a _ => .c0 | .c .b _ => .c1
  | .band n _ => (Slot.all[n.toNat]?).getD .c1

/-- The first of the slots that accepts the word. -/
def firstOf : List Slot → Nat → Option Syl
  | [], _ => none
  | x :: t, w => match decodeSyl x w with
    | .ok i => some i
    | .error _ => firstOf t w

/-- The reading of a word of the opcode table, which does not name its slot: a 32-bit word is read in the slots S, L, K, C0 in this order
and a 64-bit word in VA, M, and the first legal reading stands (log entry 2). -/
def tableSyl (nbits w : Nat) : Option Syl :=
  match nbits with
  | 32 => firstOf [.s, .l, .k, .c0] w
  | 64 => firstOf [.va, .m] w
  | _ => none

/-- The decoder's row for a word of the opcode table. -/
noncomputable def decodeTableWord (nbits w : Nat) : Option Instr := (tableSyl nbits w).map instrOf

end Sys2Proof
end

