-- ==== Sys2Proof/Machine/State.lean ====
section
/-! DEFINITION. The state of one package as plain data, and the state right after a cold reset has cleared everything (19 R363, R10). Each
field's docstring cites the rule that names it; INVENTORY.md lists every piece with its width and reset value. -/

namespace Sys2Proof.Machine

/-- Sparse tables: (number, value) pairs, numbers rising; an absent number has the table's default. -/
abbrev Tab (α : Type) := List (Nat × α)

/-- Slot states (12 R247). -/
inductive SlotState | empty | loading | run | parked | wait | monitor | saving
  deriving DecidableEq, Repr

/-- A loop register (03 R45, 05 R112): count, stage count, iteration, passes, which can pass 2^32 (log entry 10), start, active and exit; `seq`
orders the `loop` issues (18 R338). -/
structure Loop where
  count : W32 := 0
  stages : W32 := 0
  iter : Nat := 0
  passes : Nat := 0
  start : W32 := 0
  active : Bool := false
  exit : Bool := false
  seq : Nat := 0
  deriving DecidableEq, Repr

/-- A sticky record (03 R33): the syllable and its stepped displacement or hidden offset at full width. -/
structure Sticky where
  word : W64
  disp : W64
  deriving DecidableEq, Repr

/-- S and L files (03 R45), return stack (05 R111), program counter (03 R64; 32 bits, log entry 9). Bit 0 of `g` is not used: g0 reads true. -/
structure Regs where
  s : Cells 64 := []
  g : BitVec 8 := 0
  q : BitVec 8 := 0
  b : Cells 32 := []
  bstep : Cells 32 := []
  loops : Vector Loop 4 := .replicate 4 {}
  rstack : List W32 := []
  pc : W32 := 0
  d : Cells 64 := []
  e : Cells 64 := []
  deriving DecidableEq, Repr

/-- One vector file (03 R45): written registers and masks, rotation (05 R107), generator key and counter (04 R93). A register or mask that is
not listed reads as the free value of `seed`, or 0 while `seed` is 0 (13 R284, log entry 7). -/
structure VFile where
  rows : Tab VRow := []
  masks : Tab W64 := []
  seed : Nat := 0
  base : BitVec 11 := 0
  rot : BitVec 11 := 0
  key : BitVec 128 := 0
  ctr : BitVec 128 := 0
  deriving DecidableEq, Repr

/-- A tile's mode, anchor, flags and beat count (04 R83, 06 R145): mode 0 exact, 1 anchored, 2 phasor. -/
structure Tile where
  mode : BitVec 2 := 0
  anchor : BitVec 11 := 0
  lost : Bool := false
  sat : Bool := false
  beats : Nat := 0
  deriving DecidableEq, Repr

/-- The held edge H (06 R137): format code, 128 raw elements of 16 bits and their 128 scale bytes. -/
structure Held where
  filled : Bool := false
  code : BitVec 6 := 0
  raw : BitVec 2048 := 0
  scale : Latch := 0
  deriving DecidableEq, Repr

/-- The array's staging edges (06 R140): the bundle and repetition of the beat that faulted, the format bytes of its panels and the raw rows that
%rowprog counts, pipe A's first. -/
structure Staging where
  bundle : W32 := 0
  rpt : BitVec 4 := 0
  fmtA : Byte := 0
  fmtB : Byte := 0
  rowsA : List Nat := []
  rowsB : List Nat := []
  deriving DecidableEq, Repr

/-- M and K state: accumulator rows (number 128 × tile + row), tiles, bases, %rowprog, H, latches xr0 xr1 xc0 xc1 (03 R45, 06 R137-R145). -/
structure Mat where
  acc : Tab ARow := []
  seed : Nat := 0
  t0 : Tile := {}
  t1 : Tile := {}
  mpa : W64 := 0
  mpb : W64 := 0
  mpd : W64 := 0
  rowprog : BitVec 9 := 0
  staging : Staging := {}
  held : Held := {}
  latch : Vector Latch 4 := .replicate 4 0
  deriving DecidableEq, Repr

/-- The reset value of a form register (03 R47): 64 columns, one row, step 1 for VA and VB, 0 for M, C0 and C1. -/
def formReset (slot : Nat) : W64 := if slot < 2 then 0x1FC000 else 0xFC000

/-- All 40 form registers: number 8 × slot + 2 × form + (1 for the shadow), slots VA VB M C0 C1. -/
def formsReset : Vector W64 40 := .ofFn fun i => formReset (i.val / 8)

/-- Issue control of a context: forms (03 R47), sticky records (R33), template store (R35), %dictbase (R36), %rptidx (R34), %imap (R64). -/
structure Ctl where
  forms : Vector W64 40 := formsReset
  sticky : Vector (Option Sticky) 8 := .replicate 8 none
  tmpl : List (BitVec 512) := []
  dictLoaded : Bool := false
  dictOff : BitVec 12 := 0
  rptidx : BitVec 4 := 0
  imap : W64 := 0
  deriving DecidableEq, Repr

/-- Kernel system registers (05 R110): flags (04 R75), phasor threshold (04 R89), block tags and their selector (05 R98). -/
structure Sys where
  fflags : BitVec 5 := 0
  pthresh : W32 := 0
  sfsel : BitVec 9 := 0
  tags : Cells 8 := []
  deriving DecidableEq, Repr

/-- A watchpoint as armed (18 R343). -/
structure Watch where
  addr : W64 := 0
  mask : W64 := 0
  armed : Bool := false
  deriving DecidableEq, Repr

/-- The monitor's registers (13 R292), its bank of s48-s63 and sticky records (R289) and the armed watchpoints; `ctxReq` is the request being
checked, a restore when true, with its image (R291). %mvec reads 0x3_C000. -/
structure Mon where
  mcause : BitVec 13 := 0
  mepc : BitVec 18 := 0
  mrpt : BitVec 4 := 0
  mtval : W64 := 0
  esc : Bool := false
  dbg : Bool := false
  mscratch : Vector W64 8 := .replicate 8 0
  wpaddr : Vector W64 4 := .replicate 4 0
  wpmask : Vector W64 4 := .replicate 4 0
  ctxBusy : Bool := false
  ctxCode : Byte := 0
  ctxReq : Option (Bool × W64) := none
  bank : Vector W64 16 := .replicate 16 0
  bankSticky : Vector (Option Sticky) 8 := .replicate 8 none
  watch : Vector Watch 4 := .replicate 4 {}
  active : Bool := false
  deriving DecidableEq, Repr

/-- Where a transfer stands: before its accesses; its source asked for in another package; its operation asked of another package; its writes on their
way to one; at a time, a barrier or a fence; `arrived` is performed, its completion waiting at the cluster's boundary (01 R24). -/
inductive XPhase
  | running | packetsOut | asked | releaseHeld | timed (at_ : Nat) | atBarrier | fenced | arrived
  deriving DecidableEq, Repr

/-- An incomplete transfer (10 R205-R208): identifier, syllable, captured register values, addresses, bundle and cluster time of its issue and
the number of that issue, whether kernel code issued it; whether its runs are known, with the runs (destination, source, bytes) and the stream
destinations that it names; whether it has taken every sequence number that it will take; the packets that ask for its source or its operation, each
with the address and bytes that it covers, packets to send, packets not acknowledged, replies (09 R181, 11 R237); the status met so far; whether its
watched write is recorded (18 R345); results that wait for its last packets. -/
structure Xfer where
  tid : W32
  op : CSyl
  args : List W64 := []
  x : W64 := 0
  y : W64 := 0
  bundle : W32 := 0
  rpt : BitVec 4 := 0
  loop : Nat := 0
  iter : Nat := 0
  stage : Nat := 0
  issued : Nat := 0
  seq : Nat := 0
  kernel : Bool := true
  phase : XPhase := .running
  planned : Bool := true
  numbered : Bool := true
  segs : List (Nat × Nat × Nat) := []
  dests : List Nat := []
  asks : List (PktKey × Nat × Nat) := []
  queue : List (PktKey × W32 × BitVec 48 × PktBody) := []
  pkts : List PktKey := []
  reply : List (PktKey × List Byte) := []
  status : Byte := 0
  watched : Bool := false
  final : List (Nat × W64) := []
  deriving DecidableEq, Repr

/-- One copy channel (10 R205, R206, R212): %tid, incomplete transfers oldest first, failure list oldest first. %done follows from them. -/
structure Chan where
  tid : W32 := 0
  xfers : List Xfer := []
  fails : List (W32 × Byte) := []
  deriving DecidableEq, Repr

/-- A stream counter (09 R181): stream, destination (peer package number, or 4,096 + die), next number, broken mark, sent since the last srst. -/
structure StreamCtr where
  stream : BitVec 4
  dst : Nat
  next : W32
  sent : Bool := false
  deriving DecidableEq, Repr

/-- Continuation state (10 R206): both channels, stream-source tag, stream counters, broken marks. -/
structure Conts where
  c0 : Chan := {}
  c1 : Chan := {}
  tag : W64 := 0
  ctrs : List StreamCtr := []
  broken : BitVec 16 := 0
  deriving DecidableEq, Repr

/-- A barrier leaf entry (16 R318): descriptor, sent, phase, flipped; `seq` orders the arrival after the transfers issued before it (10 R231);
descriptor and phase of the arrival before it, which stands again if this one does not count (10 R230). -/
structure Leaf where
  id : BarId
  desc : BitVec 48
  sent : Bool
  phase : Bool
  flipped : Bool
  tid : W32
  ch : Side
  seq : Nat
  prev : Option (BitVec 48 × Bool) := none
  deriving DecidableEq, Repr

/-- What the scoreboard tracks (12 R251) beyond the next cycle: s registers, vector registers, masks, flags, generator state, tiles, the drains of a
tile, the array, drains, drained bytes by address, busy slots. Every other result is usable one cycle after its issue. -/
inductive Item
  | s (n : Nat) | v (sd : Side) (n : Nat) | mask (sd : Side) (n : Nat) | flags | rng (sd : Side) | tile (n : Nat) | drainOf (n : Nat) | array | drain
  | mem (lo hi : Nat) | slot (n : Nat)
  deriving DecidableEq, Repr

/-- A pending result: item and the wall cycle from which it can be used. -/
structure Pend where
  item : Item
  at_ : Nat
  deriving DecidableEq, Repr

/-- Rows of a multi-row form still to issue (05 R119, 10 R209): slot, syllable, stepped displacement, next row, rows, cycle of the next row, and
what the issue fixed: the two vector files as they stood before it, its active form, base registers, %pthresh, captured registers of a copy form, number of the issue,
whether the rows are timed in cluster time (10 R209), braked cycles in which they ran on (log entry 30), vector registers that a later change of
the mask leaves alone: writes that R43 discards, and registers written since. -/
structure RowJob where
  slot : Nat
  syl : Syl
  delta : W64
  row : Nat
  rows : Nat
  due : Nat
  va : VFile := {}
  vb : VFile := {}
  form : W64 := 0
  b : Cells 32 := []
  pthresh : W32 := 0
  args : List W64 := []
  bundle : W32 := 0
  seq : Nat := 0
  clustered : Bool := false
  early : Nat := 0
  skip : List (Side × Nat) := []
  deriving DecidableEq, Repr

/-- Why a context issues nothing (12 R249, 18 R346). -/
inductive Hold
  | wdone (ch : Side) (tid : W32) | kend | esc (s : BitVec 6) (fault : Bool) | recvRow
  deriving DecidableEq, Repr

/-- What the end of an issue does besides advancing the pc (13 R287-R289): a trap of `trap`, a return of `mret`, an escalation of `esc`. -/
inductive Post
  | trapTo (code : W64) | mret | escalate (s : BitVec 6)
  deriving DecidableEq, Repr

/-- A watch stop that is pending (18 R345): first matched byte, watchpoint, earliest landing, further matches, whether its record is written. -/
structure WatchStop where
  addr : W64
  wp : Nat
  from_ : Nat := 0
  more : Nat := 0
  chan : Option (Side × W32) := none
  bounds : Nat := 0
  found : Bool := true
  bundle : W32 := 0
  loop : BitVec 8 := 0
  stage : BitVec 8 := 0
  iter : W32 := 0
  deriving DecidableEq, Repr

/-- Run control of a context: slot state, own-time cycle of the last issue and extra cost to the next one (03 R32, R36, 05 R111, R117),
scoreboard (12 R251), rows to issue, hold and the bundle that began it, K write times in scheduled and wall cycles (06 R143), rdcyc count (13 R286), pending stops (18 R342)
and pending traps (10 R219, 12 R258). -/
structure Run where
  state : SlotState := .empty
  last : Nat := 0
  gap : Nat := 0
  sb : List Pend := []
  portUntil : Option Nat := none
  itemUntil : Nat := 0
  itemSlot : Nat := 0
  rows : List RowJob := []
  hold : Option Hold := none
  heldPc : W32 := 0
  heldRpt : BitVec 4 := 0
  parkedOn : Option BarId := none
  sched : Nat := 0
  kSched : Vector (Option Nat) 4 := .replicate 4 none
  kWall : Vector (Option Nat) 4 := .replicate 4 none
  cyc : Nat := 0
  waiting : Bool := false
  ready : Bool := false
  issuedNow : BitVec 8 := 0
  touch : List (Nat × Nat) := []
  rowPort : Option (Nat × W32 × Nat) := none
  dstop : Option (BitVec 14) := none
  watchStop : Option WatchStop := none
  boundary : Bool := false
  timing : Option Nat := none
  brakeTrap : Option Nat := none
  post : Option Post := none
  nseq : Nat := 0
  deriving DecidableEq, Repr

/-- Who a context is (16 R318) and its counters: region with the block that it started with (12 R242), tenant, kernel, serial, position, group, strict mode (12 R253), footprint (13 R281),
absent units and the image they come from (16 R317), whether it runs a built-in kernel (13 R284), whether it stands for a party of the host die (01 R13), recency stamps, horizon (09 R177), starvation and spin counters (12 R250, R260), marks,
barrier leaves, scratchpad bytes; the image, cause and group image of a save in progress (16 R320), with its waiter record and the bundle at which
the watchdog struck; of a restored context, the group image it came with. -/
structure Prog where
  region : W32 := 0
  tenant : BitVec 16 := 0
  kernel : BitVec 16 := 0
  serial : W32 := 0
  pos : BitVec 3 := 0
  group : Bool := false
  strict : Bool := false
  promoted : Bool := false
  entry : Option EntryId := none
  callBlock : W64 := 0
  host : Bool := false
  blk : Option (BitVec 2048) := none
  footprint : List Nat := []
  absent : List Nat := []
  image : W64 := 0
  recency : Cells 64 := []
  horizon : Vector (BitVec 24) 9 := .replicate 9 0
  starve : Nat := 0
  starved : Bool := false
  spin : Nat := 0
  yielded : Bool := false
  eligible : Bool := false
  kind01 : Bool := false
  builtin : Bool := false
  leaves : List Leaf := []
  passed : List (BitVec 48) := []
  saveTo : W64 := 0
  saveCause : Byte := 0
  saveGroup : W64 := 0
  saveWaiter : Option (BitVec 256) := none
  saveBundle : Option Nat := none
  scratch : Memory := []
  deriving DecidableEq, Repr

/-- One context slot. -/
structure Ctx where
  r : Regs := {}
  va : VFile := {}
  vb : VFile := {}
  m : Mat := {}
  ctl : Ctl := {}
  sys : Sys := {}
  mon : Mon := {}
  con : Conts := {}
  run : Run := {}
  prog : Prog := {}
  deriving DecidableEq, Repr

/-- One core: which slot is the primary (12 R250), the instruction scratchpad (03 R64), the instruction page map of each slot as physical
page + 1 by page (13 R282), the continuation states left in its slots by region (10 R206); `vacant` says that the primary slot became EMPTY at a kernel boundary; regions, with the
address of their monitor, for which the monitor pages were loaded (15 R296). -/
structure CoreSt where
  prim : Bool := false
  vacant : Bool := false
  monitors : List (W32 × Nat) := []
  imem : Memory := []
  map0 : Cells 8 := []
  map1 : Cells 8 := []
  left : List (Bool × W32 × Conts) := []
  deriving DecidableEq, Repr

/-- The causes of a deviation record, in their order (12 R256, 18 R340). -/
inductive Cause | absent | lateReply | interlock | portWait | receiveWait | wheelWait | dualWrite
  deriving DecidableEq, Repr

/-- An application of the brake (12 R256): cause, stalled core, bundle, repetition, slot, loop fields, first wall cycle; `rwOnly` says that every
condition is a receive wait (10 R220), `waits` that one of them is a reason of R249 for which a context waits, `stalled` which cores have one. -/
structure Brake where
  cause : Cause
  core : Nat
  bundle : W32
  rpt : BitVec 4
  slot : Nat
  loop : BitVec 8
  stage : BitVec 8
  iter : W32
  first : Nat
  region : W32
  serial : W32
  rwOnly : Bool := false
  waits : Bool := false
  stalled : BitVec 8 := 0
  deriving DecidableEq, Repr

/-- A row in the exchange network or a multicast window (10 R218, 09 R188): cluster time of its landing, sender, channel, transfer,
target core or mask, offset, bytes. -/
structure NetRow where
  due : Nat
  src : CtxId
  ch : Side
  tid : W32
  target : Nat
  off : Nat
  region : W32
  data : List Byte
  deriving DecidableEq, Repr

/-- A barrier root (10 R230, R231): arrivals of the present phase as leaf numbers, phase, descriptor of the phase's first arrival, arrivals on their
way with their time; flips on their way in the cluster with their time and leaves; at die and package level the clusters that a flip has not
entered yet, with its leaves. -/
structure BarRoot where
  arrived : List Nat := []
  phase : Bool := false
  desc : BitVec 48 := 0
  inFlight : List (Nat × Nat × BitVec 48) := []
  flips : List (Nat × List Nat) := []
  pend : List (Nat × List Nat) := []
  deriving DecidableEq, Repr

/-- What waits at a cluster's boundary while the brake is applied (01 R24, 12 R255): a transfer whose scratchpad accesses wait for the release, the
completion of one that has been performed with its results, the flip of a die or package barrier with its leaves. -/
inductive Arrival
  | perform (c : CtxId) (ch : Side) (tid : W32)
  | done (c : CtxId) (ch : Side) (tid : W32) (status : Byte) (outs : List (Nat × W64))
  | flip (id : BarId) (leaves : List Nat)
  deriving DecidableEq, Repr

/-- Work of a sack hoist (16 R320-R323): a pull of a unit, a departure write, or an image-to-image copy; `pendSince` while its directory byte
reads 01, `reread` the tick of the next look. -/
structure HoistJob where
  kind : BitVec 2
  ctx : CtxId
  region : W32
  unit : Nat
  image : W64
  src : W64 := 0
  data : List Byte := []
  demand : Option Nat := none
  pendSince : Option Nat := none
  reread : Nat := 0
  deriving DecidableEq, Repr

/-- One cluster: wall cycles and cluster time (01 R23, 18 R339; `ctime` is the time of the next unbraked cycle), clock ratio and segment,
brake (01 R22), exchange network, windows, receive entries by 16 × core + entry and what landed for
them in this cycle (10 R219), barrier roots, trace records buffered (18 R337),
hoist, tenant and the end of a clear (15 R299), arrivals held at the boundary (01 R24). -/
structure Cluster where
  wall : Nat := 0
  ctime : Nat := 0
  ratio : BitVec 5 := 19
  segTick : Nat := 0
  segCycle : Nat := 0
  segReason : Nat := 1
  started : Bool := false
  brake : Option Brake := none
  net : List NetRow := []
  win : List NetRow := []
  recv : Tab (List Byte) := []
  fresh : Tab (List Byte) := []
  bars : Tab BarRoot := []
  trace : List (W32 × BitVec 256) := []
  hoist : List HoistJob := []
  tenant : BitVec 16 := 0
  clearing : Nat := 0
  boundary : List Arrival := []
  deriving DecidableEq, Repr

/-- A replicated write on its way to a die (09 R176). -/
structure RepWrite where
  die : Nat
  dst : Nat
  clock : Vector (BitVec 24) 9
  pa : Nat
  bytes : List Byte
  deriving DecidableEq, Repr

/-- One die: shared memory, block tags (09 R170, 10 R228), bank-set masks by tenant (15 R303), clock V (09 R176, R177) and the entries of it that
count the writes applied at the die, replica pages. -/
structure Die where
  dsm : Memory := []
  tags : Cells 8 := []
  banks : Cells 64 := []
  clock : Vector (BitVec 24) 9 := .replicate 9 0
  applied : Vector (BitVec 24) 9 := .replicate 9 0
  replicas : Tab Memory := []
  bars : Tab BarRoot := []
  disabled : Bool := false
  deriving DecidableEq, Repr

/-- A saved context of a region: its image and group image (16 R320), its waiter record if it waited when it was saved (12
R262), the barrier it was parked on, the tile word that it runs, the wall cycles lost before a BRAKE_TIMEOUT that it began (R258) and its
bundle, the transfers that the save left incomplete; its core, its barrier leaves with the descriptors that flipped before them, and its horizon,
which a flip may still level (10 R233); the block that it started with (12 R242). -/
structure Saved where
  image : W64
  group : W64 := 0
  waiter : Option (BitVec 256) := none
  parked : Option BarId := none
  entry : Option EntryId := none
  callBlock : W64 := 0
  pos : BitVec 3 := 0
  lost : Option Nat := none
  bundle : Option Nat := none
  keep : List (Side × Xfer) := []
  core : BitVec 8 := 0
  leaves : List Leaf := []
  passed : List (BitVec 48) := []
  horizon : Vector (BitVec 24) 9 := .replicate 9 0
  blk : Option (BitVec 2048) := none
  deriving DecidableEq, Repr

/-- A region control block as installed (12 R241), its effective values as the region's work took them with the tile word accepted last (R242), its
address, and the region's own state: serial counter (13 R269), progress timer (12 R262),
trace and dump settings (18 R341, R347, 16 R327), save pool and images carved from it with their regions (16 R385), trace-buffer counts (18 R336), export table (15 R306). -/
structure Region where
  id : W32 := 0
  addr : W64 := 0
  blk : BitVec 2048 := 0
  inForce : Option (BitVec 2048) := none
  parent : Option W32 := none
  serial : W32 := 0
  timer : Nat := 0
  sample : Nat := 0
  bolter : Bool := false
  listMode : Bool := false
  dump : W64 := 0
  dumpLen : W64 := 0
  pool : W64 := 0
  poolLen : W64 := 0
  carved : List (W64 × Nat × W32) := []
  saved : List Saved := []
  tbWrite : Nat := 0
  tbLost : Nat := 0
  exportTab : Tab (BitVec 128) := []
  mapped : Nat := 0
  dbg : Bool := false
  dirty : List (W32 × W64) := []
  deriving DecidableEq, Repr

/-- A held packet of the source gateway (09 R184): key, stream-source fields, plane of its last send, tick its timer runs out, resends. -/
structure HeldPkt where
  key : PktKey
  tenant : BitVec 16
  region : W32
  off : BitVec 48
  body : PktBody
  plane : Nat
  expires : Nat
  resends : Nat
  owner : CtxId × Option (Side × W32)
  isResync : Bool := false
  deriving DecidableEq, Repr

/-- The millrace's state for a source and stream (09 R182, R183): next expected number, packets held in the window, map of stream 0; status and reply
of the packets committed last, which every acknowledgement carries (15 R306). -/
structure MillRace where
  src : BitVec 12
  tag : W64
  stream : BitVec 4
  x : W32 := 0
  window : List Packet := []
  map : W64 := 0
  results : List (W32 × Byte × List Byte) := []
  deriving DecidableEq, Repr

/-- A packet or acknowledgement that left the package, newest last: what an outside observer sees. -/
inductive OutPkt
  | data (k : PktKey) (plane : Nat) (tenant : BitVec 16) (region : W32) (off : BitVec 48) (body : PktBody)
  | ack (dst : BitVec 12) (a : Ack)
  | resync (k : PktKey) (plane : Nat)
  deriving DecidableEq, Repr

/-- Entry states of a tile sequencer (12 R245). -/
inductive TileState | free | check | stage | issue | wait | join | commit | fault
  deriving DecidableEq, Repr

/-- A tile word with the piece of its top-level work (13 R274): the word as issued at this level, serial, unit u0, reduction chunk [k0, k1),
chunk index, whether it must leave wide partials, core position of a group call. -/
structure Work where
  word : BitVec 128
  serial : W32
  u0 : Nat
  k0 : Nat
  k1 : Nat
  chunk : Nat := 0
  wide : Bool := false
  pos : Nat := 0
  deriving DecidableEq, Repr

/-- An issue record of a child (13 R279): its work, its place, whether it is issued and done, replays used, targets left out, its last report, its
descriptor. -/
structure Child where
  work : Work
  place : Nat
  issued : Bool := false
  done : Bool := false
  replays : Nat := 0
  avoid : List Nat := []
  report : List (BitVec 256) := []
  desc : BitVec 512 := 0
  deriving DecidableEq, Repr

/-- A sequencer entry (12 R245): its work, children, partials to join, reports; at the top its packet with the index in it and the entries
it depends on, the blocks read in CHECK, the ranges of its operands (13 R270) and their staged bytes; below the top its parent; its outputs as
bytes with their addresses, or the tiles of a kernel with their numbers; packets to send and packets sent; the cause and detail of an error
met in STAGE or ISSUE, of which it faults once it is in WAIT (R245); reports of the watchdog to a cluster's sequencer (R258). -/
structure Entry where
  state : TileState := .free
  work : Option Work := none
  children : List Child := []
  split : Bool := false
  partials : List (Nat × Nat × Wide × Nat) := []
  reports : List (BitVec 256) := []
  packet : Option (Nat × Nat) := none
  deps : BitVec 64 := 0
  parent : Option (EntryId × Nat) := none
  out : List (W64 × List Byte) := []
  blocks : List Byte := []
  ranges : List (Nat × Nat × Bool) := []
  staged : List (Nat × List Byte) := []
  queue : List (PktKey × W32 × BitVec 48 × PktBody) := []
  pkts : List PktKey := []
  doom : Option (Byte × Nat) := none
  told : List (BitVec 256) := []
  deriving DecidableEq, Repr

/-- A SUBMIT packet in work (19 R358): completion address, header op, ring index, region, entries left, committed, first serial, failed entries. -/
structure Packet2 where
  key : Nat
  region : W32
  index : W64
  cpl : W64
  words : List (BitVec 128 × BitVec 64)
  accepted : Nat := 0
  committed : BitVec 64 := 0
  failed : BitVec 64 := 0
  first : Option W32 := none
  reports : List (BitVec 256) := []
  finished : Bool := false
  deriving DecidableEq, Repr

/-- A declared tile (13 R281): offset, largest size, format byte, kind 0 input, 1 output, 2 scratch. -/
structure KTile where
  off : Nat
  size : Nat
  fmt : Byte
  kind : Nat
  deriving DecidableEq, Repr

/-- A registered kernel (13 R281, R282). -/
structure Kernel where
  num : BitVec 16
  region : W32
  group : Bool
  entry : W32
  code : List Byte
  footprint : List Nat
  tiles : List KTile
  deriving DecidableEq, Repr

/-- A ring's registers (19 R350) and read index. -/
structure Ring where
  base : W64 := 0
  hdr : W64 := 0
  tenant : BitVec 16 := 0
  log : BitVec 5 := 0
  stopped : Bool := false
  enable : Bool := false
  read : W64 := 0
  taken : Nat := 0
  deriving DecidableEq, Repr

/-- The SPDM responder (15 R311): version, capabilities, algorithms done; session; challenge and measurements recorded. -/
structure Spdm where
  stage : Nat := 0
  session : Option (BitVec 768) := none
  finished : Bool := false
  challenged : Bool := false
  measured : Bool := false
  reply : List Byte := []
  deriving DecidableEq, Repr

/-- Host die and firmware: rings, mailboxes (19 R360), key slots filled and their tenants (15 R307), pair keys and packet counters (R309),
tag failures, measurement registers (R311), banks with their signatures, digests of the code that runs (19 R362), rollback counter, boot step (R310), alarm lock and log (R313), telemetry (R361),
frames of main memory that the firmware has dealt (in use by die; address, size, and 0 for firmware memory, 1 or 2 for a region's frame closed or
open to the application cores, 15 R297, R302), identity (R349), malformed page-table entries reported (R303); horizon of the application cores and the
value of their last load (09 R180). -/
structure Firm where
  rings : Tab Ring := []
  mail : Tab (List (BitVec 3 × BitVec 512)) := []
  keys : Tab (BitVec 512) := []
  keyTenant : Cells 16 := []
  keyFills : Nat := 0
  pairKeys : Tab (BitVec 512) := []
  pairCtr : Tab Nat := []
  tagFails : List (Nat × Nat) := []
  meas : Tab (BitVec 512) := []
  bank0 : BitVec 512 := 0
  bank1 : BitVec 512 := 0
  ver0 : W64 := 0
  ver1 : W64 := 0
  sig0 : BitVec 512 := 0
  sig1 : BitVec 512 := 0
  code : Tab (BitVec 512) := []
  bad0 : Bool := false
  bad1 : Bool := false
  activeBank : Bool := false
  rollback : W64 := 0
  switched : List (BitVec 3) := []
  updating : Bool := false
  stopped : BitVec 8 := 0
  boot : Nat := 1
  locked : Bool := false
  needVerifier : Bool := false
  alarms : List (BitVec 8 × BitVec 8 × Nat) := []
  telSeq : Cells 32 := []
  telemetry : List (BitVec 16 × List Byte) := []
  dropped : Tab Nat := []
  errLog : List (BitVec 256) := []
  escLog : List (W64 × W64 × W64 × W64) := []
  fab : BitVec 16 := 0xFFFF
  spdm : Spdm := {}
  alloc : Cells 64 := []
  frames : List (Nat × Nat × Nat) := []
  appH : Vector (BitVec 24) 9 := .replicate 9 0
  appRead : List Byte := []
  walkErrs : List (W32 × W64) := []
  deriving DecidableEq, Repr

/-- The source gateway and the millrace of the package (09 R181-R186); the package tile sequencer's own tag and counters (13 R270) and the
statuses of its packets that failed; packets of saved images that wait for the window of 64 (16 R318); the packages that hold no region of a tenant,
with the tenant, as the fabric-management core knows them (15 R305; log entry 19); what other packages' tile sequencers have sent to regions (13 R275). -/
structure Fabric where
  seqCon : Conts := {}
  seqFails : List (PktKey × Byte) := []
  hoistQ : List (BitVec 16 × PktKey × W32 × BitVec 48 × PktBody) := []
  held : List HeldPkt := []
  planes : BitVec 8 := 0xFF
  nextPlane : Nat := 0
  mill : List MillRace := []
  out : List OutPkt := []
  tags : Nat := 0
  apart : List (BitVec 12 × BitVec 16) := []
  heard : List (BitVec 12 × W32 × PktBody) := []
  deriving DecidableEq, Repr

/-- A migrating page (09 R190): its address in a region, physical frame, target frame, size. -/
structure Migration where
  va : W64
  region : W32
  old : Nat
  new : Nat
  size : Nat
  deriving DecidableEq, Repr

/-- Steps of the part that the machine itself has due in the current cycle. -/
inductive Due
  | land (c : CtxId) | sendArr (cl : ClId) | mcastLand (cl : ClId) | barArr (b : BarRef) | barFlip (b : BarRef) (cl : ClId) | barSend (c : CtxId) (id : BarId)
  | scDo (c : CtxId) (ch : Side) (tid : W32) | complete (c : CtxId) (ch : Side) (tid : W32) | relSend (c : CtxId) (ch : Side) (tid : W32)
  | resync (c : CtxId) (ch : Side) (tid : W32) | resend (k : PktKey) | promote (core : BitVec 8) | starve (core : BitVec 8) | yield_ (c : CtxId) | timeout (region : W32)
  | release (cl : ClId) | watchdog (cl : ClId) | row (c : CtxId) (slot : BitVec 3) | issue (c : CtxId) | sample (cl : ClId) | segment (cl : ClId) | drain (cl : ClId)
  | ctxReq (c : CtxId) | save (c : CtxId) | depart (cl : ClId) | pull (c : CtxId) (unit : BitVec 10) | reread (c : CtxId) (unit : BitVec 10) | replica (die : BitVec 4)
  | tile (e : EntryId) | kstart (e : EntryId) (c : CtxId) | ring (k : BitVec 6) | letIn (cl : ClId) | clear (cl : ClId) | restore (c : CtxId) | saveFail (cl : ClId)
  deriving DecidableEq, Repr

/-- The machine. `cid` and `cx` are the context that issues, `others` all the rest by 2 × core + slot (log entry 3); `now` counts periods of
1.9 GHz from reset, so the tick count (01 R14) is 10 × now / 19 and the wheel position (09 R187) now mod 1,024; `oracle` holds outside and
asynchronous steps with the earliest time they may be taken, `commands` what the command core has taken from the rings and handed on (19 R354), and `auto` says whether the machine's own asynchronous completions happen as soon
as they can (log entry 4); `turn` is the region whose top-level word was taken last (12 R246); `free` numbers the free values (log entry 7). -/
structure State where
  cid : CtxId := ⟨0, false⟩
  cx : Ctx := {}
  others : Tab Ctx := []
  cores : Tab CoreSt := []
  clusters : Tab Cluster := []
  dies : Tab Die := []
  mem : Memory := []
  regions : List Region := []
  kernels : List Kernel := []
  fabric : Fabric := {}
  seqs : List (EntryId × Entry) := []
  packets : List Packet2 := []
  migrations : List Migration := []
  repWrites : List RepWrite := []
  repPages : Cells 8 := []
  fw : Firm := {}
  now : Nat := 0
  oracle : List (Nat × Instr) := []
  commands : List (Nat × Cmd) := []
  auto : Bool := true
  turn : W32 := 0
  todo : List Due := []
  free : Nat := 1
  deriving DecidableEq, Repr

/-- No step of this machine stops with a fault: every exception of the spec is taken (16 R314), so the type has no value. -/
inductive Fault
  deriving DecidableEq, Repr

/-- Why an instruction has no meaning. -/
inductive Refusal
  /-- Raised by an arm of exec whose instruction has no meaning yet; safe: nothing is claimed of it. -/
  | notModelled (mnemonic : String)
  deriving DecidableEq, Repr

/-- Right after a package cold reset has cleared everything (19 R363): no context, no region, memory with nothing listed, boot at step 1 (15 R310). -/
def State.reset : State := {}

end Sys2Proof.Machine
end

