-- ==== Sys2Proof/Machine/Ops.lean ====
section
/-! DEFINITION. The named operations over sparse memories, register files, contexts, clusters and regions; translation; the trace buffer;
taking a trap and returning from one. -/

namespace Sys2Proof.Machine

/-! ### Sparse memories -/

/-- What an unlisted cell reads as (15 R299, R308; log entry 6). -/
def unlisted (w : Nat) : BitVec w := 0

/-- The cell with number `i`. -/
def cellGet {w : Nat} : Cells w → Nat → BitVec w
  | [], _ => unlisted w
  | (k, x) :: t, i => if k = i then x else cellGet t i

/-- The cells of a block that starts at `base`, without those that equal an unlisted cell. -/
def cellBlock {w : Nat} : Nat → List (BitVec w) → Cells w
  | _, [] => []
  | base, x :: t => if x = unlisted w then cellBlock (base + 1) t else (base, x) :: cellBlock (base + 1) t

/-- Writes a block of consecutive cells. -/
def cellBlit {w : Nat} (c : Cells w) (base : Nat) (l : List (BitVec w)) : Cells w :=
  (c.filter fun p => decide (p.1 < base)) ++ cellBlock base l ++ c.filter fun p => decide (base + l.length ≤ p.1)

/-- Writes one cell. -/
def cellSet {w : Nat} (c : Cells w) (i : Nat) (x : BitVec w) : Cells w := cellBlit c i [x]

/-- Reads `n` consecutive cells. -/
def cellRead {w : Nat} (c : Cells w) (base : Nat) : Nat → List (BitVec w)
  | 0 => []
  | n + 1 => cellGet c base :: cellRead c (base + 1) n

/-- The canonical form: numbers strictly rising, and no cell equal to an unlisted one. -/
abbrev Memory.wf {w : Nat} (c : Cells w) : Prop :=
  c.Pairwise (fun a b => a.1 < b.1) ∧ ∀ p ∈ c, p.2 ≠ unlisted w

/-- The entry with number `i` of a table, or the default. -/
def tabGet {α : Type} (d : α) : Tab α → Nat → α
  | [], _ => d
  | (k, x) :: t, i => if k = i then x else tabGet d t i

/-- Writes one entry of a table, numbers rising. -/
def tabSet {α : Type} (c : Tab α) (i : Nat) (x : α) : Tab α :=
  (c.filter fun p => decide (p.1 < i)) ++ (i, x) :: c.filter fun p => decide (i < p.1)

/-- A list with `a` at its place. -/
def insertBy {α : Type} (le : α → α → Bool) (a : α) : List α → List α
  | [] => [a]
  | b :: l => if le a b then a :: b :: l else b :: insertBy le a l
/-- The list in the order of `le`; entries of one place keep their order. -/
def sortBy {α : Type} (le : α → α → Bool) (l : List α) : List α := l.foldr (insertBy le) []

/-- Little-endian value of bytes (R5). -/
def leNat : List Byte → Nat
  | [] => 0
  | x :: t => x.toNat + 256 * leNat t

/-- The `n` low bytes of a value, little-endian (R5). -/
def leBytes : Nat → Nat → List Byte
  | 0, _ => []
  | n + 1, v => .ofNat 8 v :: leBytes n (v / 256)

/-- Signed value of the low `n` bits of a number. -/
def signed (n v : Nat) : Int := (BitVec.ofNat n v).toInt

/-! ### Trap causes (16 R314) -/

/-- A trap: cause code, fault value, channel of a failed transfer (16 R315), the failure it removes (10 R212), the rows fetched by a faulting
beat (06 R140). -/
structure Trap where
  code : Byte
  val : W64 := 0
  chan : Option Side := none
  slot : Option Nat := none
  dropFail : Option (Side × W32) := none
  staged : Option (Staging × Nat) := none
  deriving DecidableEq, Repr

/-- Why an issue is held: an absent unit of its own context or of another (16 R323), a receive (10 R220), an item of the scoreboard (12 R253), a late reply, a bank port
(03 R42), a wheel position (09 R187), a read for its replica's horizon with its address (09 R177). -/
inductive HoldOn
  | absent (unit : Nat) | absentOf (ctx unit : Nat) | recv (entry : Nat) | item | late | port (n : Nat) | wheel | horizon (va : Nat)
  deriving DecidableEq, Repr

/-- What ends an issue without its effect. -/
inductive Stop
  | trap (t : Trap)
  | hold (h : HoldOn)
  deriving DecidableEq, Repr

/-- The result of an issue or of a part of one. -/
abbrev Res := Except Stop State

def illegalOpcode : Byte := 0x01
def illegalBank : Byte := 0x02
def illegalPort : Byte := 0x03
def illegalForm : Byte := 0x04
def dualWriteCode : Byte := 0x05
def undersized : Byte := 0x06
def fetchFault : Byte := 0x08
def pageFault : Byte := 0x09
def permission : Byte := 0x0A
def formatMismatch : Byte := 0x0B
def misaligned : Byte := 0x0C
def scratchRange : Byte := 0x0D
def timingFault : Byte := 0x10
def peerFault : Byte := 0x11
def streamBroken : Byte := 0x12
def remoteNack : Byte := 0x13
def brakeTimeoutCode : Byte := 0x18
def restoreUnreachableCode : Byte := 0x19
def saveFailedCode : Byte := 0x1A
def watchCode : Byte := 0x20
def debugStopCode : Byte := 0x21
def trapCode : Byte := 0x28
def eccUncorrected : Byte := 0x30
def childFaultCode : Byte := 0x31
def progressTimeoutCode : Byte := 0x32

/-- Stops an issue with a trap. -/
def trapWith {α : Type} (code : Byte) (val : Nat := 0) : Except Stop α := .error (.trap { code := code, val := .ofNat 64 val })

/-- A check that traps where it fails. -/
def must (ok : Bool) (code : Byte) (val : Nat := 0) : Except Stop Unit := if ok then .ok () else trapWith code val

/-! ### Places -/

/-- Number of a context slot. -/
def ctxNum (c : CtxId) : Nat := 2 * c.core.toNat + (if c.sec then 1 else 0)
/-- Cluster of a core number. -/
def clusterOfCore (core : Nat) : Nat := core / 8
/-- Cluster of a context. -/
def ctxCl (c : CtxId) : Nat := c.core.toNat / 8
/-- Die of a context. -/
def ctxDie (c : CtxId) : Nat := c.core.toNat / 32
/-- Context slot of a core. -/
def mkCtx (core : Nat) (sec : Bool) : CtxId := ⟨.ofNat 8 core, sec⟩

/-- A context by its slot. -/
def getCtx (s : State) (c : CtxId) : Ctx := if c = s.cid then s.cx else tabGet {} s.others (ctxNum c)
/-- Replaces a context. -/
def setCtx (s : State) (c : CtxId) (x : Ctx) : State :=
  if c = s.cid then { s with cx := x } else { s with others := tabSet s.others (ctxNum c) x }
/-- Changes a context. -/
def modCtx (s : State) (c : CtxId) (f : Ctx → Ctx) : State := setCtx s c (f (getCtx s c))
/-- Makes `c` the context that issues. -/
def focus (s : State) (c : CtxId) : State :=
  if c = s.cid then s else { s with cid := c, cx := tabGet {} s.others (ctxNum c), others := tabSet s.others (ctxNum s.cid) s.cx }

def getCore (s : State) (k : Nat) : CoreSt := tabGet {} s.cores k
def modCore (s : State) (k : Nat) (f : CoreSt → CoreSt) : State := { s with cores := tabSet s.cores k (f (getCore s k)) }
def getCl (s : State) (k : Nat) : Cluster := tabGet {} s.clusters k
def modCl (s : State) (k : Nat) (f : Cluster → Cluster) : State := { s with clusters := tabSet s.clusters k (f (getCl s k)) }
def getDie (s : State) (k : Nat) : Die := tabGet {} s.dies k
def modDie (s : State) (k : Nat) (f : Die → Die) : State := { s with dies := tabSet s.dies k (f (getDie s k)) }

/-- The role of a context slot (12 R250): primary when its core's primary slot is this one. -/
def isPrim (s : State) (c : CtxId) : Bool := (getCore s c.core.toNat).prim == c.sec
/-- The other slot of the core. -/
def otherSlot (c : CtxId) : CtxId := ⟨c.core, !c.sec⟩
/-- The primary context slot of a core. -/
def primOf (s : State) (core : Nat) : CtxId := mkCtx core (getCore s core).prim
/-- Context slots of a cluster: per core the primary, then the secondary. -/
def ctxsOf (s : State) (cl : Nat) : List CtxId :=
  (List.range 8).flatMap fun k => [primOf s (8 * cl + k), otherSlot (primOf s (8 * cl + k))]

/-- The global tick count (01 R14, R4): 10 ticks are 19 periods. -/
def tick (s : State) : Nat := 10 * s.now / 19
/-- Wheel position (09 R187). -/
def wheel (s : State) : Nat := s.now % 1024

/-- The clock in which a context counts (01 R21, 12 R247): cluster time for a primary's kernel code, wall cycles otherwise. -/
def ownNow (s : State) (c : CtxId) : Nat :=
  bif isPrim s c && !(getCtx s c).mon.active then (getCl s (ctxCl c)).ctime else (getCl s (ctxCl c)).wall

/-! ### Register files (03 R45) -/

/-- An s register; s0 reads zero. -/
def sGet (r : Regs) (n : Nat) : W64 := if n = 0 then 0 else cellGet r.s n
/-- Writes an s register; a write of s0 is discarded. -/
def sSet (r : Regs) (n : Nat) (x : W64) : Regs := if n = 0 then r else { r with s := cellSet r.s n x }
/-- A guard; g0 is true. -/
def gGet (r : Regs) (n : Nat) : Bool := n == 0 || r.g.getLsbD n
/-- Bit `k` of a word set to `v`. -/
def setBit {w : Nat} (x : BitVec w) (k : Nat) (v : Bool) : BitVec w :=
  if v then x ||| BitVec.twoPow w k else x &&& ~~~(BitVec.twoPow w k)
/-- Writes a guard; a write of g0 is discarded. -/
def gSet (r : Regs) (n : Nat) (v : Bool) : Regs := if n = 0 then r else { r with g := setBit r.g n v }
/-- A stage predicate. -/
def qGet (r : Regs) (n : Nat) : Bool := r.q.getLsbD n
/-- A base register. -/
def bGet (r : Regs) (n : Nat) : W32 := cellGet r.b n
/-- Writes a base register. -/
def bSet (r : Regs) (n : Nat) (x : W32) : Regs := { r with b := cellSet r.b n x }
/-- A loop register. -/
def loopGet (r : Regs) (n : Nat) : Loop := (r.loops[n]?).getD {}
/-- Writes a loop register. -/
def loopSet (r : Regs) (n : Nat) (l : Loop) : Regs := { r with loops := r.loops.setIfInBounds n l }
/-- A register of d (C0) or e (C1). -/
def deGet (r : Regs) (ch : Side) (n : Nat) : W64 :=
  match ch with
  | .a => cellGet r.d n
  | .b => cellGet r.e n
/-- Writes a register of d or e. -/
def deSet (r : Regs) (ch : Side) (n : Nat) (x : W64) : Regs :=
  match ch with
  | .a => { r with d := cellSet r.d n x }
  | .b => { r with e := cellSet r.e n x }

/-- A vector file of a context. -/
def vfile (x : Ctx) (sd : Side) : VFile :=
  match sd with
  | .a => x.va
  | .b => x.vb
/-- Replaces a vector file. -/
def setVFile (x : Ctx) (sd : Side) (f : VFile) : Ctx :=
  match sd with
  | .a => { x with va := f }
  | .b => { x with vb := f }
/-- The physical register that a name stands for (05 R107). -/
def phys (f : VFile) (n : Nat) : Nat :=
  if f.base.toNat = 0 ∨ n < f.base.toNat then n
  else f.base.toNat + (n - f.base.toNat + (2048 - f.base.toNat) - f.rot.toNat) % (2048 - f.base.toNat)
/-- The value of a register that nothing has written: free after a kernel start (13 R284). -/
def rowDefault (f : VFile) (sd : Side) (n : Nat) : VRow := if f.seed = 0 then 0 else Config.freeRow f.seed (sd == .b) n
/-- A physical vector register. -/
def rowGet (x : Ctx) (sd : Side) (p : Nat) : VRow := tabGet (rowDefault (vfile x sd) sd p) (vfile x sd).rows p
/-- Writes a physical vector register. -/
def rowSet (x : Ctx) (sd : Side) (p : Nat) (v : VRow) : Ctx := setVFile x sd { vfile x sd with rows := tabSet (vfile x sd).rows p v }
/-- A mask register (05 R132). -/
def maskGet (x : Ctx) (sd : Side) (n : Nat) : W64 :=
  tabGet (if (vfile x sd).seed = 0 then 0 else Config.freeMask (vfile x sd).seed (sd == .b) n) (vfile x sd).masks n
/-- Writes a mask register. -/
def maskSet (x : Ctx) (sd : Side) (n : Nat) (v : W64) : Ctx := setVFile x sd { vfile x sd with masks := tabSet (vfile x sd).masks n v }
/-- A row of 128 accumulator cells. -/
def accGet (x : Ctx) (t r : Nat) : ARow :=
  tabGet (if x.m.seed = 0 then 0 else Config.freeAcc x.m.seed (128 * t + r)) x.m.acc (128 * t + r)
/-- Writes a row of accumulator cells. -/
def accSet (x : Ctx) (t r : Nat) (v : ARow) : Ctx := { x with m := { x.m with acc := tabSet x.m.acc (128 * t + r) v } }
/-- A tile's state. -/
def tileGet (m : Mat) (t : Nat) : Tile := if t = 0 then m.t0 else m.t1
/-- Writes a tile's state. -/
def tileSet (m : Mat) (t : Nat) (v : Tile) : Mat := if t = 0 then { m with t0 := v } else { m with t1 := v }

/-- Field `i` of `n` equal fields of `w` bits. -/
def lane (w : Nat) {n : Nat} (x : BitVec n) (i : Nat) : BitVec w := x.extractLsb' (w * i) w
/-- A row built from its fields, field 0 lowest. -/
def ofLanes (w n : Nat) (f : Nat → BitVec w) (k : Nat) : BitVec n :=
  .ofNat n (go k 0)
where
  /-- The value of the first fields from field `i`. -/
  go : Nat → Nat → Nat
    | 0, _ => 0
    | k + 1, i => (f i).toNat + 2 ^ w * go k (i + 1)

/-- Bytes of a row. -/
def rowBytes {n : Nat} (x : BitVec n) (k : Nat) : List Byte := leBytes k x.toNat

/-! ### The context that issues -/

/-- Replaces the register part of the issuing context. -/
def putR (s : State) (r : Regs) : State := { s with cx := { s.cx with r := r } }
/-- Replaces the run control of the issuing context. -/
def putRun (s : State) (r : Run) : State := { s with cx := { s.cx with run := r } }
/-- Writes an s register of the issuing context. -/
def wrS (s : State) (n : BitVec 6) (x : W64) : State := putR s (sSet s.cx.r n.toNat x)
/-- Writes a guard of the issuing context. -/
def wrG (s : State) (n : BitVec 6) (v : Bool) : State := putR s (gSet s.cx.r n.toNat v)

/-! ### Units (16 R317) -/

/-- Scratchpad units of `n` bytes from offset `a`. -/
def scrUnits (a n : Nat) : List Nat := if n = 0 then [] else (List.range ((a + n - 1) / 4096 + 1 - a / 4096)).map (· + a / 4096)
/-- Unit of a vector register. -/
def vUnit (sd : Side) (p : Nat) : Nat := (match sd with | .a => 512 | .b => 640) + p / 16
/-- Unit of a tile's row. -/
def accUnit (t r : Nat) : Nat := 768 + 16 * t + r / 8

/-- A touch of units by a slot: outside the footprint it traps with PERMISSION, an absent unit holds the issue (16 R317, R323). -/
def touchCheck (x : Ctx) : List Nat → Except Stop Unit
  | [] => .ok ()
  | u :: t =>
    if !(x.prog.footprint.contains u) then trapWith permission u
    else if x.prog.absent.contains u then .error (.hold (.absent u))
    else touchCheck x t
/-- Recency stamps of touched units (16 R317). -/
def stamp (x : Ctx) (time : Nat) : List Nat → Ctx
  | [] => x
  | u :: t => stamp { x with prog := { x.prog with recency := cellSet x.prog.recency u (.ofNat 64 (time + 1)) } } time t
/-- A touch by the issuing context. -/
def touch (s : State) (us : List Nat) : Res := do
  touchCheck s.cx us
  .ok { s with cx := stamp s.cx (getCl s (ctxCl s.cid)).ctime us }

/-! ### Regions (12 R241, R242) -/

/-- A region by its number. -/
def findRegion (s : State) (id : W32) : Option Region := s.regions.find? fun r => r.id == id
/-- Changes a region. -/
def modRegion (s : State) (id : W32) (f : Region → Region) : State :=
  { s with regions := s.regions.map fun r => if r.id = id then f r else r }
/-- `n` bytes of a control block from byte `off`. -/
def blkField (b : BitVec 2048) (off n : Nat) : Nat := bits b.toNat (8 * off) (8 * n)
/-- A record from its bytes as (value, bytes) fields in order. -/
def packFields : List (Nat × Nat) → Nat
  | [] => 0
  | (v, n) :: t => v % 2 ^ (8 * n) + 2 ^ (8 * n) * packFields t
/-- The nearest block on the path to region 0 that sets override bit `bit`. -/
def treeBlock (s : State) (bit : Nat) : Nat → W32 → Option Region
  | 0, _ => none
  | fuel + 1, id =>
    match findRegion s id with
    | none => none
    | some r =>
      if bitAt (blkField r.blk 8 8) bit then some r
      else match r.parent with
        | none => some r
        | some p => treeBlock s bit fuel p
/-- The effective value of a field in the tree as it is installed (R242). -/
def treeEff (s : State) (id : W32) (bit off n : Nat) : Nat :=
  match treeBlock s bit (s.regions.length + 1) id with
  | none => 0
  | some r => blkField r.blk off n
/-- The effective value of a field for a region's work: as its word accepted last found it, before the first one as the tree has it (R242; log entry
100). -/
def eff (s : State) (id : W32) (bit off n : Nat) : Nat :=
  match (findRegion s id).bind (·.inForce) with
  | some b => blkField b off n
  | none => treeEff s id bit off n
def effTenant (s : State) (id : W32) : Nat := eff s id 0 0x14 2
def effKey (s : State) (id : W32) : Nat := eff s id 1 0x16 2 % 1024
def effPrio (s : State) (id : W32) : Nat := eff s id 2 0x18 1 % 8
def effClusters (s : State) (id : W32) : Nat := eff s id 5 0x1C 4
def effPtroot (s : State) (id : W32) : Nat := eff s id 12 0x40 8
def effPeertable (s : State) (id : W32) : Nat := eff s id 11 0x38 8
def effMonitor (s : State) (id : W32) : Nat := eff s id 18 0x68 8
def effStrict (s : State) (id : W32) : Bool := bitAt (eff s id 4 0x19 1) 1
def effStarve (s : State) (id : W32) : Nat := eff s id 14 0x4C 4
def effYield (s : State) (id : W32) : Nat := eff s id 15 0x50 4
def effTimeout (s : State) (id : W32) : Nat := eff s id 13 0x48 4
def effBrakewd (s : State) (id : W32) : Nat := eff s id 16 0x54 1
/-- A block with every field at its effective value, and the region's own override bits (R241, R242). -/
def flatBlock (s : State) (id : W32) : BitVec 2048 :=
  match findRegion s id with
  | none => 0
  | some r =>
    let f := fun (bit off n : Nat) => (treeEff s id bit off n, n)
    .ofNat 2048 (packFields [(blkField r.blk 0 8, 8), (blkField r.blk 8 8, 8), (blkField r.blk 0x10 4, 4), f 0 0x14 2, f 1 0x16 2, f 2 0x18 1,
      (treeEff s id 3 0x19 1 % 2 + treeEff s id 4 0x19 1 / 2 % 2 * 2, 1), (0, 2), f 5 0x1C 4, f 6 0x20 8, f 7 0x28 4, f 8 0x2C 2, f 9 0x2E 2, f 9 0x30 2, f 10 0x32 2,
      f 10 0x34 2, (0, 2), f 11 0x38 8, f 12 0x40 8, f 13 0x48 4, f 14 0x4C 4, f 15 0x50 4, f 16 0x54 1, (0, 3), f 17 0x58 16, f 18 0x68 8, f 19 0x70 8])
/-- Changes to blocks reach a region's work (R242). -/
def takeBlocks (s : State) (id : W32) : State := modRegion s id fun r => { r with inForce := some (flatBlock s id) }
/-- The state with every block in force as it is installed, which host commands go by. -/
def asInstalled (s : State) : State := { s with regions := s.regions.map fun r => { r with inForce := none } }
/-- The state with the block in force that a context started with (R242). -/
def started (s : State) (x : Ctx) : State :=
  match x.prog.blk with
  | none => s
  | some b => modRegion s x.prog.region fun r => { r with inForce := some b }
/-- An effective value for a resident context. -/
def forCtx {α : Type} (f : State → W32 → α) (s : State) (x : Ctx) : α := f (started s x) x.prog.region
/-- The fault domain of a region (12 R244). -/
def faultDomain (s : State) (id : W32) : Nat → W32
  | 0 => id
  | fuel + 1 =>
    if bitAt (eff s id 3 0x19 1) 0 then id
    else match findRegion s id with
      | none => id
      | some r => match r.parent with
        | none => id
        | some p => if p = 0 then id else faultDomain s p fuel

/-! ### Translation (15 R301-R303) -/

/-- What an access needs: read, write, atomic, through an export window. -/
structure Need where
  r : Bool := false
  w : Bool := false
  a : Bool := false
  ex : Bool := false
  deriving DecidableEq, Repr

/-- Index of an address at a level. -/
def ptIndex (lvl va : Nat) : Nat :=
  match lvl with
  | 4 => 512 * bits va 60 3 + bits va 48 9
  | 3 => bits va 39 9
  | 2 => bits va 30 9
  | 1 => bits va 21 9
  | _ => bits va 16 5
/-- Page size of a leaf at a level. -/
def pageSize (lvl : Nat) : Nat := if lvl = 2 then 2 ^ 30 else if lvl = 1 then 2 ^ 21 else 2 ^ 16
/-- The walk: leaf entry and its level, or none for PAGE_FAULT. -/
def walk (m : Memory) (va : Nat) : Nat → Nat → Option (Nat × Nat)
  | 0, _ => none
  | fuel + 1, t =>
    let lvl := fuel
    let e := leNat (cellRead m (t + 8 * ptIndex lvl va) 8)
    if !(bitAt e 0) then none
    else if bitAt e 1 then
      if 2 < lvl ∨ bits e 62 2 ≠ 0 ∨ bits e 39 13 ≠ 0 ∨ bitAt e 7 ∨ e / 2 ^ 16 % 2 ^ 23 * 2 ^ 16 % pageSize lvl ≠ 0 then none else some (e, lvl)
    else if bits e 39 25 ≠ 0 ∨ bits e 2 6 ≠ 0 ∨ lvl = 0 then none
    else walk m va fuel (bits e 8 31 * 256)
/-- A translated page: physical address of the byte, format byte, page size, exported, host right. -/
structure Xlat where
  pa : Nat
  fmt : Byte
  size : Nat
  deriving DecidableEq, Repr
/-- Translation with its checks: a main-memory address of a region (R301-R303). -/
def translate (s : State) (region : W32) (va : Nat) (need : Need) : Except Byte Xlat :=
  if bits va 57 3 ≠ 0 ∨ bitAt va 63 then .error pageFault
  else if effPtroot s region = 0 then .error pageFault
  else match walk s.mem va 5 (effPtroot s region) with
    | none => .error pageFault
    | some (e, lvl) =>
      if (need.r && !(bitAt e 2)) || (need.w && !(bitAt e 3)) || (need.a && !(bitAt e 4)) || (need.ex && !(bitAt e 5)) then .error permission
      else if bits e 52 10 ≠ effKey s region then .error permission
      else .ok { pa := bits e 16 23 * 2 ^ 16 + va % pageSize lvl, fmt := .ofNat 8 (e / 256), size := pageSize lvl }
/-- Die of a physical address. -/
def paDie (pa : Nat) : Nat := bits pa 36 3

/-! ### Main memory with migration (09 R190) -/

/-- Mirrors a write into the copies of a migrating page before its cutover. -/
def migrate (ms : List Migration) (m : Memory) (pa : Nat) (l : List Byte) : Memory :=
  ms.foldl (fun m g => if g.old ≤ pa ∧ pa < g.old + g.size then cellBlit m (g.new + (pa - g.old)) l else m) m
/-- Writes bytes at a physical address. -/
def writePa (s : State) (pa : Nat) (l : List Byte) : State := { s with mem := migrate s.migrations (cellBlit s.mem pa l) pa l }
/-- Reads bytes at a physical address. -/
def readPa (s : State) (pa n : Nat) : List Byte := cellRead s.mem pa n

/-- Splits [va, va + n) at 4 KiB boundaries. -/
def chunks : Nat → Nat → Nat → List (Nat × Nat)
  | 0, _, _ => []
  | fuel + 1, va, n =>
    if n = 0 then [] else
      let k := min n (4096 - va % 4096)
      (va, k) :: chunks fuel (va + k) (n - k)
/-- 4 KiB pieces of a range. -/
def pieces (va n : Nat) : List (Nat × Nat) := chunks (n / 4096 + 2) va n

/-- Reads bytes of a region's main memory; a failed translation is its status. -/
def readVa (s : State) (region : W32) (va n : Nat) : Except Byte (List Byte) :=
  (pieces va n).foldlM (fun acc p => do
    let t ← translate s region p.1 { r := true }
    .ok (acc ++ readPa s t.pa p.2)) []
/-- Writes bytes of a region's main memory. -/
def writeVa (s : State) (region : W32) (va : Nat) (l : List Byte) : Except Byte State := do
  let r ← (pieces va l.length).foldlM (fun (acc : State × List Byte) p => do
    let t ← translate s region p.1 { w := true }
    .ok (writePa acc.1 t.pa (acc.2.take p.2), acc.2.drop p.2)) (s, l)
  .ok r.1

/-! ### Trace records (18 R336-R340) -/

/-- The current loop of a context (R338): of the active loops the one started last. -/
def currentLoop (r : Regs) : Option (Nat × Loop) :=
  (List.range 4).foldl (fun best k =>
    let l := loopGet r k
    if l.active then
      match best with
      | some (_, b) => if b.seq < l.seq then some (k, l) else best
      | none => some (k, l)
    else best) none
def trLoop (r : Regs) : Nat :=
  match currentLoop r with
  | some (k, _) => 128 + k
  | none => 0
def trIter (r : Regs) : Nat :=
  match currentLoop r with
  | some (_, l) => l.iter
  | none => 0
/-- tr.where of a context. -/
def trWhere (s : State) (c : CtxId) : Nat :=
  ctxDie c + 16 * ((ctxCl c) % 4) + 64 * (c.core.toNat % 8) + (if isPrim s c then 0 else 512)
/-- tr.bundle. -/
def trBundle (pc : W32) (rpt slot : Nat) : Nat := pc.toNat % 2 ^ 18 + 2 ^ 18 * (rpt % 16) + 2 ^ 22 * (slot % 8)
/-- tr.delta of the present cycle. -/
def trDelta (s : State) (cl : Nat) : Nat := (getCl s cl).wall - (getCl s cl).segCycle
/-- A cluster keeps a record; with 64 kept already the record is dropped and counted (R337). -/
def keepRecord (s : State) (cl : Nat) (region : W32) (rec : Nat) : State :=
  if (getCl s cl).trace.length < 64 then modCl s cl fun x => { x with trace := x.trace ++ [(region, .ofNat 256 rec)] }
  else modRegion s region fun r => { r with tbLost := r.tbLost + 1 }

/-! ### Taking a trap and returning from one (13 R289, 16 R315) -/

/-- Exchanges s48-s63 and the sticky records with the monitor's bank. -/
def exchangeBank (x : Ctx) : Ctx :=
  let old := (List.range 16).map fun k => sGet x.r (48 + k)
  let new := (List.range 16).map fun k => (x.mon.bank[k]?).getD 0
  { x with
    r := { x.r with s := cellBlit x.r.s 48 new }
    mon := { x.mon with bank := .ofFn fun i => (old[i.val]?).getD 0, bankSticky := x.ctl.sticky }
    ctl := { x.ctl with sticky := x.mon.bankSticky } }

/-- %mcause of a trap (13 R292). -/
def causeWord (t : Trap) (slot : Nat) (sec : Bool) : BitVec 13 :=
  .ofNat 13 (t.code.toNat + 256 * (slot % 8) + (if t.chan = some .b then 2048 else 0) + (if sec then 4096 else 0))

/-- Entering the monitor from kernel code at bundle `pc`, repetition `rpt`: the trap record is set, the banks exchanged, the pc goes to
0x3_C000 and the slot to MONITOR (13 R289). -/
def enterMonitor (s : State) (c : CtxId) (t : Trap) (slot : Nat) (pc : W32) (rpt : BitVec 4) : State :=
  let x := exchangeBank (getCtx s c)
  let x := { x with
    mon := { x.mon with
      mcause := causeWord t slot (!(isPrim s c)), mepc := .ofNat 18 pc.toNat, mrpt := rpt, mtval := t.val, active := true }
    r := { x.r with pc := 0x3C000 }
    ctl := { x.ctl with rptidx := 0 }
    run := { x.run with state := .monitor, hold := none, last := (getCl s (ctxCl c)).wall, gap := 0, timing := none, post := none } }
  setCtx s c x

/-- A fault of the monitor itself, or `esc`: the cause is put before the firmware error core and the context waits (13 R288, R289). -/
def escalate (s : State) (c : CtxId) (t : Option Trap) (slot : Nat) (sreg : BitVec 6) : State :=
  let x := getCtx s c
  let m := match t with
    | some t => { x.mon with mcause := causeWord t slot (!(isPrim s c)), mtval := t.val, mepc := .ofNat 18 x.r.pc.toNat, mrpt := x.ctl.rptidx }
    | none => x.mon
  let s := setCtx s c { x with mon := { m with esc := true }, run := { x.run with hold := some (.esc sreg t.isSome), post := none } }
  { s with fw := { s.fw with escLog := s.fw.escLog ++ [(.ofNat 64 m.mcause.toNat, .ofNat 64 m.mepc.toNat, m.mtval, sGet x.r sreg.toNat)] } }

/-- Removes a reported failure from its channel's list (10 R212). -/
def dropFailure (x : Ctx) (f : Option (Side × W32)) : Ctx :=
  match f with
  | none => x
  | some (.a, t) => { x with con := { x.con with c0 := { x.con.c0 with fails := x.con.c0.fails.filter fun p => p.1 != t } } }
  | some (.b, t) => { x with con := { x.con with c1 := { x.con.c1 with fails := x.con.c1.fails.filter fun p => p.1 != t } } }

/-- Records the rows that a faulting beat has fetched (06 R140). -/
def keepStaging (x : Ctx) (g : Option (Staging × Nat)) : Ctx :=
  match g with
  | none => x
  | some (st, row) => { x with m := { x.m with staging := st, rowprog := .ofNat 9 (256 + row) } }

/-- Takes a trap of the context's present bundle: into its monitor, or, in the monitor already, as an escalation (13 R289, 16 R315). -/
def takeTrap (s : State) (c : CtxId) (t : Trap) : State :=
  let s := modCtx s c fun x => keepStaging (dropFailure x t.dropFail) t.staged
  let x := getCtx s c
  if x.mon.active then escalate s c (some t) (t.slot.getD 0) 0
  else enterMonitor s c t (t.slot.getD 0) x.r.pc x.ctl.rptidx

/-- The return of `mret`: banks exchanged back, pc and repetition from %mepc and %mrpt, slot RUN (13 R289); a K write issued before counts
as 6 scheduled cycles old from here on (06 R143). -/
def monitorReturn (s : State) (c : CtxId) : State :=
  let x := exchangeBank (getCtx s c)
  let x := { x with
    mon := { x.mon with active := false }
    r := { x.r with pc := .ofNat 32 (x.mon.mepc.toNat / 4 * 4) }
    ctl := { x.ctl with rptidx := x.mon.mrpt }
    run := { x.run with state := .run, kSched := .replicate 4 none, post := none } }
  let s := setCtx s c x
  modCtx s c fun x => { x with run := { x.run with last := ownNow s c, gap := 0 } }

end Sys2Proof.Machine
end

