-- ==== Sys2Proof/Machine/Flags.lean ====
section
/-! DEFINITION. Floating formats (04 R71), rounding with its flags (R72-R75), exact sums and products, integer conversions (R69), quotients and
roots, the wide accumulator's addition (R80) and drains (R84). -/

namespace Sys2Proof.Machine

/-- %fflags bits (04 R75). -/
def flagNV : BitVec 5 := 16
def flagDZ : BitVec 5 := 8
def flagOF : BitVec 5 := 4
def flagUF : BitVec 5 := 2
def flagNX : BitVec 5 := 1

/-- A floating format (R71): precision with the leading 1, exponent of the last place of the subnormals, largest finite value as maxM × 2^maxE,
width, infinity code if any, canonical NaN, whether conversions to it saturate (R73). -/
structure Fmt where
  p : Nat
  emin : Int
  maxM : Nat
  maxE : Int
  w : Nat
  hasInf : Bool
  nan : Nat
  sat : Bool
  deriving DecidableEq, Repr

def fp32 : Fmt := ⟨24, -149, 2 ^ 24 - 1, 104, 32, true, 0x7FC00000, false⟩
def fp16 : Fmt := ⟨11, -24, 2 ^ 11 - 1, 5, 16, true, 0x7E00, false⟩
def bf16 : Fmt := ⟨8, -133, 2 ^ 8 - 1, 120, 16, true, 0x7FC0, false⟩
def e4m3 : Fmt := ⟨4, -9, 14, 5, 8, false, 0x7F, true⟩
def e5m2 : Fmt := ⟨3, -16, 7, 13, 8, true, 0x7E, true⟩

/-- A decoded element: not a number, an infinity, or ± m × 2^e. -/
inductive FV
  | nan
  | inf (neg : Bool)
  | fin (neg : Bool) (m : Nat) (e : Int)
  deriving DecidableEq, Repr

/-- Decodes an element (R71). -/
def fdec (f : Fmt) (x : Nat) : FV :=
  let neg := bitAt x (f.w - 1)
  let frac := x % 2 ^ (f.p - 1)
  let ebits := f.w - f.p
  let ex := x / 2 ^ (f.p - 1) % 2 ^ ebits
  if ex = 2 ^ ebits - 1 ∧ f.hasInf then (if frac = 0 then .inf neg else .nan)
  else if ex = 2 ^ ebits - 1 ∧ frac = 2 ^ (f.p - 1) - 1 then .nan
  else if ex = 0 then .fin neg frac f.emin
  else .fin neg (2 ^ (f.p - 1) + frac) (f.emin + ex - 1)

/-- A magnitude known to be m × 2^e exactly, or to lie strictly between m and m + 1 times 2^e. -/
structure Appr where
  m : Nat
  e : Int
  more : Bool
  deriving DecidableEq, Repr

/-- Bits of a number. -/
def bitLen (n : Nat) : Nat := if n = 0 then 0 else Nat.log2 n + 1

/-- Whether a truncated magnitude `t` with the rest `rem` of 2^s moves one place away from zero (R73, R74). -/
def roundsUp (rm u : Nat) (neg : Bool) (t rem s : Nat) (more : Bool) : Bool :=
  let inexact := rem ≠ 0 ∨ more
  match rm with
  | 0 => decide (2 ^ s < 2 * rem) || (decide (2 * rem = 2 ^ s) && (more || t % 2 == 1))
  | 1 => false
  | 2 => neg && decide inexact
  | 3 => !neg && decide inexact
  | _ => decide (u < 2 ^ 24 * rem / 2 ^ s)

/-- Truncation of a magnitude to units of 2^q: quotient, rest, shift. -/
def truncAt (a : Appr) (q : Int) : Nat × Nat × Nat :=
  if q ≤ a.e then (a.m * 2 ^ (a.e - q).toNat, 0, 0)
  else (a.m / 2 ^ (q - a.e).toNat, a.m % 2 ^ (q - a.e).toNat, (q - a.e).toNat)

/-- r × 2^q > m × 2^e. -/
def above (r : Nat) (q : Int) (m : Nat) (e : Int) : Bool :=
  if q ≤ e then decide (m * 2 ^ (e - q).toNat < r) else decide (m < r * 2 ^ (q - e).toNat)

/-- The bits of ± r × 2^q, which the format represents. -/
def fenc (f : Fmt) (neg : Bool) (r : Nat) (q : Int) : Nat :=
  let sg := if neg then 2 ^ (f.w - 1) else 0
  if r < 2 ^ (f.p - 1) then sg + r
  else
    let (r, q) := if r = 2 ^ f.p then (2 ^ (f.p - 1), q + 1) else (r, q)
    sg + (q - f.emin + 1).toNat * 2 ^ (f.p - 1) + (r - 2 ^ (f.p - 1))

/-- The code of an infinity, or of the largest finite value where the format has none. -/
def finf (f : Fmt) (neg : Bool) : Nat :=
  if f.hasInf then (if neg then 2 ^ (f.w - 1) else 0) + (2 ^ (f.w - f.p) - 1) * 2 ^ (f.p - 1) else fenc f neg f.maxM f.maxE
/-- The largest finite value. -/
def fmax (f : Fmt) (neg : Bool) : Nat := fenc f neg f.maxM f.maxE

/-- Rounds a positive magnitude once into a format: bits and flags (R73, R74). DESIGN CHOICE (log entry 91): R73 judges tininess after rounding
and does not say how in stochastic mode; the model rounds with the same draw as if the exponent had no bound. -/
def roundAppr (f : Fmt) (rm u : Nat) (neg : Bool) (a : Appr) : Nat × BitVec 5 :=
  let len : Int := (bitLen a.m : Int) + a.e
  let q := max (len - f.p) f.emin
  let (t, rem, s) := truncAt a q
  let r := if roundsUp rm u neg t rem s a.more then t + 1 else t
  let inexact : Bool := decide (rem ≠ 0) || a.more
  if above r q f.maxM f.maxE then
    let bits := if f.sat then fmax f neg
      else match rm with
        | 1 => fmax f neg
        | 2 => if neg then finf f neg else fmax f neg
        | 3 => if neg then fmax f neg else finf f neg
        | _ => finf f neg
    (bits, flagOF ||| flagNX)
  else
    let (t', rem', s') := truncAt a (len - f.p)
    let r' := if roundsUp rm u neg t' rem' s' a.more then t' + 1 else t'
    let lim : Int := f.emin + f.p - 1
    let tiny := decide (len ≤ lim) && !(decide (len = lim) && decide (r' = 2 ^ f.p))
    (fenc f neg r q, if inexact then (if tiny then flagUF ||| flagNX else flagNX) else 0)

/-- Rounds an exact ± m × 2^e, zeros included. -/
def roundFin (f : Fmt) (rm u : Nat) (neg : Bool) (m : Nat) (e : Int) : Nat × BitVec 5 :=
  if m = 0 then (fenc f neg 0 0, 0) else roundAppr f rm u neg { m := m, e := e, more := false }

/-- Delivers a decoded value in a format: NaN canonical, infinities as R73 gives. -/
def fput (f : Fmt) (rm u : Nat) : FV → Nat × BitVec 5
  | .nan => (f.nan, 0)
  | .inf n => (finf f n, if f.hasInf then 0 else flagOF)
  | .fin n m e => roundFin f rm u n m e

/-- The invalid result (R72). -/
def finvalid (f : Fmt) : Nat × BitVec 5 := (f.nan, flagNV)

/-- Signed integer of ± m × 2^e in units of 2^q, q ≤ e. -/
def asUnits (neg : Bool) (m : Nat) (e q : Int) : Int := (if neg then -1 else 1) * (m * 2 ^ (e - q).toNat : Nat)

/-- x + y rounded once; an exact zero sum of opposite signs is +0, −0 in mode down (05 R121). -/
def faddV (f : Fmt) (rm u : Nat) (x y : FV) : Nat × BitVec 5 :=
  match x, y with
  | .nan, _ => (f.nan, 0)
  | _, .nan => (f.nan, 0)
  | .inf a, .inf b => if a = b then (finf f a, 0) else finvalid f
  | .inf a, _ => (finf f a, 0)
  | _, .inf b => (finf f b, 0)
  | .fin na ma ea, .fin nb mb eb =>
    let q := min ea eb
    let t := asUnits na ma ea q + asUnits nb mb eb q
    if t = 0 then (fenc f (if na = nb then na else rm = 2) 0 0, 0)
    else roundFin f rm u (t < 0) t.natAbs q

/-- Sign inversion. -/
def fnegV : FV → FV
  | .nan => .nan
  | .inf a => .inf (!a)
  | .fin a m e => .fin (!a) m e

/-- The exact product; `none` for 0 × ∞ (R72). -/
def fmulV (x y : FV) : Option FV :=
  match x, y with
  | .nan, .nan => some .nan
  | .nan, .inf _ => some .nan
  | .nan, .fin .. => some .nan
  | .inf _, .nan => some .nan
  | .fin .., .nan => some .nan
  | .inf a, .inf b => some (.inf (a != b))
  | .inf a, .fin b m _ => if m = 0 then none else some (.inf (a != b))
  | .fin a m _, .inf b => if m = 0 then none else some (.inf (a != b))
  | .fin a m e, .fin b n g => some (.fin (a != b) (m * n) (e + g))

def fadd (f : Fmt) (rm u x y : Nat) : Nat × BitVec 5 := faddV f rm u (fdec f x) (fdec f y)
def fsub (f : Fmt) (rm u x y : Nat) : Nat × BitVec 5 := faddV f rm u (fdec f x) (fnegV (fdec f y))
def fmul (f : Fmt) (rm u x y : Nat) : Nat × BitVec 5 :=
  match fmulV (fdec f x) (fdec f y) with
  | none => finvalid f
  | some v => fput f rm u v
/-- ± (x × y) ± z with one rounding (05 R121). -/
def ffma (f : Fmt) (negP negC : Bool) (rm u x y z : Nat) : Nat × BitVec 5 :=
  match fmulV (fdec f x) (fdec f y) with
  | none => finvalid f
  | some v => faddV f rm u (if negP then fnegV v else v) (if negC then fnegV (fdec f z) else fdec f z)

/-- Numeric order of two elements that are no NaNs. -/
def fleV (x y : FV) : Bool :=
  match x, y with
  | .nan, _ => false
  | _, .nan => false
  | .inf a, .inf b => a || !b
  | .inf a, .fin .. => a
  | .fin .., .inf b => !b
  | .fin na ma ea, .fin nb mb eb => decide (asUnits na ma ea (min ea eb) ≤ asUnits nb mb eb (min ea eb))
def fisNan (f : Fmt) (x : Nat) : Bool := fdec f x == .nan
def feq (f : Fmt) (x y : Nat) : Bool := fleV (fdec f x) (fdec f y) && fleV (fdec f y) (fdec f x)
def flt (f : Fmt) (x y : Nat) : Bool := fleV (fdec f x) (fdec f y) && !(fleV (fdec f y) (fdec f x))
def fle (f : Fmt) (x y : Nat) : Bool := fleV (fdec f x) (fdec f y)
/-- Sign bit of an element. -/
def fsign (f : Fmt) (x : Nat) : Bool := bitAt x (f.w - 1)
/-- Minimum, −0 below +0, NaN-avoiding, no flags (05 R122). -/
def fmin2 (f : Fmt) (x y : Nat) : Nat :=
  if fisNan f x then (if fisNan f y then f.nan else y)
  else if fisNan f y then x
  else if flt f x y then x else if flt f y x then y else if fsign f x then x else y
/-- Maximum (05 R122). -/
def fmax2 (f : Fmt) (x y : Nat) : Nat :=
  if fisNan f x then (if fisNan f y then f.nan else y)
  else if fisNan f y then x
  else if flt f x y then y else if flt f y x then x else if fsign f x then y else x

/-- Class bits of an FP32 lane (05 R122). -/
def fclass (x : Nat) : Nat :=
  match fdec fp32 x with
  | .nan => 256
  | .inf n => if n then 1 else 128
  | .fin n m _ =>
    if m = 0 then (if n then 8 else 16)
    else if m < 2 ^ 23 then (if n then 4 else 32)
    else if n then 2 else 64

/-- Float to int32, clamping (04 R69). -/
def ftoI32 (rm u x : Nat) : Nat × BitVec 5 :=
  match fdec fp32 x with
  | .nan => (0, flagNV)
  | .inf n => (if n then 0x80000000 else 0x7FFFFFFF, flagNV)
  | .fin n m e =>
    let (t, rem, s) := truncAt { m := m, e := e, more := false } 0
    let r := if roundsUp rm u n t rem s false then t + 1 else t
    if n ∧ 2 ^ 31 < r then (0x80000000, flagNV)
    else if ¬n ∧ 2 ^ 31 ≤ r then (0x7FFFFFFF, flagNV)
    else (if n then (2 ^ 32 - r) % 2 ^ 32 else r, if rem ≠ 0 then flagNX else 0)
/-- int32 to float (05 R128). -/
def ffromI32 (rm u x : Nat) : Nat × BitVec 5 :=
  let v := signed 32 x
  roundFin fp32 rm u (v < 0) v.natAbs 0

/-! ### Quotients and roots -/

/-- Integer square root by digits from bit `k` down. -/
def isqrtGo (n : Nat) : Nat → Nat → Nat
  | 0, r => r
  | k + 1, r => if (r + 2 ^ k) * (r + 2 ^ k) ≤ n then isqrtGo n k (r + 2 ^ k) else isqrtGo n k r
/-- Integer square root. -/
def isqrt (n : Nat) : Nat := isqrtGo n (bitLen n / 2 + 1) 0
/-- num / den × 2^e, den > 0, to at least 80 bits. -/
def ratAppr (num den : Nat) (e : Int) : Appr :=
  let k := 80 + bitLen den
  { m := num * 2 ^ k / den, e := e - k, more := num * 2 ^ k % den != 0 }
/-- √(num / den × 2^(2h)) to at least 80 bits. -/
def sqrtAppr (num den : Nat) (h : Int) : Appr :=
  let k := 80 + bitLen den
  let m := isqrt (num * 2 ^ (2 * k) / den)
  { m := m, e := h - k, more := m * m * den != num * 2 ^ (2 * k) }
/-- An even exponent: m × 2^e as m' × 2^(2h). -/
def evenExp (m : Nat) (e : Int) : Nat × Int := if e % 2 = 0 then (m, e / 2) else (2 * m, (e - 1) / 2)

/-! ### The wide accumulator (04 R79-R85) -/

def satP : Wide := .ofNat 256 (2 ^ 255 - 1)
def satN : Wide := .ofNat 256 (2 ^ 255)
def indet : Wide := .ofNat 256 (2 ^ 255 + 1)
/-- wide_add (R80). -/
def wideAdd (x y : Wide) : Wide :=
  if x = indet ∨ y = indet then indet
  else if (x = satP ∧ y = satN) ∨ (x = satN ∧ y = satP) then indet
  else if x = satP ∨ y = satP then satP
  else if x = satN ∨ y = satN then satN
  else
    let t := x.toInt + y.toInt
    if 2 ^ 255 - 2 < t then satP else if t < -(2 ^ 255 - 2) then satN else .ofInt 256 t
/-- A code that is no finite value. -/
def wideSpecial (x : Wide) : Bool := x == satP || x == satN || x == indet
/-- pair_add (R85). -/
def pairAdd (x y : Wide) : Wide := (lane 128 x 1 + lane 128 y 1) ++ (lane 128 x 0 + lane 128 y 0)
/-- The code a product adds to a cell of unit 2^(a − 136), and whether bits were lost (R81, R82). -/
def productCode (anchored : Bool) (a : Int) (v : Option FV) : Wide × Bool :=
  match v with
  | none => (indet, false)
  | some .nan => (indet, false)
  | some (.inf n) => (if n then satN else satP, false)
  | some (.fin n m e) =>
    let q := if anchored then a - 136 else -136
    let (t, rem, _) := truncAt { m := m, e := e, more := false } q
    if anchored ∧ 2 ^ 255 ≤ t then (if n then satN else satP, false)
    else (.ofInt 256 (if n then -(t : Int) else t), decide (rem ≠ 0))
/-- The drain of a cell into a floating format, once, nearest-even (R84); a zero that comes out of the accumulator is +0, also where a negative
value rounds to it (R72). -/
def drainCell (f : Fmt) (a : Int) (c : Wide) : Nat × BitVec 5 :=
  if c = indet then (f.nan, flagNV)
  else if c = satP then (if f.hasInf then finf f false else fmax f false, flagOF)
  else if c = satN then (if f.hasInf then finf f true else fmax f true, flagOF)
  else if c = 0 then (0, 0)
  else
    let r := roundFin f 0 0 (c.toInt < 0) c.toInt.natAbs (a - 136)
    (if r.1 = fenc f true 0 0 then 0 else r.1, r.2)

/-- ORs flags into %fflags of the issuing context (04 R75). -/
def raiseFlags (s : State) (fl : BitVec 5) : State :=
  if fl = 0 then s else { s with cx := { s.cx with sys := { s.cx.sys with fflags := s.cx.sys.fflags ||| fl } } }

end Sys2Proof.Machine
end

