-- ==== Sys2Proof/Machine/Numeric.lean ====
section
/-! DEFINITION. Correctly rounded special functions (05 R124), phasor tables (04 R87) and resultants (R89) by integer series with an enclosure:
a result is taken at the first precision at which both ends of the enclosure agree on every kept bit. -/

namespace Sys2Proof.Machine

/-- Σ of an odd series: x − x³/3 + x⁵/5 … (alt) or with plus signs, at scale 2^s; `t` is the present power, `xx` the square of x. -/
def oddSeries (alt : Bool) (s xx : Nat) : Nat → Nat → Nat → Int → Int
  | 0, _, _, acc => acc
  | fuel + 1, t, k, acc =>
    if t = 0 then acc else
      let term : Int := (t / (2 * k + 1) : Nat)
      oddSeries alt s xx fuel (t * xx / 2 ^ s) (k + 1) (if alt ∧ k % 2 = 1 then acc - term else acc + term)
/-- atan of num / den (at most 1) at scale 2^s. -/
def atanRat (s num den : Nat) : Int :=
  let x := num * 2 ^ s / den
  oddSeries true s (x * x / 2 ^ s) (s + 2) x 0 0
/-- atanh of num / den (at most 1/3) at scale 2^s. -/
def atanhRat (s num den : Nat) : Int :=
  let x := num * 2 ^ s / den
  oddSeries false s (x * x / 2 ^ s) (s + 2) x 0 0
/-- π at scale 2^s. -/
def piAt (s : Nat) : Nat := (16 * atanRat s 1 5 - 4 * atanRat s 1 239).toNat
/-- ln 2 at scale 2^s. -/
def ln2At (s : Nat) : Nat := (2 * atanhRat s 1 3).toNat
/-- Σ t × z^i / … of the exponential series at scale 2^s from term k. -/
def expSeries (s z : Nat) : Nat → Nat → Nat → Nat → Nat
  | 0, _, _, acc => acc
  | fuel + 1, t, k, acc => if t = 0 then acc else expSeries s z fuel (t * z / 2 ^ s / (k + 1)) (k + 1) (acc + t)
/-- Alternating series of sin (k = 1) or cos (k = 0): terms t, next t × zz / ((k + 1)(k + 2)). -/
def trigSeries (s zz : Nat) : Nat → Nat → Nat → Bool → Int → Int
  | 0, _, _, _, acc => acc
  | fuel + 1, t, k, minus, acc =>
    if t = 0 then acc else
      trigSeries s zz fuel (t * zz / 2 ^ s / ((k + 1) * (k + 2))) (k + 2) (!minus) (if minus then acc - t else acc + t)

/-- Tries precisions until an enclosure `v ± 2^20` at scale 2^(p + 40) agrees on the upper p bits of scale; the value is irrational. -/
def enclose (v : Nat → Int) (shift : Int) : List Nat → Appr
  | [] => { m := 2 ^ 80, e := shift - 80, more := true }
  | p :: t =>
    let x := v (p + 40)
    let lo := (x - 2 ^ 20).toNat / 2 ^ 40
    let hi := (x + 2 ^ 20).toNat / 2 ^ 40
    if lo = hi ∧ 64 < bitLen lo then { m := lo, e := shift - p, more := true } else enclose v shift t
/-- The precisions tried. -/
def precisions : List Nat := [128, 256, 512, 1024]

/-- 2^(num / 2^d), not an integer power. -/
def exp2Appr (neg : Bool) (num d : Nat) : Appr :=
  let whole := num / 2 ^ d
  if 2000 < whole then { m := 2 ^ 80, e := if neg then -3000 else 3000, more := true }
  else
    let n : Int := if neg then -(whole : Int) - 1 else whole
    let f := if neg then 2 ^ d - num % 2 ^ d else num % 2 ^ d
    enclose (fun s => (expSeries s (f * ln2At s / 2 ^ d) (s + 2) (2 ^ s) 0 0 : Nat)) n precisions

/-- |log2| of m × 2^e, not a power of two, with its sign. -/
def log2Appr (m : Nat) (e : Int) : Bool × Appr :=
  let l := bitLen m - 1
  let ex : Int := e + l
  let v := fun s : Nat => ex * 2 ^ s + 2 * atanhRat s (m - 2 ^ l) (m + 2 ^ l) * 2 ^ s / (ln2At s : Int)
  (ex < 0, enclose (fun s => ((v s).natAbs : Int)) 0 precisions)

/-- |sin(π a)| for 0 < a = num / 2^d ≤ 1/2. -/
def sinpiAppr (num d : Nat) : Appr :=
  enclose (fun s => let z := num * piAt s / 2 ^ d; trigSeries s (z * z / 2 ^ s) (s + 2) z 1 false 0) 0 precisions

/-- Sign and magnitude of sin(π num / 2^d) with num / 2^d in [0, 2), not a multiple of 1/2. -/
def sinpiSigned (num d : Nat) : Bool × Appr :=
  let one := 2 ^ d
  let neg := decide (one < num)
  let a := num % one
  (neg, sinpiAppr (if 2 * a ≤ one then a else one - a) d)

/-- A finite value as numerator over 2^d. -/
def overPow (m : Nat) (e : Int) : Nat × Nat := if 0 ≤ e then (m * 2 ^ e.toNat, 0) else (m, (-e).toNat)

/-- The special functions of 05 R124. -/
inductive Fn | recip | rsqrt | sqrt | exp2 | log2 | sinpi | cospi
  deriving DecidableEq, Repr

/-- sin or cos of π x for a finite x = ± num / 2^d. -/
def trigpi (f : Fmt) (cosine : Bool) (rm u : Nat) (neg : Bool) (num d : Nat) : Nat × BitVec 5 :=
  let one := 2 ^ d
  -- work on sin(π y), y = x or x + 1/2, with denominators doubled
  let n2 := 2 * num
  let y : Nat := if cosine then (n2 + one) % (4 * one) else n2 % (4 * one)
  let sgn := !cosine && neg
  if y % one = 0 then
    match y / one with
    | 0 => (fenc f (if cosine then false else neg) 0 0, 0)
    | 2 => (fenc f (if cosine then false else neg) 0 0, 0)
    | 1 => roundFin f rm u sgn 1 0
    | _ => roundFin f rm u (!sgn) 1 0
  else
    let (ng, a) := sinpiSigned y (d + 1)
    roundAppr f rm u (ng != sgn) a

/-- A special function of one element, correctly rounded once, with the special cases of the table of R124. -/
def special (f : Fmt) (fn : Fn) (rm u x : Nat) : Nat × BitVec 5 :=
  match fn, fdec f x with
  | _, .nan => (f.nan, 0)
  | .recip, .inf n => (fenc f n 0 0, 0)
  | .recip, .fin n m e => if m = 0 then (finf f n, flagDZ) else roundAppr f rm u n (ratAppr 1 m (-e))
  | .rsqrt, .inf n => if n then finvalid f else (0, 0)
  | .rsqrt, .fin n m e =>
    if m = 0 then (finf f n, flagDZ) else if n then finvalid f
    else let (a, h) := evenExp m e; roundAppr f rm u false (sqrtAppr 1 a (-h))
  | .sqrt, .inf n => if n then finvalid f else (finf f false, 0)
  | .sqrt, .fin n m e =>
    if m = 0 then (fenc f n 0 0, 0) else if n then finvalid f
    else let (a, h) := evenExp m e; roundAppr f rm u false (sqrtAppr a 1 h)
  | .exp2, .inf n => if n then (0, 0) else (finf f false, 0)
  | .exp2, .fin n m e =>
    let (num, d) := overPow m e
    if num % 2 ^ d = 0 then
      let k : Int := if n then -(num / 2 ^ d : Nat) else (num / 2 ^ d : Nat)
      roundAppr f rm u false { m := 1, e := max (-3000) (min 3000 k), more := false }
    else roundAppr f rm u false (exp2Appr n num d)
  | .log2, .inf n => if n then finvalid f else (finf f false, 0)
  | .log2, .fin n m e =>
    if m = 0 then (finf f true, flagDZ) else if n then finvalid f
    else if m = 2 ^ (bitLen m - 1) then
      let k : Int := e + (bitLen m - 1 : Nat)
      if k = 0 then (0, 0) else roundFin f rm u (k < 0) k.natAbs 0
    else let (ng, a) := log2Appr m e; roundAppr f rm u ng a
  | .sinpi, .inf _ => finvalid f
  | .sinpi, .fin n m e => let (num, d) := overPow m e; if m = 0 then (fenc f n 0 0, 0) else trigpi f false rm u n num d
  | .cospi, .inf _ => finvalid f
  | .cospi, .fin n m e => let (num, d) := overPow m e; trigpi f true rm u n num d

/-! ### Phasors (04 R86-R90) -/

/-- round_ne(2^17 × sin(2π k / 32,768)) for 0 < k < 8,192 (the real value is irrational), clamped to 131,071. -/
def sinEntry (k : Nat) : Nat :=
  let a := sinpiAppr k 14
  let v := 2 ^ 18 * a.m / 2 ^ (-a.e).toNat
  min 131071 ((v + 1) / 2)
/-- sinT (R87). -/
def sinT (k : Nat) : Int :=
  let k := k % 32768
  let half := fun (j : Nat) => if j = 0 then (0 : Nat) else if j < 8192 then sinEntry j else if j = 8192 then 131071 else if j < 16384 then sinEntry (16384 - j) else 0
  if k < 16384 then half k else -(half (k - 16384) : Int)
/-- cosT (R87). -/
def cosT (k : Nat) : Int := sinT (k + 8192)

/-- atan2(S, C) × 32,768 / (2π) rounded to nearest, for (C, S) ≠ 0 (R89). -/
def angleOf (c s : Int) : Nat :=
  let ca := c.natAbs
  let sa := s.natAbs
  let small := min ca sa
  let large := max ca sa
  -- 0 to 4,096 within the octant; the real value is no half unit (its tangent is rational), and 512 bits decide the side
  let base : Nat :=
    if small = 0 then 0 else if small = large then 4096
    else
      let sc := 640
      let t : Int := if 5 * small < 2 * large then atanRat sc small large else (piAt sc : Int) / 4 - atanRat sc (large - small) (large + small)
      ((2 * (t * 16384 * 2 ^ 512 / (piAt sc : Int)) + 2 ^ 512) / 2 ^ 513).toNat
  let quad : Nat := if sa ≤ ca then base else 8192 - base
  let half : Nat := if 0 ≤ c then quad else 16384 - quad
  if 0 ≤ s then half % 32768 else (32768 - half) % 32768

/-- A P16 or P8 product (R88): width `b` of the angle field. -/
def phMul (b x y : Nat) : Nat := if bitAt x b ∨ bitAt y b then 2 ^ b else (x + y) % 2 ^ b
/-- P16 to P8, ties to even (R88). -/
def phTo8 (x : Nat) : Nat :=
  if bitAt x 15 then 0x80 else
    let q := x / 256
    let r := x % 256
    (if 128 < r ∨ (r = 128 ∧ q % 2 = 1) then q + 1 else q) % 128
/-- P8 to P16 (R88). -/
def phTo16 (x : Nat) : Nat := if bitAt x 7 then 0x8000 else 256 * x

/-- Length of the resultant in FP32 (R89). -/
def phLen (c s : Int) (n : Nat) : Nat :=
  if n = 0 then 0 else
    let sq := c.natAbs * c.natAbs + s.natAbs * s.natAbs
    if sq = 0 then 0 else (roundAppr fp32 0 0 false (sqrtAppr sq (n * n) (-17))).1
/-- Angle of the resultant, undefined below the threshold (R89). -/
def phAngle (c s : Int) (n : Nat) (thresh : W32) : Nat :=
  if n = 0 then 0x8000
  else if c = 0 ∧ s = 0 then 0x8000
  else
    let th := if fisNan fp32 thresh.toNat ∨ fsign fp32 thresh.toNat then 0 else thresh.toNat
    if flt fp32 (phLen c s n) th then 0x8000 else angleOf c s

/-- The wrap-safe comparison of P16 codes (R90): 0 EQ, 1 AHEAD, 2 OPP, 3 BEHIND, 4 UNORD. -/
def phCmp (x y : Nat) : Nat :=
  if bitAt x 15 ∨ bitAt y 15 then 4 else
    let d := (x + 32768 - y) % 32768
    if d = 0 then 0 else if d < 16384 then 1 else if d = 16384 then 2 else 3

/-! ### Generator (04 R92) -/

/-- One round. -/
def rngRound (w : Nat → Nat) (i : Nat) (x : Nat × Nat × Nat × Nat) : Nat × Nat × Nat × Nat :=
  let (x0, x1, x2, x3) := x
  let p0 := 0xD2B74407 * x0
  let p1 := 0xA5CB9243 * x2
  let ka := (w (i % 4) + i * 0x9E3779B9) % 2 ^ 32
  let kb := (w ((i + 2) % 4) + i * 0xBB67AE85) % 2 ^ 32
  let r := (p0 / 2 ^ 32) ^^^ x3 ^^^ kb
  ((p1 / 2 ^ 32) ^^^ x1 ^^^ ka, p1 % 2 ^ 32, (r * 128 + r / 2 ^ 25) % 2 ^ 32, p0 % 2 ^ 32)
/-- rng_block(K, Q): word `j`. -/
def rngBlock (key ctr : Nat) : Nat × Nat × Nat × Nat :=
  let w := fun j => bits key (32 * j) 32
  (List.range 8).foldl (fun x i => rngRound w i x) (bits ctr 0 32, bits ctr 32 32, bits ctr 64 32, bits ctr 96 32)
/-- The word of lane `l` of a draw at counter `ctr`. -/
def rngWord (key ctr l : Nat) : Nat :=
  let b := rngBlock key ((ctr + l / 4) % 2 ^ 128)
  match l % 4 with
  | 0 => b.1
  | 1 => b.2.1
  | 2 => b.2.2.1
  | _ => b.2.2.2

/-! ### Four- and eight-bit codes (04 R76-R78) -/

/-- Value of a 4-bit code of a type, times 8. -/
def code4 (ty c : Nat) : Int :=
  let mag := fun l : List Int => (if 8 ≤ c then -1 else 1) * (l[c % 8]?).getD 0
  match ty with
  | 0 => 8 * (if 8 ≤ c then (c : Int) - 16 else c)
  | 1 => mag [0, 4, 8, 12, 16, 24, 32, 48]
  | 2 => mag [0, 1, 2, 4, 8, 16, 32, 64]
  | _ => mag [0, 8, 16, 24, 32, 48, 64, 96]
/-- A 4-bit element with its scale byte (R77). DESIGN CHOICE (log entry 92): R76 gives code 0b1000 of E2M1, POW2 and STEP a zero without a sign; it is +0 here. -/
def dec4 (scale c : Nat) : FV :=
  let v := code4 (scale / 64) c
  .fin (v < 0) v.natAbs (signed 6 (scale % 64) - 3)
/-- An 8-bit element of a Q8 record with its scale byte; type 11 is refused before (R77). -/
def dec8 (scale c : Nat) : FV :=
  let e := signed 6 (scale % 64)
  match scale / 64 with
  | 0 => let v := signed 8 c; .fin (v < 0) v.natAbs e
  | 1 => match fdec e4m3 c with
    | .fin n m x => .fin n m (x + e)
    | v => v
  | _ => match fdec e5m2 c with
    | .fin n m x => .fin n m (x + e)
    | v => v

/-- A quantizing type (R78): largest magnitude times 8, non-negative codes with 8 × value and index in rising order, sign bit of the code. -/
def quantM (q8 : Bool) (ty : Nat) : Nat :=
  if q8 then (if ty = 0 then 127 else if ty = 1 then 448 else 57344) else (if ty = 0 then 7 else if ty = 1 then 6 else if ty = 2 then 8 else 12)
/-- Value (units of 2^-16) of the magnitude with index `i`. -/
def quantVal (q8 : Bool) (ty i : Nat) : Nat :=
  if q8 then
    (match ty with
    | 0 => i * 2 ^ 16
    | 1 => match fdec e4m3 i with
      | .fin _ m e => m * 2 ^ (e + 16).toNat
      | _ => 0
    | _ => match fdec e5m2 i with
      | .fin _ m e => m * 2 ^ (e + 16).toNat
      | _ => 0)
  else (code4 ty i).natAbs * 2 ^ 13
/-- Index of the largest magnitude. -/
def quantTop (q8 : Bool) (ty : Nat) : Nat := if q8 then (if ty = 0 then 127 else if ty = 1 then 0x7E else 0x7B) else 7
/-- Index nearest to y = num / den (units of 1), ties to the even index, from index `i` down. -/
def quantNear (q8 : Bool) (ty num den : Nat) : Nat → Nat
  | 0 => 0
  | i + 1 =>
    let lo := quantVal q8 ty i
    let hi := quantVal q8 ty (i + 1)
    -- y ≥ hi, or between lo and hi
    if hi * den ≤ num * 2 ^ 16 then i + 1
    else if lo * den ≤ num * 2 ^ 16 then
      let twice := 2 * (num * 2 ^ 16)
      let mid := (lo + hi) * den
      if twice < mid then i else if mid < twice then i + 1 else if i % 2 = 0 then i else i + 1
    else quantNear q8 ty num den i
/-- The code of a signed magnitude index. -/
def quantCode (q8 : Bool) (ty : Nat) (neg : Bool) (i : Nat) : Nat :=
  if i = 0 then 0 else if !neg then i
  else if q8 then (if ty = 0 then 256 - i else 128 + i) else if ty = 0 then 16 - i else 8 + i
/-- Whether num × 2^x ≤ m × 2^e. -/
def leScaled (m : Nat) (x : Int) (n : Nat) (e : Int) : Bool := !(above m x n e)
/-- The block exponent (R78): the smallest e from −32 with amax ≤ M × 2^e, at most 31; the flag says 31 was too small. -/
def quantExp (mm : Nat) (am : Nat) (ae : Int) : Nat → Int → Int × Bool
  | 0, e => (e, !(leScaled am ae mm e))
  | fuel + 1, e => if leScaled am ae mm e then (e, false) else if e = 31 then (31, true) else quantExp mm am ae fuel (e + 1)
/-- Larger of two magnitudes. -/
def magMax (x y : Nat × Int) : Nat × Int := if above y.1 y.2 x.1 x.2 then y else x
/-- Quantizes 32 FP32 values: codes, scale byte, flags (R78). -/
def quantBlock (q8 : Bool) (ty : Nat) (xs : List Nat) : List Nat × Nat × BitVec 5 :=
  let vs := xs.map (fdec fp32)
  let amax := vs.foldl (fun a v => match v with
    | .fin _ m e => magMax a (m, e)
    | _ => a) (0, 0)
  let mm := quantM q8 ty
  let (e, big) := if amax.1 = 0 then (-32, false) else quantExp mm amax.1 amax.2 63 (-32)
  let one := fun v => match v with
    | FV.nan => ((0 : Nat), flagNV)
    | FV.inf n => (quantCode q8 ty n (quantTop q8 ty), flagOF)
    | FV.fin n m x =>
      let (num, den) := if e ≤ x then (m * 2 ^ (x - e).toNat, 1) else (m, 2 ^ (e - x).toNat)
      if mm * den < num then (quantCode q8 ty n (quantTop q8 ty), flagOF ||| flagNX)
      else
        let i := quantNear q8 ty num den (quantTop q8 ty)
        (quantCode q8 ty n i, if quantVal q8 ty i * den = num * 2 ^ 16 then 0 else flagNX)
  let cs := vs.map one
  (cs.map (·.1), ty * 64 + (e % 64).toNat, cs.foldl (fun f c => f ||| c.2) (if big then flagOF else 0))

end Sys2Proof.Machine
end

