-- ==== Sys2Proof/Machine/Operands.lean ====
section
/-! DEFINITION. Operand forms: guards (03 R49), forms (R47), scratchpad addresses (05 R97), rows, lanes and masks (05 R119, R70), block tags
(05 R98), and the shared shape of a vector operation. -/

namespace Sys2Proof.Machine

/-- What a syllable's issue sees: the context as it stood before the issue with this issue's swaps done (05 R95, 03 R48), the stepped part of the
displacement (03 R33), the address of the bundle and of the next one, the slot, the form row, and of a later row of a copy form its captured
registers and its cluster time (10 R209). -/
structure Iss where
  v : Ctx
  delta : W64 := 0
  bundle : W32 := 0
  next : W32 := 0
  slot : Nat := 0
  row : Nat := 0
  args : List W64 := []
  time : Option Nat := none
  deriving DecidableEq, Repr

/-- The guard field (R49): 0 always, 1-7 g1-g7, 8-15 q0-q7. -/
def guardOn (r : Regs) (g : BitVec 4) : Bool :=
  if g.toNat < 8 then gGet r g.toNat else qGet r (g.toNat - 8)

/-- Runs a syllable's effect when its guard is true at issue; the rows after the first were guarded at issue. -/
def guarded (iss : Iss) (g : BitVec 4) (s : State) (f : Res) : Res :=
  if iss.row ≠ 0 ∨ guardOn iss.v.r g then f else .ok s

/-! ### Forms (03 R47) -/

/-- Number of an active form register of slot VA VB M C0 C1 (0 to 4). -/
def formIdx (slot form : Nat) : Nat := 8 * slot + 2 * form
def formWord (c : Ctl) (i : Nat) : W64 := (c.forms[i]?).getD 0
def formRows (w : W64) : Nat := bits w.toNat 10 4 + 1
def formCols (w : W64) : Nat := bits w.toNat 14 6 + 1
def formStep (w : W64) : Int := signed 12 (bits w.toNat 20 12)
def formAstep (w : W64) : Int := signed 32 (bits w.toNat 32 32)
/-- Exchange of a form's active copy and shadow. -/
def swapForm (c : Ctl) (slot form : Nat) : Ctl :=
  let i := formIdx slot form
  { c with forms := (c.forms.setIfInBounds i (formWord c (i + 1))).setIfInBounds (i + 1) (formWord c i) }
/-- Form slot number of a side of the vector slots. -/
def vSlot : Side → Nat
  | .a => 0
  | .b => 1
/-- Form slot number of a copy slot. -/
def cSlot : Side → Nat
  | .a => 3
  | .b => 4

/-! ### Scratchpad addresses (05 R97) -/

/-- Byte address of an access: exact sum, alignment, range. -/
def scrAddr (base : W32) (off : Int) (size align : Nat) : Except Stop Nat :=
  let a : Int := base.toNat + off
  if a % (align : Int) ≠ 0 then trapWith misaligned (BitVec.ofInt 64 a).toNat
  else if a < 0 ∨ 0x200000 < a + size then trapWith scratchRange (BitVec.ofInt 64 a).toNat
  else .ok a.toNat

/-- Writes scratchpad bytes of the issuing context. -/
def scrWrite (s : State) (a : Nat) (l : List Byte) : State :=
  { s with cx := { s.cx with prog := { s.cx.prog with scratch := cellBlit s.cx.prog.scratch a l } } }
/-- Reads scratchpad bytes as they stood before the issue (05 R99). -/
def scrRead (iss : Iss) (a n : Nat) : List Byte := cellRead iss.v.prog.scratch a n
/-- Tag of the block of a byte offset (05 R98). -/
def tagAt (x : Ctx) (a : Nat) : Byte := cellGet x.sys.tags (a / 4096)

/-! ### Watched stores (18 R344, R345) -/

/-- First byte of [a, a + n) that an armed watchpoint watches, with its number. -/
def watchHit (m : Mon) (a n : Nat) : Option (Nat × Nat) :=
  (List.range 4).findSome? fun k =>
    let w := (m.watch[k]?).getD {}
    if w.armed then
      ((List.range 64).find? fun i => w.mask.getLsbD i && decide (a ≤ w.addr.toNat + i) && decide (w.addr.toNat + i < a + n)).map fun i => (w.addr.toNat + i, k)
    else none
/-- A precise watch record (18 R345). -/
def watchRecord (s : State) (c : CtxId) (info : Nat) (bundle : Nat) (stage more addr tid : Nat) : Nat :=
  let x := getCtx s c
  packFields [(4, 1), (info, 1), (trWhere s c, 2), (bundle, 4), (trLoop x.r, 1), (stage, 1), (more, 1), (0, 1), (trIter x.r, 4), (addr, 8), (tid, 4), (trDelta s (ctxCl c), 4)]
/-- A write of the context's own slots by kernel code, as its pieces in order: the first match writes a record and makes a WATCH stop pending,
a further match is counted (R345). -/
def watchStore (s : State) (iss : Iss) (g : BitVec 4) (l : List (Nat × Nat)) : State :=
  if iss.v.mon.active then s else
    match l.findSome? fun p => watchHit iss.v.mon p.1 p.2 with
    | none => s
    | some (a, k) =>
      match s.cx.run.watchStop.filter (·.found) with
      | some w => putRun s { s.cx.run with watchStop := some { w with more := min 255 (w.more + 1) } }
      | none =>
        let stage := if 8 ≤ g.toNat then g.toNat - 8 else 0
        let s1 := putRun s { s.cx.run with watchStop := some { addr := .ofNat 64 a, wp := k } }
        keepRecord s1 (ctxCl s.cid) s.cx.prog.region (watchRecord s s.cid (4 + k) (trBundle iss.bundle iss.v.ctl.rptidx.toNat iss.slot) stage 0 a 0)

/-- A memory-writing syllable whose guard is true clears the spin counter and a `yield` (12 R260, 13 R286). -/
def clearSpin (s : State) : State := { s with cx := { s.cx with prog := { s.cx.prog with spin := 0, yielded := false } } }

/-- Marks an item of the scoreboard pending for `n` cycles (12 R251). -/
def markItem (s : State) (it : Item) (n : Nat) : State :=
  putRun s { s.cx.run with sb := s.cx.run.sb ++ [{ item := it, at_ := (getCl s (ctxCl s.cid)).wall + n }] }

/-! ### Vector rows (05 R119) -/

/-- Active lanes of a row: column limit and mask. -/
def activeBits (x : Ctx) (sd : Side) (form : BitVec 2) (mask : Nat) : W64 :=
  let cols := formCols (formWord x.ctl (formIdx (vSlot sd) form.toNat))
  let m : W64 := if mask = 0 then BitVec.allOnes 64 else maskGet x sd mask
  m &&& (if cols = 64 then BitVec.allOnes 64 else .ofNat 64 (2 ^ cols - 1))
/-- A lane of a row as a number. -/
def ln (v : VRow) (l : Nat) : Nat := (lane 32 v l).toNat
/-- Half `h` of a lane (R70). -/
def ln16 (v : VRow) (l h : Nat) : Nat := bits (ln v l) (16 * h) 16
/-- Byte `k` of a lane. -/
def ln8 (v : VRow) (l k : Nat) : Nat := bits (ln v l) (8 * k) 8
/-- The word of lane `l` in draw `k` of a slot's generator, cut to the 24 bits that rounding uses (R74). -/
def drawU (f : VFile) (k l : Nat) : Nat := rngWord f.key.toNat ((f.ctr.toNat + 16 * k) % 2 ^ 128) l / 256
/-- Advances the slot's generator by `n` draws (R92). -/
def advance (x : Ctx) (sd : Side) (n : Nat) : Ctx :=
  if n = 0 then x else setVFile x sd { vfile x sd with ctr := (vfile x sd).ctr + .ofNat 128 (16 * n) }
/-- Row `i` of a register operand, read as it stood before this row issued. -/
def vsrc (iss : Iss) (sd : Side) (n : BitVec 11) : VRow := rowGet iss.v sd (phys (vfile iss.v sd) (n.toNat + iss.row))

/-- Results of the 64 lanes: values of the active ones over the old row, flags of the active ones. -/
def mergeLanes (act : W64) (old : VRow) (f : Nat → Nat × BitVec 5) : VRow × BitVec 5 :=
  let rs := (List.range 64).map fun l => if act.getLsbD l then f l else (ln old l, 0)
  (.ofNat 2048 ((rs.foldr (fun r acc => r.1 % 2 ^ 32 + 2 ^ 32 * acc) 0)), rs.foldl (fun a r => a ||| r.2) 0)

/-- Units that a row touches: destination and sources by side. -/
def rowUnits (x : Ctx) (row : Nat) (l : List (Side × BitVec 11)) : List Nat :=
  l.map fun p => vUnit p.1 (phys (vfile x p.1) (p.2.toNat + row))

/-- The rows of the syllable's active form. -/
def vRows (iss : Iss) (sd : Side) (form : BitVec 2) : Nat := formRows (formWord iss.v.ctl (formIdx (vSlot sd) form.toNat))
/-- The columns of the syllable's active form. -/
def vCols (iss : Iss) (sd : Side) (form : BitVec 2) : Nat := formCols (formWord iss.v.ctl (formIdx (vSlot sd) form.toNat))

/-- Touches of a form: the issue checks the units of every row before any row commits (R119, 04 R67), each row stamps its own. -/
def touchRows (s : State) (iss : Iss) (rows : Nat) (l : List (Side × BitVec 11)) : Res := do
  if iss.row = 0 then touchCheck s.cx ((List.range rows).flatMap fun i => rowUnits iss.v i l) else .ok ()
  .ok { s with cx := stamp s.cx (getCl s (ctxCl s.cid)).ctime (rowUnits iss.v iss.row l) }

/-- The shared shape of a lane operation: guard, touches, per-lane result, flags, generator draws. -/
def laneOp (sd : Side) (g : BitVec 4) (form : BitVec 2) (mask : Nat) (vd : BitVec 11) (srcs : List (Side × BitVec 11)) (draws : Nat) (iss : Iss)
    (f : Nat → Nat × BitVec 5) (s : State) : Res :=
  guarded iss g s do
    let s ← touchRows s iss (vRows iss sd form) ((sd, vd) :: srcs)
    let p := phys (vfile iss.v sd) (vd.toNat + iss.row)
    let r := mergeLanes (activeBits iss.v sd form mask) (rowGet s.cx sd p) f
    .ok (raiseFlags { s with cx := advance (rowSet s.cx sd p r.1) sd draws } r.2)

/-- The shared shape of a compare: bits of the active lanes into mask `k` of the destination pair (05 R123). -/
def cmpOp (sd : Side) (o : VR) (srcs : List (Side × BitVec 11)) (iss : Iss) (fs : List (Nat → Bool)) (s : State) : Res :=
  guarded iss o.g s do
    let s ← touch s (rowUnits iss.v 0 srcs)
    let act := activeBits iss.v sd o.form o.mask.toNat
    .ok (fs.zipIdx.foldl (fun s fk =>
      let k := o.vd.toNat + fk.2
      let new : W64 := .ofNat 64 ((List.range 64).foldr (fun l acc => (if act.getLsbD l ∧ fk.1 l then 1 else 0) + 2 * acc) 0)
      { s with cx := maskSet s.cx sd k ((maskGet s.cx sd k &&& ~~~act) ||| new) }) s)

/-- Draws of a rounding mode: `n` in stochastic mode (R74). -/
def drawsOf (rm : BitVec 3) (n : Nat) : Nat := if rm = 4 then n else 0
/-- Packs two 16-bit results of a lane. -/
def pair16 (lo hi : Nat × BitVec 5) : Nat × BitVec 5 := (lo.1 % 2 ^ 16 + 2 ^ 16 * (hi.1 % 2 ^ 16), lo.2 ||| hi.2)

/-- One FP32 operand, result rounded. -/
def lane1 (sd : Side) (o : VR) (iss : Iss) (f : Nat → Nat → Nat → Nat × BitVec 5) (s : State) : Res :=
  laneOp sd o.g o.form o.mask.toNat o.vd [(sd, o.vsa)] (drawsOf o.rm 1) iss
    (fun l => f o.rm.toNat (drawU (vfile iss.v sd) 0 l) (ln (vsrc iss sd o.vsa) l)) s
/-- Two FP32 operands. -/
def lane2 (sd : Side) (o : VR) (iss : Iss) (f : Nat → Nat → Nat → Nat → Nat × BitVec 5) (s : State) : Res :=
  laneOp sd o.g o.form o.mask.toNat o.vd [(sd, o.vsa), (sd, o.vsb)] (drawsOf o.rm 1) iss
    (fun l => f o.rm.toNat (drawU (vfile iss.v sd) 0 l) (ln (vsrc iss sd o.vsa) l) (ln (vsrc iss sd o.vsb) l)) s
/-- Three FP32 operands. -/
def lane3 (sd : Side) (o : V3) (iss : Iss) (f : Nat → Nat → Nat → Nat → Nat → Nat × BitVec 5) (s : State) : Res :=
  laneOp sd o.g o.form o.mask.toNat o.vd [(sd, o.vsa), (sd, o.vsb), (sd, o.vsc)] (drawsOf o.rm 1) iss
    (fun l => f o.rm.toNat (drawU (vfile iss.v sd) 0 l) (ln (vsrc iss sd o.vsa) l) (ln (vsrc iss sd o.vsb) l) (ln (vsrc iss sd o.vsc) l)) s
/-- One operand of 16-bit element pairs; the even elements take the first draw and the odd ones the second (05 R125). -/
def half1 (sd : Side) (o : VR) (iss : Iss) (f : Nat → Nat → Nat → Nat × BitVec 5) (s : State) : Res :=
  laneOp sd o.g o.form o.mask.toNat o.vd [(sd, o.vsa)] (drawsOf o.rm 2) iss
    (fun l =>
      let e := fun h => f o.rm.toNat (drawU (vfile iss.v sd) h l) (ln16 (vsrc iss sd o.vsa) l h)
      pair16 (e 0) (e 1)) s
/-- Two operands of 16-bit element pairs. -/
def half2 (sd : Side) (o : VR) (iss : Iss) (f : Nat → Nat → Nat → Nat → Nat × BitVec 5) (s : State) : Res :=
  laneOp sd o.g o.form o.mask.toNat o.vd [(sd, o.vsa), (sd, o.vsb)] (drawsOf o.rm 2) iss
    (fun l =>
      let e := fun h => f o.rm.toNat (drawU (vfile iss.v sd) h l) (ln16 (vsrc iss sd o.vsa) l h) (ln16 (vsrc iss sd o.vsb) l h)
      pair16 (e 0) (e 1)) s
/-- Three operands of 16-bit element pairs. -/
def half3 (sd : Side) (o : V3) (iss : Iss) (f : Nat → Nat → Nat → Nat → Nat → Nat × BitVec 5) (s : State) : Res :=
  laneOp sd o.g o.form o.mask.toNat o.vd [(sd, o.vsa), (sd, o.vsb), (sd, o.vsc)] (drawsOf o.rm 2) iss
    (fun l =>
      let e := fun h => f o.rm.toNat (drawU (vfile iss.v sd) h l) (ln16 (vsrc iss sd o.vsa) l h) (ln16 (vsrc iss sd o.vsb) l h) (ln16 (vsrc iss sd o.vsc) l h)
      pair16 (e 0) (e 1)) s

end Sys2Proof.Machine
end

