-- ==== Sys2Proof/Machine/Place.lean ====
section
/-! DEFINITION. Where a virtual address of a context lies (09 R168-R171, 15 R301-R306), reads and writes there, replicas and clocks of main memory
(09 R176-R178). -/

namespace Sys2Proof.Machine

/-! ### Clocks (09 R176) -/

abbrev Clock := Vector (BitVec 24) 9
/-- a ≤ b in the window of 2^23. -/
def wsle (a b : BitVec 24) : Bool := decide ((b - a).toNat < 2 ^ 23)
/-- Entrywise wrap-safe maximum. -/
def clockMax (a b : Clock) : Clock := Vector.zipWith (fun x y => if wsle x y then y else x) a b
/-- Entrywise wrap-safe order. -/
def clockLe (a b : Clock) : Bool := (List.range 9).all fun i => wsle ((a[i]?).getD 0) ((b[i]?).getD 0)
/-- The context that stands aside for an access by a party of the host die (01 R13, R15), which has no core. -/
def sequencer : CtxId := mkCtx 0 true
/-- Die of a context's party: its core's, or the host die where the context stands for a party of it (01 R13, R15). -/
def dieOf (s : State) (c : CtxId) : Nat := if (getCtx s c).prog.host then 8 else ctxDie c
/-- Changes the horizon of a context. -/
def modHorizon (s : State) (c : CtxId) (f : Clock → Clock) : State := modCtx s c fun x => { x with prog := { x.prog with horizon := f x.prog.horizon } }
/-- A read reply from die `d`: H takes in V (R177). -/
def readReply (s : State) (c : CtxId) (d : Nat) : State := modHorizon s c fun h => clockMax h (getDie s d).clock
/-- A write to a location that is not replicated: the home die's V takes in H (R177). -/
def homeMerge (s : State) (c : CtxId) (d : Nat) : State :=
  let h := (getCtx s c).prog.horizon
  modDie s d fun x => { x with clock := clockMax x.clock h }

/-- Dies that hold a replica of the page of `pa`, as bits; 0 for a page that is not replicated. -/
def replicaMask (s : State) (pa : Nat) : Nat := (cellGet s.repPages (pa / 65536)).toNat
/-- Whether a party of die `d` reads the page of `pa` at a replica of its own; the page's home die reads the primary. -/
def readsReplica (s : State) (d pa : Nat) : Bool := bitAt (replicaMask s pa) d && d != paDie pa
/-- The die that serves a read by a party of die `d`. -/
def servingDie (s : State) (d pa : Nat) : Nat := if readsReplica s d pa then d else paDie pa
/-- Whether a read by context `c` can be served yet (R177): every write up to the horizon has been applied at the serving die. -/
def canRead (s : State) (c : CtxId) (pa : Nat) : Bool :=
  replicaMask s pa == 0 || clockLe (getCtx s c).prog.horizon (getDie s (servingDie s (dieOf s c) pa)).applied
/-- Whether `n` replicated writes from die `d` may issue: no die's applied entry lags by more than 2^22 at the last of them (R178). -/
def canRepWrite (s : State) (d n : Nat) : Bool :=
  (List.range 9).all fun e =>
    decide ((((getDie s d).clock[d]?).getD 0 - ((getDie s e).applied[d]?).getD 0).toNat + n ≤ 2 ^ 22 + 1)

/-- Bytes of main memory as a party of die `d` reads them. -/
def readMain (s : State) (d pa n : Nat) : List Byte :=
  if readsReplica s d pa then cellRead (tabGet [] (getDie s d).replicas (pa / 65536)) (pa % 65536) n else readPa s pa n
/-- A write of main memory by context `c`: the primary takes it. A replicated page's write counts in the entry of the writer's die and goes out to
every die with its clock; the home die, whose parties read the primary, knows the clock at once (R176, R177; log entry 96). -/
def writeMain (s : State) (c : CtxId) (pa : Nat) (l : List Byte) : State :=
  let s1 := writePa s pa l
  let d := dieOf s c
  if replicaMask s pa = 0 then homeMerge s1 c (paDie pa)
  else
    let v := (getDie s1 d).clock
    let w := clockMax (v.setIfInBounds d ((v[d]?).getD 0 + 1)) (getCtx s c).prog.horizon
    let s2 := modDie s1 d fun x => { x with clock := x.clock.setIfInBounds d ((v[d]?).getD 0 + 1) }
    let s3 := modHorizon (modDie s2 (paDie pa) fun x => { x with clock := clockMax x.clock w }) c fun _ => w
    { s3 with repWrites := s3.repWrites ++ (List.range 9).map fun e => { die := d, dst := e, clock := w, pa := pa, bytes := l } }

/-! ### Places (R168-R171) -/

/-- Where an address lies. -/
inductive Place
  | scr (ctx : Nat) (off : Nat)
  | dsm (die off : Nat)
  | main (pa : Nat)
  | peer (pkg : BitVec 12) (region : W32) (off : Nat)
  deriving DecidableEq, Repr

/-- A place with its format byte, the size of the unit that carries it, and the main-memory address that led to it. -/
structure Site where
  place : Place
  fmt : Byte := 0
  size : Nat := 4096
  va : Option Nat := none
  deriving DecidableEq, Repr

/-- The context of a region that is resident on a core, the primary first (R169). -/
def residentOn (s : State) (core : Nat) (region : W32) : Option CtxId :=
  [primOf s core, otherSlot (primOf s core)].find? fun c =>
    let x := getCtx s c
    x.run.state != .empty && x.run.state != .loading && x.prog.region == region
/-- The bank-set mask of a tenant in a die (15 R303). -/
def bankAllowed (s : State) (die tenant off : Nat) : Bool := (cellGet (getDie s die).banks tenant).getLsbD (off / 2 ^ 20)

/-- A die-shared-memory address (R170); `own` is the die of the party, if it has one. -/
def locateDsm (s : State) (tenant : Nat) (own : Option Nat) (va : Nat) : Except Byte Site :=
  if bits va 36 24 ≠ 0 ∨ bits va 26 6 ≠ 0 then .error pageFault
  else
    let d := bits va 32 4
    let off := bits va 0 26
    let die := if d < 8 then some d else if d = 15 then own else none
    match die with
    | none => .error pageFault
    | some d => if bankAllowed s d tenant off then .ok { place := .dsm d off, fmt := cellGet (getDie s d).tags (off / 4096) } else .error permission

/-- A byte reached through an export window of a region (15 R306); any refusal has status PERMISSION. -/
def locateExport (s : State) (region : W32) (tenant : Nat) (off n : Nat) (need : Need) : Except Byte Site :=
  match findRegion s region with
  | none => .error permission
  | some r =>
    let e := (tabGet 0 r.exportTab (off / 2 ^ 40)).toNat
    let va := (bits e 64 64 + off % 2 ^ 40) % 2 ^ 64
    if !(bitAt e 0) ∨ bits e 8 16 ≠ tenant ∨ effTenant s region ≠ tenant ∨ bits e 24 40 < off % 2 ^ 40 + n then .error permission
    else if (need.r && !(bitAt e 1)) || (need.w && !(bitAt e 2)) || (need.a && !(bitAt e 3)) then .error permission
    else if va / 2 ^ 60 < 8 then
      match translate s region va { need with ex := true } with
      | .ok t => .ok { place := .main t.pa, fmt := t.fmt, size := t.size }
      | .error _ => .error permission
    else if va / 2 ^ 60 = 11 then
      match locateDsm s tenant none va with
      | .ok t => .ok t
      | .error _ => .error permission
    else .error permission

/-- The address in a region's space that an offset reaches through its export window (15 R306). -/
def exportVa (s : State) (region : W32) (off : Nat) : Nat :=
  match findRegion s region with
  | some r => (bits (tabGet 0 r.exportTab (off / 2 ^ 40)).toNat 64 64 + off % 2 ^ 40) % 2 ^ 64
  | none => 0
/-- The peer-table entry of a class 0xC address (15 R305). -/
def peerEntry (s : State) (region : W32) (va : Nat) : Nat := leNat (readPa s (effPeertable s region + 8 * bits va 48 12) 8)

/-- Whether a class 0xC address of a tenant leads nowhere: no populated and enabled entry, or a package that holds no region of the tenant (09 R185,
15 R305). -/
def peerAbsent (s : State) (region : W32) (tenant : BitVec 16) (va : Nat) : Bool :=
  let e := peerEntry s region va
  effPeertable s region == 0 || !(bitAt e 0) || !(bitAt e 1) || s.fabric.apart.contains (.ofNat 12 (bits e 4 12), tenant)

/-- Where `n` bytes from an address of a context lie, inside one 4 KiB piece, for an access that needs `need`; else the status (R168, R210). -/
def locate (s : State) (c : CtxId) (va n : Nat) (need : Need) : Except Byte Site :=
  let x := getCtx s c
  let region := x.prog.region
  let v := started s x
  match bits va 60 4 with
  | 0xA =>
    if bits va 32 26 ≠ 0 then .error pageFault
    else
      let off := bits va 0 21
      match bits va 58 2 with
      | 0 =>
        if bits va 21 11 ≠ 0 then .error pageFault
        else if !(x.prog.footprint.contains (off / 4096)) then .error permission
        else .ok { place := .scr (ctxNum c) off, fmt := tagAt x off }
      | 1 =>
        if bits va 24 8 ≠ 0 then .error pageFault
        else match residentOn s (8 * ctxCl c + bits va 21 3) region with
          | none => .error permission
          | some k =>
            if !((getCtx s k).prog.footprint.contains (off / 4096)) then .error permission
            else .ok { place := .scr (ctxNum k) off, fmt := tagAt (getCtx s k) off }
      | 2 => if bits va 21 3 ≠ 0 ∨ bits va 24 8 = 0 then .error pageFault else .error permission
      | _ => .error pageFault
  | 0xB => locateDsm s x.prog.tenant.toNat (if x.prog.host then none else some (ctxDie c)) va
  | 0xC =>
    let e := peerEntry v region va
    if peerAbsent v region x.prog.tenant va then .error peerFault
    else if bits e 4 12 = s.fw.fab.toNat then locateExport s (.ofNat 32 (bits e 32 32)) x.prog.tenant.toNat (bits va 0 48) n need
    else .ok { place := .peer (.ofNat 12 (bits e 4 12)) (.ofNat 32 (bits e 32 32)) (bits va 0 48) }
  | k =>
    if k < 8 then
      match translate v region va need with
      | .ok t => .ok { place := .main t.pa, fmt := t.fmt, size := t.size, va := some va }
      | .error e => .error e
    else .error pageFault

/-- Context slot of a number. -/
def ctxOfNum (n : Nat) : CtxId := mkCtx (n / 2) (n % 2 == 1)
/-- Every resident context that some condition selects. -/
def residents (s : State) (p : CtxId → Ctx → Bool) : List CtxId :=
  ((List.range 512).map ctxOfNum).filter fun c => (getCtx s c).run.state != .empty && p c (getCtx s c)
/-- The unit of a scratchpad place that is absent, with its context (16 R323). -/
def absentAt (s : State) (p : Place) : Option (Nat × Nat) :=
  match p with
  | .scr k off => if (getCtx s (ctxOfNum k)).prog.absent.contains (off / 4096) then some (k, off / 4096) else none
  | _ => none
/-- A touch of a scratchpad place. -/
def stampAt (s : State) (p : Place) : State :=
  match p with
  | .scr k off => modCtx s (ctxOfNum k) fun x => stamp x (getCl s (k / 16)).ctime [off / 4096]
  | _ => s
/-- Reads `n` bytes at a place; bytes of another package are free values of read `k`. -/
def readPlace (s : State) (die k : Nat) (p : Place) (n : Nat) : List Byte :=
  match p with
  | .scr c off => cellRead (getCtx s (ctxOfNum c)).prog.scratch off n
  | .dsm d off => cellRead (getDie s d).dsm off n
  | .main pa => readMain s die pa n
  | .peer _ _ off => (List.range n).map fun i => Config.peerByte k (off + i)
/-- Notes a granule of 64 KiB that a write on behalf of a tile word of the region touches, while the bolter is on (18 R347). -/
def noteDirty (s : State) (region serial : W32) (va : Nat) : State :=
  let g : W32 × W64 := (serial, .ofNat 64 (va / 65536 * 65536))
  modRegion s region fun r => if r.bolter && !(r.dirty.contains g) then { r with dirty := r.dirty ++ [g] } else r
/-- Notes the granule of a site written for a context. -/
def noteSite (s : State) (c : CtxId) (t : Site) : State :=
  match t.place with
  | .main _ => match t.va with
    | some va => noteDirty s (getCtx s c).prog.region (getCtx s c).prog.serial va
    | none => s
  | _ => s
/-- A write of a scratchpad by another context: its owner's own slots may read the bytes without a reply, so its horizon takes in the writer's. -/
def passHorizon (s : State) (src dst : CtxId) : State :=
  if src = dst then s else modHorizon s dst fun h => clockMax h (getCtx s src).prog.horizon
/-- Writes bytes at a place, for a context; a place in another package is written by packets instead. -/
def writePlace (s : State) (c : CtxId) (p : Place) (l : List Byte) : State :=
  match p with
  | .scr k off =>
    let o := ctxOfNum k
    passHorizon (homeMerge (modCtx s o fun x => { x with prog := { x.prog with scratch := cellBlit x.prog.scratch off l } }) c (ctxDie o)) c o
  | .dsm d off => homeMerge (modDie s d fun x => { x with dsm := cellBlit x.dsm off l }) c d
  | .main pa => writeMain s c pa l
  | .peer .. => s
/-- The die whose clock a read of a place returns (R177). -/
def placeDie (s : State) (c : CtxId) (p : Place) : Option Nat :=
  match p with
  | .scr k _ => some (ctxDie (ctxOfNum k))
  | .dsm d _ => some d
  | .main pa => some (servingDie s (dieOf s c) pa)
  | .peer .. => none
/-- The context whose scratchpad a place lies in. -/
def placeCtx (p : Place) : Option CtxId :=
  match p with
  | .scr k _ => some (ctxOfNum k)
  | _ => none
/-- Horizon replies and recency of the places that a context's transfer has read (R177, 16 R317). -/
def noteTouch (s : State) (c : CtxId) (ps : List Place) : State :=
  let s := ps.foldl stampAt s
  let s := ((ps.filterMap (placeDie s c)).eraseDups).foldl (fun s d => readReply s c d) s
  ((ps.filterMap placeCtx).eraseDups).foldl (fun s o => passHorizon s o c) s

/-- Bytes by which a class 0xC address and what it leads to in this package differ in their place in a 4 KiB unit. -/
def exportShift (s : State) (region : W32) (va : Nat) : Nat :=
  let e := peerEntry s region va
  if bits va 60 4 = 0xC ∧ bits e 4 12 = s.fw.fab.toNat then (exportVa s (.ofNat 32 (bits e 32 32)) (bits va 0 48) + 4096 - va % 4096) % 4096 else 0
/-- Pieces of a range of a region's addresses, each within a 4 KiB unit on both sides of an export window. -/
def piecesOf (s : State) (region : W32) (va n : Nat) : List (Nat × Nat) :=
  (pieces va n).flatMap fun p =>
    let a := p.1 % 2 ^ 64
    let k := 4096 - (a + exportShift s region a) % 4096
    if k < p.2 then [(a, k), (a + k, p.2 - k)] else [(a, p.2)]
/-- Pieces of a range of a context's addresses. -/
def ctxPieces (s : State) (c : CtxId) (va n : Nat) : List (Nat × Nat) := forCtx (fun v r => piecesOf v r va n) s (getCtx s c)

end Sys2Proof.Machine
end

