-- ==== Sys2Proof/Machine/Fabric.lean ====
section
/-! DEFINITION. The source side of the fabric (09 R181, R184, R185, 11 R237): stream numbers, packets of a transfer, the gateway's sends. -/

namespace Sys2Proof.Machine

/-! ### Stream numbers (R181) -/

/-- The counter of a stream towards a destination. -/
def ctrOf (x : Conts) (stream : BitVec 4) (dst : Nat) : StreamCtr :=
  (x.ctrs.find? fun k => k.stream == stream && k.dst == dst).getD { stream := stream, dst := dst, next := 0 }
/-- Replaces a counter. -/
def setCtr (x : Conts) (k : StreamCtr) : Conts :=
  { x with ctrs := k :: x.ctrs.filter fun j => !(j.stream == k.stream && j.dst == k.dst) }
/-- Takes `n` consecutive numbers: the first of them, and the state after. -/
def takeSeqs (s : State) (c : CtxId) (stream : BitVec 4) (dst n : Nat) : W32 × State :=
  let k := ctrOf (getCtx s c).con stream dst
  (k.next, modCtx s c fun x => { x with con := setCtr x.con { k with next := k.next + .ofNat 32 n, sent := k.sent || decide (0 < n) } })
/-- Marks a stream broken; stream 0 never is (R185). -/
def breakStream (s : State) (c : CtxId) (stream : BitVec 4) : State :=
  if stream = 0 then s else modCtx s c fun x => { x with con := { x.con with broken := setBit x.con.broken stream.toNat true } }

/-! ### Packets of a transfer (R237) -/

/-- Bytes at rising offsets as one packet from the first of them on; offsets between that are not written are none. -/
def packetOf (l : List (Nat × Byte)) : Nat × List (Option Byte) :=
  match l with
  | [] => (0, [])
  | (a, _) :: _ =>
    let top := l.foldl (fun m p => max m (p.1 + 1)) a
    (a, (List.range (top - a)).map fun i => (l.reverse.find? fun p => p.1 == a + i).map (·.2))
/-- Inserts a byte by its offset, after equal ones. -/
def insertByte (p : Nat × Byte) : List (Nat × Byte) → List (Nat × Byte)
  | [] => [p]
  | q :: t => if p.1 < q.1 then p :: q :: t else q :: insertByte p t
/-- The offset units of 256 bytes that are touched, rising. -/
def unitsOf (offs : List Nat) : List Nat := (sortBy (fun a b => decide (a ≤ b)) (offs.map (· / 256))).eraseDups
/-- The write packets of bytes at peer offsets, one per unit in rising order. -/
def writePackets (l : List (Nat × Byte)) : List (BitVec 48 × PktBody) :=
  (unitsOf (l.map (·.1))).map fun u =>
    let p := packetOf ((l.filter fun q => q.1 / 256 == u).foldl (fun acc q => insertByte q acc) [])
    (.ofNat 48 p.1, .write p.2)
/-- A range of addresses cut at the units of 256 bytes, rising (log entry 17). -/
def unitRuns (va n : Nat) : List (Nat × Nat) :=
  if n = 0 then []
  else (List.range ((va + n - 1) / 256 + 1 - va / 256)).map fun i =>
    let a := max va ((va / 256 + i) * 256)
    (a % 2 ^ 64, min (va + n) ((va / 256 + i + 1) * 256) - a)

/-! ### Sends (R184) -/

/-- The first plane that is up from plane `p` on, cyclically. -/
def planeFrom (planes : BitVec 8) (p : Nat) : Nat := ((List.range 8).map fun i => (p + i) % 8).find? (fun q => planes.getLsbD q) |>.getD (p % 8)
/-- What goes out for a held packet. -/
def outOf (h : HeldPkt) (plane : Nat) : OutPkt :=
  if h.isResync then .resync h.key plane else .data h.key plane h.tenant h.region h.off h.body
/-- A packet leaves on a plane that is up, under the next packet counter of its pair key and plane (15 R309). -/
def emit (s : State) (peer : BitVec 12) (plane : Nat) (o : OutPkt) : State :=
  let k := 8 * peer.toNat + plane
  if s.fabric.planes = 0 then s
  else { s with fabric := { s.fabric with out := s.fabric.out ++ [o] }, fw := { s.fw with pairCtr := tabSet s.fw.pairCtr k (tabGet 0 s.fw.pairCtr k + 1) } }
/-- Sends a new packet on the gateway's next plane and holds it (R184). -/
def sendNew (s : State) (key : PktKey) (tenant : BitVec 16) (region : W32) (off : BitVec 48) (body : PktBody) (owner : CtxId × Option (Side × W32))
    (resync : Bool) : State :=
  let p := planeFrom s.fabric.planes s.fabric.nextPlane
  let h : HeldPkt := { key := key, tenant := tenant, region := region, off := off, body := body, plane := p, expires := tick s + 8000, resends := 0
                       owner := owner, isResync := resync }
  emit { s with fabric := { s.fabric with held := s.fabric.held ++ [h], nextPlane := (p + 1) % 8 } } key.dst p (outOf h p)
/-- Unacknowledged packets of a stream towards a destination. -/
def unacked (s : State) (tag : W64) (stream : BitVec 4) (dst : BitVec 12) : Nat :=
  (s.fabric.held.filter fun h => h.key.tag == tag && h.key.stream == stream && h.key.dst == dst && !h.isResync).length
/-- Sends up to `n` packets of a transfer's queue, as far as the window of 64 allows (R181). -/
def pump (s : State) (c : CtxId) (ch : Side) (tenant : BitVec 16) : Nat → Xfer → State × Xfer
  | 0, t => (s, t)
  | n + 1, t =>
    match t.queue with
    | [] => (s, t)
    | (k, region, off, body) :: rest =>
      if 64 ≤ unacked s k.tag k.stream k.dst then (s, t)
      else
        let s := sendNew s k tenant region off body (c, some (ch, t.tid)) false
        pump s c ch tenant n { t with queue := rest, pkts := t.pkts ++ [k] }
/-- Sends what the window allows of the packets of saved images. -/
def pumpHoist (s : State) : State :=
  s.fabric.hoistQ.foldl (fun s p =>
    if 64 ≤ unacked s p.2.1.tag p.2.1.stream p.2.1.dst then { s with fabric := { s.fabric with hoistQ := s.fabric.hoistQ ++ [p] } }
    else sendNew s p.2.1 p.1 p.2.2.1 p.2.2.2.1 p.2.2.2.2 (mkCtx 0 true, none) false) { s with fabric := { s.fabric with hoistQ := [] } }
/-- Queues packets of a transfer, each under the next number of its stream to its destination (R181). -/
def queueFar (s : State) (c : CtxId) (stream : BitVec 4) (t : Xfer) (l : List (BitVec 12 × W32 × BitVec 48 × PktBody)) : State × Xfer :=
  l.foldl (fun p q =>
    let r := takeSeqs p.1 c stream q.1.toNat 1
    (r.2, { p.2 with queue := p.2.queue ++ [({ dst := q.1, tag := (getCtx s c).con.tag, stream := stream, seq := r.1 }, q.2)] })) (s, t)

/-! ### Where a transfer's stream leads (R181) -/

/-- The stream destination of an address: a package for class 0xC, 4,096 + die inside the package; none for the party's own die unless `own` asks for
it, as a near-data packet does. -/
def streamDst (s : State) (c : CtxId) (own : Bool) (va : Nat) : Option Nat :=
  let region := (getCtx s c).prog.region
  let v := started s (getCtx s c)
  let at_ := fun (d : Nat) => if d ≠ dieOf s c ∨ own then some (4096 + d) else none
  match bits va 60 4 with
  | 0xC => some (bits (peerEntry v region va) 4 12)
  | 0xB => if bits va 32 4 < 8 then at_ (bits va 32 4) else at_ (dieOf s c)
  | k =>
    if k < 8 then
      match translate v region va {} with
      | .ok t => at_ (paDie t.pa)
      | .error _ => none
    else none
/-- Whether an address leads to another package, with the package, region and offset. -/
def remoteOf (s : State) (c : CtxId) (va : Nat) : Option (BitVec 12 × W32 × Nat) :=
  if bits va 60 4 = 0xC then
    match locate s c va 1 {} with
    | .ok { place := .peer p r off, .. } => some (p, r, off)
    | _ => none
  else none

/-- The write packets of bytes at addresses that lead to other packages, one per unit of 256 bytes in rising order. -/
def writeUnits (s : State) (c : CtxId) (l : List (Nat × Byte)) : List (BitVec 12 × W32 × BitVec 48 × PktBody) :=
  (unitsOf (l.map (·.1))).filterMap fun u =>
    let p := packetOf ((l.filter fun q => q.1 / 256 == u).foldl (fun acc q => insertByte q acc) [])
    (remoteOf s c p.1).map fun r => (r.1, r.2.1, .ofNat 48 r.2.2, .write p.2)

/-! ### The SC slot wheel (09 R187, 12 R241) -/

/-- Whether a region holds a range of its own that contains position `p`. -/
def holdsPosition (r : Region) (p : Nat) : Bool :=
  let b := r.inForce.getD r.blk
  bitAt (blkField b 8 8) 9 && decide ((p + 1024 - blkField b 0x2E 2 % 1024) % 1024 < blkField b 0x30 2)
/-- Depth of a region below region 0. -/
def regionDepth (s : State) : Nat → W32 → Nat
  | 0, _ => 0
  | fuel + 1, id => match (findRegion s id).bind (·.parent) with
    | none => 0
    | some p => 1 + regionDepth s fuel p
/-- The block that deals a position: the deepest that holds it. -/
def wheelBlock (s : State) (p : Nat) : Option Region :=
  s.regions.foldl (fun best r =>
    if holdsPosition r p then
      match best with
      | none => some r
      | some b => if regionDepth s (s.regions.length + 1) b.id < regionDepth s (s.regions.length + 1) r.id then some r else some b
    else best) none
/-- The cores of a region's clusters in order. -/
def regionCores (s : State) (id : W32) : List Nat :=
  ((List.range 32).filter fun k => bitAt (effClusters s id) k).flatMap fun k => (List.range 8).map fun i => 8 * k + i
/-- The core that a position belongs to. -/
def positionOwner (s : State) (p : Nat) : Option Nat :=
  match wheelBlock s p with
  | none => none
  | some r =>
    let first := blkField (r.inForce.getD r.blk) 0x2E 2 % 1024
    let before := (List.range ((p + 1024 - first) % 1024)).filter fun i => (wheelBlock s ((first + i) % 1024)).map (·.id) == some r.id
    let cores := regionCores s r.id
    if cores.isEmpty then none else cores[before.length % cores.length]?
/-- Whether a core owns any position. -/
def ownsAny (s : State) (core : Nat) : Bool := (List.range 1024).any fun p => positionOwner s p == some core
/-- Whether a cluster of ratio `n` has a cycle in period `t` (19 R365). -/
def activeAt (n t : Nat) : Bool := decide (t * n / 19 < (t + 1) * n / 19)
/-- The next period after `t` in which a cluster of ratio `n` has a cycle. -/
def nextActive (n t : Nat) : Nat := ((List.range 20).map (t + 1 + ·)).find? (activeAt n) |>.getD (t + 1)
/-- The key that an SC bundle issuing now takes: the first period of the next cycle whose position the core owns. -/
def wheelKey (s : State) (core : Nat) : Option Nat :=
  let n := (getCl s (clusterOfCore core)).ratio.toNat
  let a := nextActive n s.now
  ((List.range (nextActive n a - a)).map (a + ·)).find? fun t => positionOwner s (t % 1024) == some core

end Sys2Proof.Machine
end

