-- ==== Sys2Proof/Machine/Scalar.lean ====
section
/-! DEFINITION. What the instructions of the S slot do (05 R100-R110): integers, compares, guards, bit fields, scratchpad access, forms,
rotation, copies between files and `wdone`. The system registers and instructions stand in System.lean. -/

namespace Sys2Proof.Machine

/-- A source register as it stood before the issue (05 R95). -/
def rs (iss : Iss) (n : BitVec 6) : W64 := sGet iss.v.r n.toNat
/-- A source guard as it stood before the issue. -/
def rg (iss : Iss) (n : BitVec 6) : Bool := gGet iss.v.r n.toNat

/-- Two sources into a scalar register. -/
def aluSR (o : SR) (iss : Iss) (f : W64 → W64 → W64) (s : State) : Res :=
  guarded iss o.g s (.ok (wrS s o.rd (f (rs iss o.ra) (rs iss o.rb))))
/-- One source into a scalar register. -/
def aluSU (o : SU) (iss : Iss) (f : W64 → W64) (s : State) : Res := guarded iss o.g s (.ok (wrS s o.rd (f (rs iss o.ra))))
/-- A source and an 8-bit immediate into a scalar register. -/
def aluSI (o : SI) (iss : Iss) (f : W64 → BitVec 8 → W64) (s : State) : Res := guarded iss o.g s (.ok (wrS s o.rd (f (rs iss o.ra) o.imm)))
/-- The destination and a sign-extended 14-bit immediate into a scalar register. -/
def aluSJ (o : SJ) (iss : Iss) (f : W64 → W64 → W64) (s : State) : Res :=
  guarded iss o.g s (.ok (wrS s o.rd (f (rs iss o.rd) (o.imm.signExtend 64))))
/-- A compare of two registers into a guard (R102). -/
def cmpSR (o : SR) (iss : Iss) (f : W64 → W64 → Bool) (s : State) : Res :=
  guarded iss o.g s (.ok (wrG s o.rd (f (rs iss o.ra) (rs iss o.rb))))
/-- A compare with a sign-extended 8-bit immediate into a guard (R102). -/
def cmpSI (o : SI) (iss : Iss) (f : W64 → W64 → Bool) (s : State) : Res :=
  guarded iss o.g s (.ok (wrG s o.rd (f (rs iss o.ra) (o.imm.signExtend 64))))
/-- Guard logic (R102). -/
def guardSR (o : SR) (iss : Iss) (f : Bool → Bool → Bool) (s : State) : Res :=
  guarded iss o.g s (.ok (wrG s o.rd (f (rg iss o.ra) (rg iss o.rb))))

/-- Rotation left by the low six bits. -/
def rotl64 (x y : W64) : W64 := x.rotateLeft (y.toNat % 64)
/-- The number of one bits. -/
def popcount (x : W64) : Nat := (List.range 64).foldl (fun n i => n + b2n (x.getLsbD i)) 0
/-- The number of leading zero bits. -/
def leadingZeros (x : W64) : Nat := 64 - bitLen x.toNat
/-- The number of trailing zero bits, 64 for 0. -/
def trailingZeros (x : W64) : Nat := ((List.range 64).find? fun i => x.getLsbD i).getD 64
/-- A mask of the `n` low bits. -/
def lowMask (n : Nat) : W64 := .ofNat 64 (2 ^ n - 1)
/-- Position and width of a bit field (R104). -/
def fieldPos (y : W64) : Nat := y.toNat % 64
def fieldWidth (y : W64) : Nat := y.toNat / 256 % 64 + 1
/-- `bext` (R104). -/
def bitExtract (x y : W64) : W64 := (x >>> fieldPos y) &&& lowMask (fieldWidth y)
/-- `bins` (R104). -/
def bitInsert (d x y : W64) : W64 :=
  let m := lowMask (fieldWidth y) <<< fieldPos y
  (d &&& ~~~m) ||| ((x <<< fieldPos y) &&& m)

def semAdd (o : SR) (iss : Iss) (s : State) : Res := aluSR o iss (· + ·) s
def semSub (o : SR) (iss : Iss) (s : State) : Res := aluSR o iss (· - ·) s
def semMul (o : SR) (iss : Iss) (s : State) : Res := aluSR o iss (· * ·) s
def semMulh (o : SR) (iss : Iss) (s : State) : Res := aluSR o iss (fun x y => .ofInt 64 (x.toInt * y.toInt / 2 ^ 64)) s
def semMulhu (o : SR) (iss : Iss) (s : State) : Res := aluSR o iss (fun x y => .ofNat 64 (x.toNat * y.toNat / 2 ^ 64)) s
def semAnd (o : SR) (iss : Iss) (s : State) : Res := aluSR o iss (· &&& ·) s
def semOr (o : SR) (iss : Iss) (s : State) : Res := aluSR o iss (· ||| ·) s
def semXor (o : SR) (iss : Iss) (s : State) : Res := aluSR o iss (· ^^^ ·) s
def semAndn (o : SR) (iss : Iss) (s : State) : Res := aluSR o iss (fun x y => x &&& ~~~y) s
def semShl (o : SR) (iss : Iss) (s : State) : Res := aluSR o iss (fun x y => x <<< (y.toNat % 64)) s
def semShr (o : SR) (iss : Iss) (s : State) : Res := aluSR o iss (fun x y => x >>> (y.toNat % 64)) s
def semSra (o : SR) (iss : Iss) (s : State) : Res := aluSR o iss (fun x y => x.sshiftRight (y.toNat % 64)) s
def semRotl (o : SR) (iss : Iss) (s : State) : Res := aluSR o iss rotl64 s
def semMin (o : SR) (iss : Iss) (s : State) : Res := aluSR o iss (fun x y => if y.slt x then y else x) s
def semMax (o : SR) (iss : Iss) (s : State) : Res := aluSR o iss (fun x y => if x.slt y then y else x) s
def semMinu (o : SR) (iss : Iss) (s : State) : Res := aluSR o iss (fun x y => if y < x then y else x) s
def semMaxu (o : SR) (iss : Iss) (s : State) : Res := aluSR o iss (fun x y => if x < y then y else x) s
def semPopc (o : SU) (iss : Iss) (s : State) : Res := aluSU o iss (fun x => .ofNat 64 (popcount x)) s
def semClz (o : SU) (iss : Iss) (s : State) : Res := aluSU o iss (fun x => .ofNat 64 (leadingZeros x)) s
def semCtz (o : SU) (iss : Iss) (s : State) : Res := aluSU o iss (fun x => .ofNat 64 (trailingZeros x)) s
def semBext (o : SR) (iss : Iss) (s : State) : Res := aluSR o iss bitExtract s
/-- `bins` also reads the old destination (R104). -/
def semBins (o : SR) (iss : Iss) (s : State) : Res := aluSR o iss (bitInsert (rs iss o.rd)) s
def semCmpeq (o : SR) (iss : Iss) (s : State) : Res := cmpSR o iss (· == ·) s
def semCmpne (o : SR) (iss : Iss) (s : State) : Res := cmpSR o iss (· != ·) s
def semCmplt (o : SR) (iss : Iss) (s : State) : Res := cmpSR o iss BitVec.slt s
def semCmpltu (o : SR) (iss : Iss) (s : State) : Res := cmpSR o iss BitVec.ult s
def semCmple (o : SR) (iss : Iss) (s : State) : Res := cmpSR o iss BitVec.sle s
def semCmpleu (o : SR) (iss : Iss) (s : State) : Res := cmpSR o iss BitVec.ule s
def semGand (o : SR) (iss : Iss) (s : State) : Res := guardSR o iss (· && ·) s
def semGor (o : SR) (iss : Iss) (s : State) : Res := guardSR o iss (· || ·) s
def semGxor (o : SR) (iss : Iss) (s : State) : Res := guardSR o iss (· != ·) s
def semGnot (o : SU) (iss : Iss) (s : State) : Res := guarded iss o.g s (.ok (wrG s o.rd (!(rg iss o.ra))))
def semAddSi (o : SI) (iss : Iss) (s : State) : Res := aluSI o iss (fun x i => x + i.signExtend 64) s
def semAndSi (o : SI) (iss : Iss) (s : State) : Res := aluSI o iss (fun x i => x &&& i.signExtend 64) s
def semOrSi (o : SI) (iss : Iss) (s : State) : Res := aluSI o iss (fun x i => x ||| i.signExtend 64) s
def semXorSi (o : SI) (iss : Iss) (s : State) : Res := aluSI o iss (fun x i => x ^^^ i.signExtend 64) s
def semShlSi (o : SI) (iss : Iss) (s : State) : Res := aluSI o iss (fun x i => x <<< i.toNat) s
def semShrSi (o : SI) (iss : Iss) (s : State) : Res := aluSI o iss (fun x i => x >>> i.toNat) s
def semSraSi (o : SI) (iss : Iss) (s : State) : Res := aluSI o iss (fun x i => x.sshiftRight i.toNat) s
def semCmpeqSi (o : SI) (iss : Iss) (s : State) : Res := cmpSI o iss (· == ·) s
def semCmpltSi (o : SI) (iss : Iss) (s : State) : Res := cmpSI o iss BitVec.slt s
def semCmpltuSi (o : SI) (iss : Iss) (s : State) : Res := cmpSI o iss BitVec.ult s
/-- `movi` (R101). -/
def semMovi (o : SJ) (iss : Iss) (s : State) : Res := aluSJ o iss (fun _ i => i) s
/-- Bits lo to lo + n − 1 of a register replaced (R101). -/
def insertBits (d : W64) (lo n v : Nat) : W64 := (d &&& ~~~(lowMask n <<< lo)) ||| (BitVec.ofNat 64 (v % 2 ^ n) <<< lo)
def semMovkH1 (o : SJ) (iss : Iss) (s : State) : Res := aluSJ o iss (fun d _ => insertBits d 14 14 o.imm.toNat) s
def semMovkH2 (o : SJ) (iss : Iss) (s : State) : Res := aluSJ o iss (fun d _ => insertBits d 28 14 o.imm.toNat) s
def semMovkH3 (o : SJ) (iss : Iss) (s : State) : Res := aluSJ o iss (fun d _ => insertBits d 42 14 o.imm.toNat) s
def semMovkH4 (o : SK) (iss : Iss) (s : State) : Res :=
  guarded iss o.g s (.ok (wrS s o.rd (insertBits (rs iss o.rd) 56 8 o.imm.toNat)))
def semAddSj (o : SJ) (iss : Iss) (s : State) : Res := aluSJ o iss (· + ·) s
def semAndSj (o : SJ) (iss : Iss) (s : State) : Res := aluSJ o iss (· &&& ·) s
def semOrSj (o : SJ) (iss : Iss) (s : State) : Res := aluSJ o iss (· ||| ·) s
def semXorSj (o : SJ) (iss : Iss) (s : State) : Res := aluSJ o iss (· ^^^ ·) s

/-! ### Scratchpad access (R97, R105) -/

/-- The byte address of a scalar access. -/
def smAddr (o : SM) (iss : Iss) (size : Nat) : Except Stop Nat :=
  scrAddr (bGet iss.v.r o.b.toNat) (o.off.toInt * size) size size
/-- A load of `size` bytes. -/
def loadSM (o : SM) (iss : Iss) (size : Nat) (sx : Bool) (s : State) : Res :=
  guarded iss o.g s do
    let a ← smAddr o iss size
    let s ← touch s (scrUnits a size)
    let v := leNat (scrRead iss a size)
    .ok (wrS s o.r (if sx then .ofInt 64 (signed (8 * size) v) else .ofNat 64 v))
/-- A store of the low `size` bytes. -/
def storeSM (o : SM) (iss : Iss) (size : Nat) (s : State) : Res :=
  guarded iss o.g s do
    let a ← smAddr o iss size
    let s ← touch s (scrUnits a size)
    .ok (watchStore (clearSpin (scrWrite s a (leBytes size (rs iss o.r).toNat))) iss o.g [(0xA000000000000000 + a, size)])

def semSld8 (o : SM) (iss : Iss) (s : State) : Res := loadSM o iss 1 true s
def semSld16 (o : SM) (iss : Iss) (s : State) : Res := loadSM o iss 2 true s
def semSld32 (o : SM) (iss : Iss) (s : State) : Res := loadSM o iss 4 true s
def semSld64 (o : SM) (iss : Iss) (s : State) : Res := loadSM o iss 8 true s
def semSldz8 (o : SM) (iss : Iss) (s : State) : Res := loadSM o iss 1 false s
def semSldz16 (o : SM) (iss : Iss) (s : State) : Res := loadSM o iss 2 false s
def semSldz32 (o : SM) (iss : Iss) (s : State) : Res := loadSM o iss 4 false s
def semSst8 (o : SM) (iss : Iss) (s : State) : Res := storeSM o iss 1 s
def semSst16 (o : SM) (iss : Iss) (s : State) : Res := storeSM o iss 2 s
def semSst32 (o : SM) (iss : Iss) (s : State) : Res := storeSM o iss 4 s
def semSst64 (o : SM) (iss : Iss) (s : State) : Res := storeSM o iss 8 s

/-- `lop3` (R103): bit i of the result is bit 4 sa[i] + 2 sb[i] + sd[i] of the table. -/
def lop3Value (tbl : Nat) (a b d : W64) : W64 :=
  let t := fun k (x : W64) => if bitAt tbl k then x else 0
  t 7 (a &&& b &&& d) ||| t 6 (a &&& b &&& ~~~d) ||| t 5 (a &&& ~~~b &&& d) ||| t 4 (a &&& ~~~b &&& ~~~d) |||
  t 3 (~~~a &&& b &&& d) ||| t 2 (~~~a &&& b &&& ~~~d) ||| t 1 (~~~a &&& ~~~b &&& d) ||| t 0 (~~~a &&& ~~~b &&& ~~~d)
def semLop3 (o : Lop) (iss : Iss) (s : State) : Res :=
  .ok (wrS s o.rd (lop3Value (64 * o.th.toNat + o.tl.toNat) (rs iss o.ra) (rs iss o.rb) (rs iss o.rd)))

/-! ### Forms and rotation (R106, R107) -/

/-- Whether a value lies in the range of a form field: rows, cols, step, astep. -/
def fsetRange (fld : BitVec 2) (v : Int) : Bool :=
  match fld.toNat with
  | 0 => decide (1 ≤ v ∧ v ≤ 16)
  | 1 => decide (1 ≤ v ∧ v ≤ 64)
  | 2 => decide (-2048 ≤ v ∧ v ≤ 2047)
  | _ => decide (-(2 ^ 31) ≤ v ∧ v < 2 ^ 31)
/-- A form word with one field written. -/
def fsetWord (w : W64) (fld : BitVec 2) (v : Int) : W64 :=
  match fld.toNat with
  | 0 => insertBits w 10 4 (v - 1).toNat
  | 1 => insertBits w 14 6 (v - 1).toNat
  | 2 => insertBits w 20 12 (BitVec.ofInt 12 v).toNat
  | _ => insertBits w 32 32 (BitVec.ofInt 32 v).toNat
/-- A write of one field of a form's shadow. -/
def fsetShadow (s : State) (slot : BitVec 3) (form fld : BitVec 2) (v : Int) : State :=
  let i := formIdx slot.toNat form.toNat + 1
  { s with cx := { s.cx with ctl := { s.cx.ctl with forms := s.cx.ctl.forms.setIfInBounds i (fsetWord (formWord s.cx.ctl i) fld v) } } }
def semFset (o : SF) (iss : Iss) (s : State) : Res :=
  guarded iss o.g s do
    must (fsetRange o.fld o.imm.toInt) illegalForm
    .ok (fsetShadow s o.slot o.form o.fld o.imm.toInt)
def semFsetReg (o : SFR) (iss : Iss) (s : State) : Res :=
  guarded iss o.g s do
    must (fsetRange o.fld (rs iss o.s).toInt) illegalForm
    .ok (fsetShadow s o.slot o.form o.fld (rs iss o.s).toInt)
/-- The file of a one-bit file field. -/
def fileSide (f : BitVec 1) : Side := if f = 0 then .a else .b
def semVrot (o : SV) (iss : Iss) (s : State) : Res :=
  guarded iss o.g s do
    must (decide (o.base.toNat % 16 = 0)) illegalForm
    .ok { s with cx := setVFile s.cx (fileSide o.file) { vfile s.cx (fileSide o.file) with base := o.base, rot := 0 } }

/-! ### Copies between files (R108) -/

/-- Whether a copy-slot result register waits for its transfer (10 R208), and for which. -/
def pendingOf (x : Ctx) (ch : Side) (n : Nat) : Option W32 :=
  let c := match ch with | .a => x.con.c0 | .b => x.con.c1
  c.xfers.findSome? fun t => if (resultRegs t.op).contains n then some t.tid else none
where
  /-- The registers that a copy operation writes at completion (10 R208, R222-R227, R236). -/
  resultRegs : CSyl → List Nat
    | .ld64 o => [o.s.toNat]
    | .scLd64 o => [o.s.toNat]
    | .atomAdd o => [o.s.toNat + 1] | .atomAnd o => [o.s.toNat + 1] | .atomOr o => [o.s.toNat + 1] | .atomXor o => [o.s.toNat + 1]
    | .atomMax o => [o.s.toNat + 1] | .atomMin o => [o.s.toNat + 1] | .atomSwap o => [o.s.toNat + 1] | .atomCas o => [o.s.toNat + 1]
    | .msaCas4 o => [o.s.toNat, o.s.toNat + 1, o.s.toNat + 2, o.s.toNat + 3, o.s.toNat + 4]
    | .msaEnq o => [o.s.toNat + 1] | .msaDeq o => [o.s.toNat + 1]
    | .msaChase o => [o.s.toNat, o.s.toNat + 1]
    | .scSwap o => [o.s.toNat + 1] | .scAdd o => [o.s.toNat + 1]
    | _ => []
/-- A use of a d or e register waits for a pending result (10 R208). -/
def waitReg (iss : Iss) (ch : Side) (n : Nat) : Except Stop Unit :=
  match pendingOf iss.v ch n with
  | some _ => .error (.hold .late)
  | none => .ok ()

def semCpyFromS (o : SX) (iss : Iss) (s : State) : Res :=
  guarded iss o.g s do
    let v := rs iss o.s
    match o.file.toNat with
    | 0 => .ok (putR s (bSet s.cx.r o.reg.toNat (v.setWidth 32)))
    | 2 => do
      waitReg iss .a o.reg.toNat
      .ok (putR s (deSet s.cx.r .a o.reg.toNat v))
    | 3 => do
      waitReg iss .b o.reg.toNat
      .ok (putR s (deSet s.cx.r .b o.reg.toNat v))
    | 4 => vector .a v s
    | _ => vector .b v s
where
  /-- Every lane of a vector register takes the low word, through the cross-file port (R41). -/
  vector (sd : Side) (v : W64) (s : State) : Res := do
    let p := phys (vfile iss.v sd) o.reg.toNat
    let s ← touch s [vUnit sd p]
    .ok { s with cx := rowSet s.cx sd p (ofLanes 32 2048 (fun _ => v.setWidth 32) 64) }

def semCpyToS (o : SX) (iss : Iss) (s : State) : Res :=
  guarded iss o.g s do
    match o.file.toNat with
    | 0 => .ok (wrS s o.s ((bGet iss.v.r o.reg.toNat).setWidth 64))
    | 1 =>
      let l := loopGet iss.v.r (o.reg.toNat / 4)
      let v := match o.reg.toNat % 4 with
        | 0 => l.count
        | 1 => l.stages
        | _ => .ofNat 32 l.iter
      .ok (wrS s o.s (v.setWidth 64))
    | 2 => do
      waitReg iss .a o.reg.toNat
      .ok (wrS s o.s (deGet iss.v.r .a o.reg.toNat))
    | 3 => do
      waitReg iss .b o.reg.toNat
      .ok (wrS s o.s (deGet iss.v.r .b o.reg.toNat))
    | 4 => vector .a s
    | _ => vector .b s
where
  /-- Lane 0 of a vector register, sign-extended. -/
  vector (sd : Side) (s : State) : Res := do
    let p := phys (vfile iss.v sd) o.reg.toNat
    let s ← touch s [vUnit sd p]
    .ok (wrS s o.s ((lane 32 (rowGet iss.v sd p) 0).signExtend 64))

/-! ### Waiting on transfers (R109) -/

/-- A channel of a context. -/
def chanOf (x : Ctx) (ch : Side) : Chan :=
  match ch with
  | .a => x.con.c0
  | .b => x.con.c1
/-- Replaces a channel. -/
def setChan (x : Ctx) (ch : Side) (c : Chan) : Ctx :=
  match ch with
  | .a => { x with con := { x.con with c0 := c } }
  | .b => { x with con := { x.con with c1 := c } }
/-- Whether a drain of the context into another package is still unacknowledged (06 R150, 11 R237). -/
def drainsOut (s : State) (c : CtxId) (x : Ctx) : Bool := s.fabric.held.any fun h => h.owner == (c, none) && h.key.tag == x.con.tag
/-- %done (10 R206): the oldest incomplete transfer, or %tid + 1. -/
def chanDone (c : Chan) : W32 :=
  match c.xfers with
  | [] => c.tid + 1
  | t :: _ => t.tid
/-- Whether transfer `t` has been issued, and whether it has completed (R109). -/
def tidIssued (c : Chan) (t : W32) : Bool := decide ((c.tid - t).toNat < 2 ^ 31)
def tidComplete (c : Chan) (t : W32) : Bool := decide (1 ≤ (chanDone c - t).toNat ∧ (chanDone c - t).toNat ≤ 2 ^ 31)
/-- The failure that a `wdone` on `t` reports: the oldest entry not younger than `t` (10 R212). -/
def failureUpTo (c : Chan) (t : W32) : Option (W32 × Byte) := c.fails.find? fun f => decide ((t - f.1).toNat < 2 ^ 31)
/-- The trap that reports a failed transfer (10 R212, 16 R315). -/
def failTrap (ch : Side) (f : W32 × Byte) : Stop :=
  .trap { code := f.2, val := f.1.setWidth 64, chan := some ch, dropFail := some (ch, f.1) }
def semWdone (o : SW) (iss : Iss) (s : State) : Res :=
  guarded iss o.g s do
    let ch : Side := if o.ch = 0 then .a else .b
    let c := chanOf iss.v ch
    let t : W32 := (rs iss o.s).setWidth 32
    must (tidIssued c t) illegalForm
    if tidComplete c t then
      match failureUpTo c t with
      | some f => .error (failTrap ch f)
      | none => .ok s
    else .ok (putRun s { s.cx.run with hold := some (.wdone ch t) })

end Sys2Proof.Machine
end

