-- ==== Sys2Proof/Machine/Transfer.lean ====
section
/-! DEFINITION. What a copy syllable names (10 R207), how the channels perform transfers (10 R210-R228, 09 R179) and how packets carry those that
lead to another package (11 R237). -/

namespace Sys2Proof.Machine

/-! ### Views of copy syllables (03 R56, 10 R207, R213) -/

/-- The kind of a copy operation. -/
inductive CKind
  | copy (dims : Nat) | gather | scatter | mcast | send | recv | bank (k : Nat) | arrive | wait | fence | reset
  | store (n : Nat) | load | atom (k : Nat) | cas4 | enq | deq | chase | sc (k : Nat)
  deriving DecidableEq, Repr

/-- What a copy syllable names: registers read in order, results, which of the first two registers are addresses, stream, scope, flags, form. -/
structure CView where
  kind : CKind
  g : BitVec 4
  regs : List Nat
  outs : List Nat := []
  ax : Bool := true
  ay : Bool := true
  stream : BitVec 4 := 0
  scope : BitVec 3 := 0
  acq : Bool := false
  rel : Bool := false
  form : BitVec 2 := 0
  sw : Bool := false
  cs : Bool := false
  deriving DecidableEq, Repr

/-- View of a CA syllable. -/
def caView (o : CA) (kind : CKind) (more : List Nat) (ax ay : Bool) : CView :=
  { kind := kind, g := o.g, regs := o.d.toNat :: more, ax := ax, ay := ay, form := o.form, sw := o.sw == 1 }
/-- View of a CS syllable: `n` registers beyond src are read. -/
def csView (o : CS) (kind : CKind) (n : Nat) (outs : List Nat) (ax ay : Bool) : CView :=
  { kind := kind, g := o.g, regs := o.d.toNat :: (List.range (n + 1)).map (o.s.toNat + ·), outs := outs, ax := ax, ay := ay, stream := o.stream
    scope := o.scope, acq := o.acq == 1, rel := o.rel == 1, cs := true }
/-- The registers src, len and those that follow len. -/
def slRegs (o : CA) (n : Nat) : List Nat := o.s.toNat :: (List.range n).map (o.len.toNat + ·)
/-- Result registers src + i. -/
def sOuts (o : CS) (l : List Nat) : List Nat := l.map (o.s.toNat + ·)

/-- The view of every copy syllable. -/
def cView : CSyl → CView
  | .copy1d o => caView o (.copy 1) (slRegs o 1) true true
  | .copy2d o => caView o (.copy 2) (slRegs o 2) true true
  | .copy3d o => caView o (.copy 3) (slRegs o 4) true true
  | .gather o => caView o .gather (slRegs o 2) true true
  | .scatter o => caView o .scatter (slRegs o 2) true true
  | .mcast o => caView o .mcast (slRegs o 1) true true
  | .send o => caView o .send (slRegs o 1) false true
  | .recv o => caView o .recv [o.s.toNat] true false
  | .bankWadd o => caView o (.bank 0) (slRegs o 1) true true
  | .bankAdd o => caView o (.bank 1) (slRegs o 1) true true
  | .bankMax o => caView o (.bank 2) (slRegs o 1) true true
  | .bankMin o => caView o (.bank 3) (slRegs o 1) true true
  | .barArrive o => caView o .arrive [] false false
  | .barWait o => caView o .wait [] false false
  | .sfence o => caView o .fence [] false false
  | .srst o => caView o .reset [] false false
  | .copy1dCs o => csView o (.copy 1) 1 [] true true
  | .copy2dCs o => csView o (.copy 2) 2 [] true true
  | .copy3dCs o => csView o (.copy 3) 4 [] true true
  | .gatherCs o => csView o .gather 2 [] true true
  | .scatterCs o => csView o .scatter 2 [] true true
  | .st32 o => csView o (.store 4) 0 [] true false
  | .st64 o => csView o (.store 8) 0 [] true false
  | .ld64 o => { csView o .load 0 (sOuts o [0]) true false with regs := [o.d.toNat] }
  | .atomAdd o => csView o (.atom 0) 0 (sOuts o [1]) true false
  | .atomAnd o => csView o (.atom 1) 0 (sOuts o [1]) true false
  | .atomOr o => csView o (.atom 2) 0 (sOuts o [1]) true false
  | .atomXor o => csView o (.atom 3) 0 (sOuts o [1]) true false
  | .atomMax o => csView o (.atom 4) 0 (sOuts o [1]) true false
  | .atomMin o => csView o (.atom 5) 0 (sOuts o [1]) true false
  | .atomSwap o => csView o (.atom 6) 0 (sOuts o [1]) true false
  | .atomCas o => csView o (.atom 7) 1 (sOuts o [1]) true false
  | .msaCas4 o => csView o .cas4 8 (sOuts o [0, 1, 2, 3, 4]) true false
  | .msaEnq o => csView o .enq 0 (sOuts o [1]) true true
  | .msaDeq o => csView o .deq 0 (sOuts o [1]) true true
  | .msaChase o => csView o .chase 1 (sOuts o [0, 1]) true false
  | .scLd64 o => { csView o (.sc 0) 0 (sOuts o [0]) true false with regs := [o.d.toNat] }
  | .scSt64 o => csView o (.sc 1) 0 [] true false
  | .scSwap o => csView o (.sc 2) 0 (sOuts o [1]) true false
  | .scAdd o => csView o (.sc 3) 0 (sOuts o [1]) true false

/-- Whether an operation reads memory as part of its transfer. -/
def kindReads : CKind → Bool
  | .store _ => false
  | .sc k => k != 1
  | .arrive => false
  | .wait => false
  | .fence => false
  | .reset => false
  | .mcast => false
  | .send => false
  | .recv => false
  | _ => true
/-- Whether an operation writes memory. -/
def kindWrites : CKind → Bool
  | .load => false
  | .chase => false
  | .sc k => k != 0
  | .arrive => false
  | .wait => false
  | .fence => false
  | .reset => false
  | .recv => false
  | _ => true

/-- A captured register value of a transfer. -/
def xarg (t : Xfer) (i : Nat) : W64 := (t.args[i]?).getD 0
/-- Class of an address is 0xA with a kind (09 R169). -/
def isKind (k : Nat) (a : W64) : Bool := bits a.toNat 60 4 == 0xA && bits a.toNat 58 2 == k
/-- Whether a transfer names a cluster mate's scratchpad (10 R216). -/
def namesMate (t : Xfer) : Bool :=
  let w := cView t.op
  (w.ax && isKind 1 t.x) || (w.ay && isKind 1 t.y)

/-! ### Ranges -/

/-- Why a range cannot be accessed: a completion status, or a wait; `late` says that the wait brakes a primary's cluster (09 R177, R178). -/
inductive RStop
  | status (e : Byte)
  | wait (late : Bool)
  deriving DecidableEq, Repr

/-- A scratchpad-window range that passes the end of the scratchpad (R210). -/
def scrPast (va n : Nat) : Bool := bits va 60 4 == 0xA && decide (2 ^ 21 < bits va 0 21 + n)
/-- Where a piece lies, once its scratchpad unit is present. -/
def siteOf (s : State) (c : CtxId) (va n : Nat) (need : Need) : Except RStop Site :=
  if scrPast va n then .error (.status scratchRange)
  else match locate s c va n need with
    | .error e => .error (.status e)
    | .ok t => if (absentAt s t.place).isSome then .error (.wait false) else .ok t
/-- Reads a range of a context's addresses, class by class. -/
def readRange (s : State) (c : CtxId) (va n : Nat) : Except RStop (List Byte × List Place) :=
  if scrPast va n then .error (.status scratchRange)
  else (ctxPieces s c va n).foldlM (fun acc p => do
    let t ← siteOf s c p.1 p.2 { r := true }
    match t.place with
    | .main pa => if canRead s c pa then .ok (acc.1 ++ readMain s (dieOf s c) pa p.2, acc.2 ++ [t.place]) else .error (.wait true)
    | q => .ok (acc.1 ++ readPlace s (dieOf s c) s.free q p.2, acc.2 ++ [q])) ([], [])
/-- Writes at a site. -/
def putSite (s : State) (c : CtxId) (t : Site) (l : List Byte) : State :=
  match t.place with
  | .main pa => noteSite (writeMain s c pa l) c t
  | q => stampAt (writePlace s c q l) q
/-- Writes at a site, once a replicated page takes the write (09 R178). -/
def writeSite (s : State) (c : CtxId) (t : Site) (l : List Byte) : Except RStop State :=
  match t.place with
  | .main pa => if replicaMask s pa = 0 ∨ canRepWrite s (dieOf s c) 1 then .ok (putSite s c t l) else .error (.wait true)
  | _ => .ok (putSite s c t l)
/-- Writes a range of a context's addresses. None of the classes of 09 R168-R171 leads into the instruction scratchpad, so there is no check for the
template store's bytes of 03 R37 (DEDUCED, log entry 106). -/
def writeRange (s : State) (c : CtxId) (va : Nat) (l : List Byte) : Except RStop State :=
  if scrPast va l.length then .error (.status scratchRange)
  else do
    let r ← (ctxPieces s c va l.length).foldlM (fun (acc : State × List Byte) p => do
      let t ← siteOf acc.1 c p.1 p.2 { w := true }
      let s ← writeSite acc.1 c t (acc.2.take p.2)
      .ok (s, acc.2.drop p.2)) (s, l)
    .ok r.1

/-! ### Segments of copies (R214, R215) -/

/-- Low or high half of a descriptor register. -/
def lo32 (x : W64) : Nat := bits x.toNat 0 32
def hi32 (x : W64) : Nat := bits x.toNat 32 32
/-- An address plus a signed offset, modulo 2^64. -/
def addrPlus (a : W64) (v : Int) : Nat := (a + BitVec.ofInt 64 v).toNat
/-- Runs of a copy of `dims` dimensions: destination, source, bytes. -/
def copySegs (t : Xfer) (dims : Nat) : List (Nat × Nat × Nat) :=
  let n0 := lo32 (xarg t 2)
  let k1 := if 2 ≤ dims then hi32 (xarg t 2) else 1
  let k2 := if dims = 3 then lo32 (xarg t 4) else 1
  let t1 := signed 32 (hi32 (xarg t 3))
  let s1 := signed 32 (lo32 (xarg t 3))
  let t2 := signed 32 (hi32 (xarg t 5))
  let s2 := signed 32 (lo32 (xarg t 5))
  if n0 = 0 then [] else
    (List.range k2).flatMap fun (i2 : Nat) => (List.range k1).map fun (i1 : Nat) =>
      (addrPlus t.x (i2 * t2 + i1 * t1), addrPlus t.y (i2 * s2 + i1 * s1), n0)
/-- The index list of a gather or scatter, from the issuing core's scratchpad. -/
def indexList (s : State) (c : CtxId) (t : Xfer) : Except RStop (List Nat) :=
  let n := hi32 (xarg t 2)
  let off := bits (xarg t 3).toNat 0 21
  if n = 0 then .ok []
  else do
    let r ← readRange s c (0xA000000000000000 + off) (4 * n)
    .ok ((List.range n).map fun j => leNat ((r.1.drop (4 * j)).take 4))
/-- Bytes of an element of a die-shared-memory block by its format byte, 0 where no bank operation accepts it (R228). -/
def bankSize (f : Byte) : Nat :=
  match f.toNat with
  | 0x80 => 32
  | 0x84 => 32
  | 0x14 => 4
  | 0x18 => 4
  | 0x40 => 4
  | 0x1C => 8
  | 0x20 => 8
  | _ => 0
/-- The format byte of the destination block of a bank operation. -/
def bankFmt (s : State) (c : CtxId) (x : W64) : Byte :=
  match locate s c x.toNat 1 {} with
  | .ok t => t.fmt
  | .error _ => 0
/-- The runs that a transfer reads and writes. -/
def segsOf (s : State) (c : CtxId) (t : Xfer) : Except RStop (List (Nat × Nat × Nat)) :=
  match (cView t.op).kind with
  | .copy d => .ok (copySegs t d)
  | .gather => do
    let e := bits (xarg t 2).toNat 0 13
    let l ← indexList s c t
    .ok (l.zipIdx.map fun p => (addrPlus t.x (p.2 * e), addrPlus t.y (p.1 * e), e))
  | .scatter => do
    let e := bits (xarg t 2).toNat 0 13
    let l ← indexList s c t
    .ok (l.zipIdx.map fun p => (addrPlus t.x (p.1 * e), addrPlus t.y (p.2 * e), e))
  | .bank _ => .ok [(t.x.toNat, t.y.toNat, lo32 (xarg t 2) * bankSize (bankFmt s c t.x))]
  | .enq => .ok [(t.x.toNat, t.y.toNat, 64)]
  | .deq => .ok [(t.y.toNat, t.x.toNat, 64)]
  | .cas4 => .ok [(t.x.toNat, t.x.toNat, 32)]
  | .store n => .ok [(t.x.toNat, t.x.toNat, n)]
  | _ => .ok [(t.x.toNat, t.x.toNat, 8)]
/-- A run cut where either side passes from one peer entry, or one address class, to the next. -/
def cutSeg : Nat → Nat × Nat × Nat → List (Nat × Nat × Nat)
  | 0, _ => []
  | fuel + 1, g =>
    if g.2.2 = 0 then []
    else
      let k := min g.2.2 (min (2 ^ 48 - g.1 % 2 ^ 48) (2 ^ 48 - g.2.1 % 2 ^ 48))
      (g.1 % 2 ^ 64, g.2.1 % 2 ^ 64, k) :: cutSeg fuel (g.1 + k, g.2.1 + k, g.2.2 - k)

/-! ### Copies inside the package (R211, R214) -/

/-- A run cut where either side ends a 4 KiB unit, or what lies behind an export window of the package does. -/
def splitSeg (s : State) (c : CtxId) (g : Nat × Nat × Nat) : List (Nat × Nat × Nat) :=
  (ctxPieces s c g.1 g.2.2).flatMap fun p =>
    let y := g.2.1 + ((p.1 + 2 ^ 64 - g.1) % 2 ^ 64)
    (ctxPieces s c y p.2).map fun q => ((p.1 + ((q.1 + 2 ^ 64 - y % 2 ^ 64) % 2 ^ 64)) % 2 ^ 64, q.1, q.2)
/-- The bytes of `n` addresses from `va` on that came as replies to a transfer's packets; where only a later acknowledgement freed one, free bytes
(log entry 17). -/
def replyBytes (s : State) (t : Xfer) (va n : Nat) : List Byte :=
  (List.range n).map fun i =>
    match t.asks.find? fun q => decide (q.2.1 ≤ va + i ∧ va + i < q.2.1 + q.2.2) with
    | some q => ((t.reply.find? fun r => r.1 == q.1).bind fun r => r.2[va + i - q.2.1]?).getD (Config.peerByte s.free (256 * q.1.seq.toNat + (va + i - q.2.1)))
    | none => Config.peerByte s.free (va + i)
/-- The source bytes of a piece: from memory, or from the replies of another package. -/
def pieceData (s : State) (c : CtxId) (t : Xfer) (va n : Nat) : Except RStop (List Byte × List Place) :=
  if (remoteOf s c va).isSome then .ok (replyBytes s t va n, []) else readRange s c va n
/-- What became of one piece: its site and bytes, or a status; a wait ends the whole. -/
def pieceOf (s : State) (c : CtxId) (t : Xfer) (p : Nat × Nat × Nat) : Except Bool (Except Byte (Site × List Byte × List Place)) :=
  match pieceData s c t p.2.1 p.2.2, siteOf s c p.1 p.2.2 { w := true } with
  | .error (.wait l), _ => .error l
  | _, .error (.wait l) => .error l
  | .error (.status e), _ => .ok (.error e)
  | _, .error (.status e) => .ok (.error e)
  | .ok d, .ok g => .ok (.ok (g, d.1, d.2))
/-- All pieces with their place in the transfer's bytes. -/
def piecesAll (s : State) (c : CtxId) (segs : List (Nat × Nat × Nat)) : List ((Nat × Nat × Nat) × Nat) :=
  (segs.flatMap fun g => if scrPast g.1 g.2.2 ∨ scrPast g.2.1 g.2.2 then [g] else splitSeg s c g).foldl
    (fun (acc : List ((Nat × Nat × Nat) × Nat)) p => acc ++ [(p, match acc.getLast? with
      | some (q, a) => a + q.2.2
      | none => 0)]) []
/-- Bytes over old ones where the free choice of a failing transfer takes them (R211). -/
def maybeWrite (s : State) (c : CtxId) (k : Nat) (at_ : Nat) (t : Site) (l : List Byte) : State :=
  let old := readPlace s (dieOf s c) k t.place l.length
  putSite s c t (l.zipIdx.map fun b => if Config.failedCopyByte k (at_ + b.2) then b.1 else (old[b.2]?).getD b.1)
/-- Whether a site lies in a replicated page. -/
def replicated (s : State) (t : Site) : Bool :=
  match t.place with
  | .main pa => replicaMask s pa != 0
  | _ => false
/-- A copy's pieces with what became of each, or a wait. -/
def copyPieces (s : State) (c : CtxId) (t : Xfer) : Except Bool (List (((Nat × Nat × Nat) × Nat) × Except Byte (Site × List Byte × List Place))) :=
  (piecesAll s c t.segs).mapM fun p => (pieceOf s c t p.1).map fun r => (p, r)
/-- The pieces that can be copied. -/
def goodPieces (l : List (((Nat × Nat × Nat) × Nat) × Except Byte (Site × List Byte × List Place))) :
    List (((Nat × Nat × Nat) × Nat) × (Site × List Byte × List Place)) :=
  l.filterMap fun p => match p.2 with
    | .ok r => some (p.1, r)
    | .error _ => none
/-- A failing copy has written some of the bytes that it could write (R211). -/
def copySome (s : State) (c : CtxId) (l : List (((Nat × Nat × Nat) × Nat) × (Site × List Byte × List Place))) : State :=
  l.foldl (fun t p => maybeWrite t c s.free p.1.2 p.2.1 p.2.2.1) { s with free := s.free + 1 }
/-- A copy: a wait, or the state after, the status and the bytes that go to other packages. All of its sources are read before it writes; a failing
one has written some of its bytes inside the package, and sends none (R211, log entry 13). -/
def copyLocal (s : State) (c : CtxId) (t : Xfer) : Except Bool (State × Byte × List (Nat × Byte)) := do
  let ps ← copyPieces s c t
  let bad := ps.findSome? fun p => match p.2 with
    | .error e => some e
    | .ok _ => none
  let good := goodPieces ps
  let reps := (good.filter fun p => replicated s p.2.1).length
  if reps ≠ 0 ∧ !(canRepWrite s (dieOf s c) reps) then .error true
  else match bad with
  | none =>
    let s1 := good.foldl (fun s p => putSite s c p.2.1 p.2.2.1) s
    .ok (noteTouch s1 c (good.flatMap fun p => p.2.2.2), 0, (good.filter fun p => (remoteOf s c p.1.1.1).isSome).flatMap fun p =>
      p.2.2.1.zipIdx.map fun b => (p.1.1.1 + b.2, b.1))
  | some e =>
    let none_ := ps.any (fun p => match p.2 with
      | .error e => e == peerFault
      | .ok _ => false) || (match ps with
      | (_, .error _) :: _ => true
      | _ => false)
    .ok (if none_ then s else copySome s c good, e, [])

/-! ### Single words (R222, R223, R236) -/

/-- The new word of an atomic operation. -/
def atomNew (k : Nat) (w v e : W64) : W64 :=
  match k with
  | 0 => w + v
  | 1 => w &&& v
  | 2 => w ||| v
  | 3 => w ^^^ v
  | 4 => if w.slt v then v else w
  | 5 => if v.slt w then v else w
  | 6 => v
  | _ => if w = v then e else w
/-- A word of `n` bytes at its primary (09 R189): old value and site. -/
def wordAt (s : State) (c : CtxId) (va n : Nat) (need : Need) : Except RStop (Nat × Site) := do
  let t ← siteOf s c va n need
  let l := match t.place with
    | .main pa => readPa s pa n
    | q => readPlace s (dieOf s c) s.free q n
  .ok (leNat l, t)
/-- Reads, changes and writes an aligned word: old value and the state after. -/
def rmw (s : State) (c : CtxId) (va : Nat) (need : Need) (f : W64 → Option W64) : Except RStop (W64 × State) := do
  let (w, t) ← wordAt s c va 8 need
  let s := noteTouch s c [t.place]
  match f (.ofNat 64 w) with
  | none => .ok (.ofNat 64 w, s)
  | some v => do
    let s ← writeSite s c t (leBytes 8 v.toNat)
    .ok (.ofNat 64 w, s)
def needRWA : Need := { r := true, w := true, a := true }

/-! ### Memory-side agents (R224-R227) -/

/-- A word of main memory at its primary; any other place has status PERMISSION (R224). -/
def mainWord (s : State) (c : CtxId) (va n : Nat) : Except RStop (Nat × Site) := do
  let (w, t) ← wordAt s c va n needRWA
  match t.place with
  | .main _ => .ok (w, t)
  | _ => .error (.status permission)
/-- `msa.cas4` (R225): words compared and swapped; results for dE and the four words after it. -/
def cas4 (s : State) (c : CtxId) (va : Nat) (m : Nat) (expect new : Nat → W64) : Except RStop (State × List (Nat × W64)) := do
  let (w, t) ← mainWord s c va 32
  let old := fun i => BitVec.ofNat 64 (bits w (64 * i) 64)
  let on := (List.range 4).filter fun i => bitAt m i
  let ok := on.all fun i => old i == expect i
  let s := noteTouch s c [t.place]
  let bytes := (List.range 4).flatMap fun i => leBytes 8 (if bitAt m i then new i else old i).toNat
  let s ← if ok then writeSite s c t bytes else .ok s
  .ok (s, (0, if ok then 1 else 0) :: on.map fun i => (1 + i, old i))
/-- A queue header: head, tail, base, log of the capacity; status ILLEGAL_FORM if malformed (R226). -/
def queueHeader (w : Nat) : Except RStop (Nat × Nat × Nat × Nat) :=
  let base := bits w 128 64
  let lc := bits w 192 8
  if 20 < lc ∨ bits w 200 312 ≠ 0 ∨ base % 64 ≠ 0 then .error (.status illegalForm) else .ok (bits w 0 64, bits w 64 64, base, lc)
/-- An entry of a queue: its home agent must be the header's, so an array in another package is malformed (R226). -/
def queueEntry (s : State) (c : CtxId) (hd : Site) (base idx lc : Nat) : Except RStop (Nat × Site) := do
  let va := (base + 64 * (idx % 2 ^ lc)) % 2 ^ 64
  if (remoteOf s c va).isSome then .error (.status illegalForm)
  else do
    let (e, t) ← mainWord s c va 64
    match hd.place, t.place with
    | .main a, .main b => if paDie a = paDie b then .ok (e, t) else .error (.status illegalForm)
    | _, _ => .error (.status permission)
/-- Value returned by a full or empty queue. -/
def queueNone : W64 := BitVec.allOnes 64
/-- `msa.enq` (R226). -/
def enqueue (s : State) (c : CtxId) (va : Nat) (entry : List Byte) : Except RStop (State × W64) := do
  let (w, hd) ← mainWord s c va 64
  let (h, tl, base, lc) ← queueHeader w
  let (_, t) ← queueEntry s c hd base tl lc
  let s := noteTouch s c [hd.place]
  if 2 ^ lc ≤ (tl + 2 ^ 64 - h) % 2 ^ 64 then .ok (s, queueNone)
  else do
    let s ← writeSite s c t entry
    let (_, hd) ← mainWord s c ((va + 8) % 2 ^ 64) 8
    let s ← writeSite s c hd (leBytes 8 ((tl + 1) % 2 ^ 64))
    .ok (s, .ofNat 64 tl)
/-- `msa.deq` (R226): the entry is none when the queue is empty. -/
def dequeue (s : State) (c : CtxId) (va : Nat) : Except RStop (State × W64 × Option (List Byte)) := do
  let (w, hd) ← mainWord s c va 64
  let (h, tl, base, lc) ← queueHeader w
  let (e, t) ← queueEntry s c hd base h lc
  let s := noteTouch s c [hd.place, t.place]
  if tl = h then .ok (s, queueNone, none)
  else do
    let (_, hd) ← mainWord s c va 8
    let s ← writeSite s c hd (leBytes 8 ((h + 1) % 2 ^ 64))
    .ok (s, .ofNat 64 h, some (leBytes 64 e))
/-- Whether a pointer may be followed: main memory, or a window of this package that maps it (R227, log entry 97). -/
def chaseable (s : State) (c : CtxId) (p : Nat) : Bool :=
  p % 8 == 0 && (bits p 60 4 < 8 || (bits p 60 4 == 0xC && (remoteOf s c p).isNone))
/-- `msa.chase` (R227): outcome, hops, pointer and the places read. -/
def chase (s : State) (c : CtxId) (keyoff nextoff : Nat) (key : W64) : Nat → Nat → Nat → List Place → Except RStop (Nat × Nat × Nat × List Place)
  | hmax, p, h, ps =>
    if p = 0 then .ok (1, h, p, ps)
    else if !(chaseable s c p) then .ok (3, h, p, ps)
    else match hmax with
      | 0 => .ok (2, h, p, ps)
      | left + 1 => do
        let (kw, k) ← mainWord s c ((p + 8 * keyoff) % 2 ^ 64) 8
        let (nw, n) ← mainWord s c ((p + 8 * nextoff) % 2 ^ 64) 8
        if kw = key.toNat then .ok (0, h + 1, p, ps ++ [k.place, n.place]) else chase s c keyoff nextoff key left nw (h + 1) (ps ++ [k.place, n.place])

/-! ### Bank operations (R228) -/

/-- Format bytes that a bank operation accepts. -/
def bankAccepts (k : Nat) (f : Byte) : Bool :=
  match k with
  | 0 => f == 0x80 || f == 0x84
  | 1 => f == 0x14 || f == 0x18 || f == 0x1C || f == 0x20
  | _ => f == 0x14 || f == 0x18 || f == 0x1C || f == 0x20 || f == 0x40
/-- The combined element. -/
def bankCombine (k : Nat) (f : Byte) (b v : Nat) : Nat :=
  let n := 8 * bankSize f
  let sgn := f = 0x14 ∨ f = 0x1C
  match k with
  | 0 => (if f = 0x84 then pairAdd (.ofNat 256 b) (.ofNat 256 v) else wideAdd (.ofNat 256 b) (.ofNat 256 v)).toNat
  | 1 => (b + v) % 2 ^ n
  | 2 => if f = 0x40 then fmax2 fp32 b v else if sgn then (if signed n b < signed n v then v else b) else max b v
  | _ => if f = 0x40 then fmin2 fp32 b v else if sgn then (if signed n v < signed n b then v else b) else min b v
/-- A source element: of another package as its replies gave it, where the destination has checked its format; else read and checked here. -/
def bankSource (s : State) (c : CtxId) (t : Xfer) (i sz : Nat) (f : Byte) : Except RStop (Nat × List Place) :=
  let va := (t.y.toNat + i * sz) % 2 ^ 64
  if (remoteOf s c va).isSome then .ok (leNat (replyBytes s t va sz), [])
  else do
    let r ← readRange s c va sz
    match locate s c va sz { r := true } with
    | .ok g => if g.fmt = f then .ok (leNat r.1, r.2) else .error (.status formatMismatch)
    | .error e => .error (.status e)
/-- One element: the state after, or a status, or a wait. -/
def bankElem (s : State) (c : CtxId) (t : Xfer) (k : Nat) (f : Byte) (i : Nat) : Except RStop State := do
  let sz := bankSize f
  let d ← siteOf s c ((t.x.toNat + i * sz) % 2 ^ 64) sz { r := true, w := true }
  if !(bankAccepts k f) ∨ d.fmt ≠ f then .error (.status formatMismatch)
  else do
    let v ← bankSource s c t i sz f
    let b := leNat (readPlace s (dieOf s c) s.free d.place sz)
    writeSite (noteTouch s c (d.place :: v.2)) c d (leBytes sz (bankCombine k f b v.1))
/-- The elements of a bank operation, each whole; with a number of a free choice, those that it takes (R211). -/
def bankFold (s : State) (c : CtxId) (t : Xfer) (k : Nat) (free : Option Nat) (s0 : State) : Except Bool (State × Byte) :=
  let f := bankFmt s c t.x
  (List.range (lo32 (xarg t 2))).foldlM (fun (acc : State × Byte) i =>
    match bankElem acc.1 c t k f i with
    | .ok s => .ok (match free with
        | none => (s, acc.2)
        | some q => (if Config.failedCopyByte q i then s else acc.1, acc.2))
    | .error (.status e) => .ok (acc.1, if acc.2 = 0 then e else acc.2)
    | .error (.wait l) => .error l) (s0, 0)
/-- A bank operation: a failing one has performed some of its elements, each whole (R211). -/
def bankAll (s : State) (c : CtxId) (t : Xfer) (k : Nat) : Except Bool (State × Byte) :=
  if lo32 (xarg t 2) = 0 then .ok (s, 0)
  else match siteOf s c t.x.toNat 1 { r := true } with
  | .error (.status e) => .ok (s, e)
  | .error (.wait l) => .error l
  | .ok _ =>
    match bankFold s c t k none s with
    | .error l => .error l
    | .ok r => if r.2 = 0 then .ok r else (bankFold s c t k (some s.free) { s with free := s.free + 1 }).map fun q => (q.1, r.2)

end Sys2Proof.Machine
end

