-- ==== Sys2Proof/Machine/Channel.lean ====
section
/-! DEFINITION. The life of a transfer: what it waits for (09 R179, R181), its packets, its completion (10 R206, R208, R212), watched writes (18 R345). -/

namespace Sys2Proof.Machine

/-! ### What a transfer waits for -/

/-- The transfers of a channel from earlier bundles that have not been performed. -/
def olderOn (x : Ctx) (ch : Side) (t : Xfer) : List Xfer := (chanOf x ch).xfers.filter fun u => decide (u.seq < t.seq) && u.phase != .arrived
/-- Whether an operation is one of the slot wheel's. -/
def isSc (op : CSyl) : Bool :=
  match (cView op).kind with
  | .sc _ => true
  | _ => false
/-- Whether an operation acquires: by its flag, or as an SC operation (09 R187). -/
def acquires (op : CSyl) : Bool := (cView op).acq || isSc op
/-- Whether an operation releases. -/
def releases (op : CSyl) : Bool := (cView op).rel || isSc op
/-- A later command's reads wait for an acquiring command of the channel (R179). -/
def acquireBlocked (x : Ctx) (ch : Side) (t : Xfer) : Bool := kindReads (cView t.op).kind && (olderOn x ch t).any fun u => acquires u.op
/-- Whether a party of a release's scope may read what a transfer writes: writes into other packages only at scope .dom (R172). -/
def covered (s : State) (scope : BitVec 3) (u : Xfer) : Bool :=
  kindWrites (cView u.op).kind && (scope == 5 || !u.planned || u.dests.isEmpty || u.dests.any fun d => decide (4096 ≤ d) || d == s.fw.fab.toNat)
/-- The scope of a release; an SC operation releases to the package (09 R187). -/
def relScope (op : CSyl) : BitVec 3 := if (cView op).rel then (cView op).scope else 4
/-- A releasing write is held until the covered writes of earlier bundles are performed or acknowledged, drains included (R179). -/
def releaseBlocked (s : State) (c : CtxId) (x : Ctx) (ch : Side) (t : Xfer) : Bool :=
  releases t.op &&
    ((olderOn x ch t).any (covered s (relScope t.op)) || (relScope t.op == 5 && drainsOut s c x))
/-- The transfers of one stream issued before another, of both channels, C0 before C1 within a bundle (R181). -/
def olderInStream (x : Ctx) (ch : Side) (t : Xfer) : List Xfer :=
  [Side.a, Side.b].flatMap fun k => (chanOf x k).xfers.filter fun u =>
    (cView u.op).stream == (cView t.op).stream && (decide (u.seq < t.seq) || (u.seq == t.seq && k == .a && ch == .b))
/-- Whether two transfers may lead to one destination. -/
def meets (u t : Xfer) : Bool := !u.planned || u.dests.any t.dests.contains
/-- Accesses of one stream 1 to 15 at one die of the package are performed in order (R181, R182). -/
def streamBlocked (x : Ctx) (ch : Side) (t : Xfer) : Bool :=
  (cView t.op).stream != 0 && (olderInStream x ch t).any fun u =>
    u.phase != .arrived && (!u.planned || u.dests.any fun d => decide (4096 ≤ d) && t.dests.contains d)
/-- Numbers are taken in issue order: an earlier transfer of the stream has its own to take (R181, log entry 98). -/
def numbersWait (x : Ctx) (ch : Side) (t : Xfer) : Bool := (olderInStream x ch t).any fun u => !u.numbered && meets u t

/-- Replaces a transfer of a channel. -/
def putXfer (s : State) (c : CtxId) (ch : Side) (t : Xfer) : State :=
  modCtx s c fun x => setChan x ch { chanOf x ch with xfers := (chanOf x ch).xfers.map fun u => if u.tid = t.tid then t else u }
/-- A transfer by its identifier. -/
def findXfer (x : Ctx) (ch : Side) (tid : W32) : Option Xfer := (chanOf x ch).xfers.find? fun u => u.tid == tid

/-! ### What a transfer names (09 R181, R185) -/

/-- Whether a kind moves runs of bytes. -/
def movesRuns : CKind → Bool
  | .copy _ => true
  | .gather => true
  | .scatter => true
  | _ => false
/-- Whether an address of a context leads to another package. -/
def isFar (s : State) (c : CtxId) (va : Nat) : Bool := (remoteOf s c va).isSome
/-- Whether a kind reads the second range of its runs as a source of bytes. -/
def readsRuns : CKind → Bool
  | .bank _ => true
  | .enq => true
  | k => movesRuns k
/-- Whether an operation is a near-data one, whose packet is numbered on the party's own die too (R181, R189). -/
def nearData : CKind → Bool
  | .cas4 => true
  | .enq => true
  | .deq => true
  | .chase => true
  | .bank _ => true
  | _ => false
/-- Destinations of the units that a range of a run names, one for each packet. -/
def rangeDsts (s : State) (c : CtxId) (own : Bool) (va n : Nat) : List Nat := (unitRuns va n).filterMap fun u => streamDst s c own u.1
/-- Destinations of the packets of a transfer whose runs are known (R181, log entry 27). -/
def packetDsts (s : State) (c : CtxId) (t : Xfer) : List Nat :=
  let k := (cView t.op).kind
  if movesRuns k then t.segs.flatMap fun g => rangeDsts s c false g.1 g.2.2 ++ rangeDsts s c false g.2.1 g.2.2
  else match k with
    | .bank _ => t.segs.flatMap fun g => rangeDsts s c true g.1 g.2.2 ++ rangeDsts s c false g.2.1 g.2.2
    | .enq => (streamDst s c true t.x.toNat).toList ++ (streamDst s c false t.y.toNat).toList
    | .deq => (streamDst s c true t.x.toNat).toList ++ (streamDst s c false t.y.toNat).toList
    | _ => (streamDst s c (nearData k) t.x.toNat).toList
/-- Whether a transfer will send packets to another package, and so take numbers as it queues them. -/
def hasFar (s : State) (t : Xfer) : Bool := t.dests.any fun d => decide (d < 4096) && d != s.fw.fab.toNat
/-- Takes the numbers of the packets that stay inside the package. -/
def takeNear (s : State) (c : CtxId) (stream : BitVec 4) (l : List Nat) : State :=
  (l.filter fun d => decide (4096 ≤ d) || d == s.fw.fab.toNat).foldl (fun s d => (takeSeqs s c stream d 1).2) s
/-- A transfer is planned: a broken stream or an absent peer is the status (R185); its runs and destinations are known from here on. An index list
is read as the transfer's first read (10 R215). -/
def planXfer (s : State) (c : CtxId) (ch : Side) (t : Xfer) : Except RStop (State × Xfer) :=
  let w := cView t.op
  let x := getCtx s c
  let fails := fun (e : Byte) => { t with planned := true, numbered := true, status := e }
  let list := (w.kind == .gather || w.kind == .scatter) && hi32 (xarg t 2) != 0
  if w.stream ≠ 0 ∧ x.con.broken.getLsbD w.stream.toNat then .ok (s, fails streamBroken)
  else if list && acquireBlocked x ch t then .error (.wait false)
  else match segsOf s c t with
    | .error (.wait l) => .error (.wait l)
    | .error (.status e) => .ok (s, fails e)
    | .ok g =>
      let segs := g.flatMap fun q => cutSeg (q.2.2 / 2 ^ 47 + 3) q
      let bad := fun (a : Nat) => bits a 60 4 == 0xC && peerAbsent (started s x) x.prog.region x.prog.tenant a
      if segs.any fun q => bad q.1 || bad q.2.1 then
        .ok (breakStream s c w.stream, fails peerFault)
      else
        let t := { t with planned := true, segs := segs }
        let l := packetDsts s c t
        let t := { t with dests := l.eraseDups }
        .ok (takeNear s c w.stream l, { t with numbered := !(hasFar s t) })

/-! ### Watched writes of a channel (18 R344, R345) -/

/-- The ranges that a transfer writes, under its destination address as issued. -/
def writeRanges (s : State) (c : CtxId) (t : Xfer) : List (Nat × Nat) :=
  match (cView t.op).kind with
  | .store n => [(t.x.toNat, n)]
  | .atom _ => [(t.x.toNat, 8)]
  | .sc k => if k = 0 then [] else [(t.x.toNat, 8)]
  | .cas4 => (List.range 4).filterMap fun i => if bitAt (xarg t 1).toNat i then some (t.x.toNat + 8 * i, 8) else none
  | .deq => [(t.y.toNat, 64)]
  | .mcast => [(t.x.toNat, (xarg t 2).toNat)]
  | .copy _ => runs
  | .gather => runs
  | .scatter => runs
  | .bank _ => runs
  | _ => []
where
  /-- The runs of a transfer that moves several. -/
  runs : List (Nat × Nat) := match segsOf s c t with
    | .ok g => g.map fun q => (q.1, q.2.2)
    | .error _ => []
/-- First watched byte of a transfer's range, with its watchpoint. -/
def watchedBy (s : State) (c : CtxId) (t : Xfer) : Option (Nat × Nat) :=
  if t.kernel then (writeRanges s c t).findSome? fun r => watchHit (getCtx s c).mon r.1 r.2 else none
/-- An imprecise watch record (R345): bit 3 the channel, bit 4 a match found, bit 5 performed. -/
def channelRecord (s : State) (c : CtxId) (ch : Side) (t : Xfer) (wp addr more : Nat) (found performed : Bool) : Nat :=
  let slot := if ch = .a then 6 else 7
  packFields [(4, 1), (wp + (if ch = .b then 8 else 0) + 16 * b2n found + 32 * b2n performed, 1), (trWhere s c, 2),
    (trBundle t.bundle t.rpt.toNat slot, 4), (t.loop, 1), (t.stage, 1), (more, 1), (0, 1), (t.iter, 4), (addr, 8), (t.tid.toNat, 4), (trDelta s (ctxCl c), 4)]
/-- The channel performs, or sends, the first watched write of a transfer: the record is written and the stop may land (R345). -/
def watchChannel (s : State) (c : CtxId) (ch : Side) (t : Xfer) (performed : Bool) : State :=
  if t.watched then s
  else match watchedBy s c t with
    | none => s
    | some (a, k) =>
      let s := putXfer s c ch { t with watched := true }
      let x := getCtx s c
      match x.run.watchStop.filter fun w => w.found && !(w.chan == some (ch, t.tid)) with
      | some w => modCtx s c fun x => { x with run := { x.run with watchStop := some { w with more := min 255 (w.more + 1) } } }
      | none =>
        let s := modCtx s c fun x => { x with run := { x.run with
          watchStop := some { addr := .ofNat 64 a, wp := k, chan := some (ch, t.tid), found := true, from_ := (getCl s (ctxCl c)).ctime } } }
        keepRecord s (ctxCl c) x.prog.region (channelRecord s c ch t k a 0 true performed)

/-! ### How a transfer goes on -/

/-- How far a transfer comes: it waits, which brakes a primary's cluster if `late` says so; it has taken a step; it is performed. -/
inductive Fin
  | wait (late : Bool)
  | more (s : State)
  | done (s : State) (status : Byte) (outs : List (Nat × W64))

/-- A result of ranges as an outcome. -/
def finOf (s : State) (r : Except RStop (State × List (Nat × W64))) : Fin :=
  match r with
  | .ok (t, o) => .done t 0 o
  | .error (.status e) => .done s e []
  | .error (.wait l) => .wait l
/-- A bank operation's result as an outcome. -/
def finBank (r : Except Bool (State × Byte)) : Fin :=
  match r with
  | .ok (s, e) => .done s e []
  | .error l => .wait l
/-- How many packets of its queue a transfer may send now: an acquire's first read goes alone, a release keeps its last write back (R179). -/
def sendable (s : State) (c : CtxId) (ch : Side) (t : Xfer) : Nat :=
  let first := (t.asks.head?).map (·.1)
  if t.phase = .packetsOut ∧ acquires t.op ∧ t.pkts.any (fun k => first == some k) then 0
  else if t.phase = .packetsOut ∧ acquires t.op ∧ (t.queue.head?).map (·.1) = first then 1
  else if t.phase = .releaseHeld ∧ releases t.op ∧
      (releaseBlocked s c (getCtx s c) ch t ∨ (relScope t.op = 5 ∧ (1 < t.queue.length ∨ !t.pkts.isEmpty))) then t.queue.length - 1
  else t.queue.length
/-- Sends what may be sent now of a transfer's queue; a full window is the wait that brakes a primary's cluster (R181). -/
def pumped (s : State) (c : CtxId) (ch : Side) (t : Xfer) : Fin :=
  let n := sendable s c ch t
  let r := pump s c ch (getCtx s c).prog.tenant n t
  if r.2.queue.length = t.queue.length then .wait (decide (n ≠ 0)) else .more (putXfer r.1 c ch r.2)
/-- The packets by which a transfer reads its source in other packages, with the ranges that they cover. -/
def sourceAsks (s : State) (c : CtxId) (t : Xfer) : List (Nat × Nat × (BitVec 12 × W32 × BitVec 48 × PktBody)) :=
  let fmt := match (cView t.op).kind with
    | .bank _ => some (bankFmt s c t.x)
    | _ => none
  if !(readsRuns (cView t.op).kind) then []
  else t.segs.flatMap fun g => (unitRuns g.2.1 g.2.2).filterMap fun u =>
    (remoteOf s c u.1).map fun r => (u.1, u.2, r.1, r.2.1, .ofNat 48 r.2.2, .read (.ofNat 32 u.2) fmt)
/-- Queues packets that ask for bytes or an operation, and remembers what each covers. -/
def queueAsks (s : State) (c : CtxId) (t : Xfer) (l : List (Nat × Nat × (BitVec 12 × W32 × BitVec 48 × PktBody))) : State × Xfer :=
  let n := t.queue.length
  let r := queueFar s c (cView t.op).stream t (l.map (·.2.2))
  (r.1, { r.2 with asks := r.2.asks ++ ((r.2.queue.drop n).zip l).map fun p => (p.1.1, p.2.1, p.2.2.1) })
/-- The packet by which an operation asks its home in another package; an entry is read before it leaves (10 R226). -/
def askPacket (s : State) (c : CtxId) (t : Xfer) : Except RStop (PktBody × List Place) :=
  let a := fun i => xarg t i
  match (cView t.op).kind with
  | .load => .ok (.read 8 none, [])
  | .atom k => .ok (.atom (.ofNat 4 k) (a 1) (a 2), [])
  | .cas4 => .ok (.cas4 (.ofNat 4 (a 1).toNat) ((List.range 8).map fun i => a (2 + i)), [])
  | .enq => do
    let r ← pieceData s c t t.y.toNat 64
    .ok (.enq r.1, r.2)
  | .deq => .ok (.deq, [])
  | _ => .ok (.chase (a 1) (a 2), [])
/-- Queues the writes that lead to other packages. -/
def sendWrites (s : State) (c : CtxId) (ch : Side) (t : Xfer) (l : List (Nat × Byte)) : Fin :=
  let r := queueFar s c (cView t.op).stream { t with phase := .releaseHeld, numbered := true } (writeUnits s c l)
  .more (putXfer r.1 c ch r.2)
/-- The bytes of a dequeued entry go to dD: inside the package at once, into another package by packets. -/
def deliver (s : State) (c : CtxId) (ch : Side) (t : Xfer) (tl : W64) (e : Option (List Byte)) : Fin :=
  match e with
  | none => .done s 0 [(0, tl)]
  | some l =>
    if isFar s c t.y.toNat then sendWrites s c ch { t with final := [(0, tl)] } (l.zipIdx.map fun b => (t.y.toNat + b.2, b.1))
    else finOf s ((writeRange s c t.y.toNat l).map fun s => (s, [(0, tl)]))

/-- An operation whose word or element lies inside the package, performed whole (log entry 8). -/
def finishLocal (s : State) (c : CtxId) (ch : Side) (t : Xfer) : Fin :=
  let x := t.x.toNat
  let a := fun i => xarg t i
  match (cView t.op).kind with
  | .bank k => finBank (bankAll s c t k)
  | .store n => finOf s ((writeRange s c x (leBytes n (a 1).toNat)).map fun s => (s, []))
  | .load => finOf s ((readRange s c x 8).map fun r => (noteTouch s c r.2, [(0, .ofNat 64 (leNat r.1))]))
  | .atom k => finOf s ((rmw s c x needRWA fun w => some (if k = 7 then (if w = a 1 then a 2 else w) else atomNew k w (a 1) 0)).map fun r => (r.2, [(0, r.1)]))
  | .cas4 => finOf s (cas4 s c x (a 1).toNat (fun i => a (2 + i)) (fun i => a (6 + i)))
  | .enq => finOf s (do
      let e ← pieceData s c t t.y.toNat 64
      let r ← enqueue s c x e.1
      .ok (noteTouch r.1 c e.2, [(0, r.2)]))
  | .deq => match dequeue s c x with
    | .error (.wait l) => .wait l
    | .error (.status e) => .done s e []
    | .ok (s1, tl, e) => match deliver s1 c ch t tl e with
      | .done s2 st o => if st = 0 then .done s2 0 o else .done s st []
      | f => f
  | .chase =>
    finOf s ((chase s c (bits (a 1).toNat 12 8) (bits (a 1).toNat 4 8) (a 2) (bits (a 1).toNat 0 4 + 1) x 0 []).map fun r =>
      (noteTouch s c r.2.2.2, [(0, .ofNat 64 (2 ^ 8 * r.1 + r.2.1)), (1, .ofNat 64 r.2.2.1)]))
  | _ => .wait false
/-- A transfer whose source is at hand: a copy writes, an operation is performed or asks its home in another package. Writes into the package wait for
what a release covers and for their stream (R179, R182), packets for their turn to be numbered. -/
def act (s : State) (c : CtxId) (ch : Side) (t : Xfer) : Fin :=
  let x := getCtx s c
  let k := (cView t.op).kind
  let held := releaseBlocked s c x ch t && (t.numbered || !(movesRuns k))
  if streamBlocked x ch t || (!t.numbered && numbersWait x ch t) then .wait false
  else if movesRuns k then
    if held then .wait false
    else match copyLocal s c t with
      | .error l => .wait l
      | .ok (s1, e, far) => if e ≠ 0 ∨ far.isEmpty then .done s1 e [] else sendWrites s1 c ch t far
  else match remoteOf s c t.x.toNat, k with
    | none, _ => if held then .wait false else finishLocal s c ch t
    | some _, .store n => sendWrites s c ch t ((leBytes n (xarg t 1).toNat).zipIdx.map fun b => (t.x.toNat + b.2, b.1))
    | some r, _ =>
      if releaseBlocked s c x ch t then .wait false
      else match askPacket s c t with
        | .error (.wait l) => .wait l
        | .error (.status e) => .done s e []
        | .ok q =>
          let r := queueAsks (noteTouch s c q.2) c { t with phase := .asked } [(t.x.toNat, 0, r.1, r.2.1, .ofNat 48 r.2.2, q.1)]
          .more (putXfer r.1 c ch { r.2 with numbered := k != .deq || !(isFar s c t.y.toNat) })
/-- The reply to the packet that asked for a transfer's operation. -/
def askReply (s : State) (t : Xfer) (n : Nat) : List Byte :=
  match t.asks.getLast? with
  | some q => ((t.reply.find? fun r => r.1 == q.1).map (·.2)).getD ((List.range n).map fun i => Config.peerByte s.free (256 * q.1.seq.toNat + i))
  | none => []
/-- An operation that its home in another package has answered. -/
def finishRemote (s : State) (c : CtxId) (ch : Side) (t : Xfer) : Fin :=
  let word := fun (n i : Nat) => BitVec.ofNat 64 (leNat (((askReply s t n).drop (8 * i)).take 8))
  match (cView t.op).kind with
  | .cas4 =>
    .done s 0 ((0, word 40 0) :: ((List.range 4).filter fun i => bitAt (xarg t 1).toNat i).map fun i => (1 + i, word 40 (1 + i)))
  | .deq => deliver s c ch t (word 72 0) (if word 72 0 = queueNone then none else some ((askReply s t 72).drop 8))
  | .chase => .done s 0 [(0, word 16 0), (1, word 16 1)]
  | _ => .done s 0 [(0, word 8 0)]
/-- Whether a fence's wait is over: every transfer of a named stream issued in an earlier bundle is complete, the rows of earlier forms too (10 R234). -/
def fenceOver (x : Ctx) (t : Xfer) : Bool :=
  let m := (xarg t 0).toNat
  (x.con.c0.xfers ++ x.con.c1.xfers).all (fun u => decide (t.seq ≤ u.seq) || !(bitAt m (cView u.op).stream.toNat)) &&
    !(bitAt m 0 && x.run.rows.any fun j => decide (6 ≤ j.slot) && decide (j.seq < t.seq))
/-- Whether a copy moves nothing, so that it completes at once (10 R214). -/
def movesNothing (t : Xfer) : Bool :=
  match (cView t.op).kind with
  | .copy _ => t.segs.isEmpty
  | _ => false

/-- How far a transfer comes now. -/
def xferStep (s : State) (c : CtxId) (ch : Side) (t : Xfer) : Fin :=
  let x := getCtx s c
  let settled := t.queue.isEmpty && t.pkts.isEmpty
  if t.phase = .arrived then .wait false
  else if t.status ≠ 0 then (if settled then .done s t.status [] else pumped s c ch t)
  else match t.phase with
    | .releaseHeld => if settled then .done s 0 t.final else pumped s c ch t
    | .asked => if settled then finishRemote s c ch t else pumped s c ch t
    | .packetsOut => if (cView t.op).kind = .reset then .wait false else if settled then act s c ch t else pumped s c ch t
    | .fenced => if (cView t.op).kind = .fence ∧ fenceOver x t then .done s 0 [] else .wait false
    | .running =>
      if !t.planned then
        if (olderInStream x ch t).any fun u => !u.planned then .wait false
        else match planXfer s c ch t with
          | .error (.wait l) => .wait l
          | .error (.status e) => .done s e []
          | .ok (s, t) => .more (putXfer s c ch t)
      else if movesNothing t then .done s 0 []
      else if acquireBlocked x ch t then .wait false
      else
        let l := sourceAsks s c t
        if l.isEmpty then act s c ch t
        else if numbersWait x ch t then .wait false
        else
          let r := queueAsks s c { t with phase := .packetsOut } l
          .more (putXfer r.1 c ch { r.2 with numbered := !(isFar s c t.x.toNat || t.segs.any fun g => movesRuns (cView t.op).kind && isFar s c g.1) })
    | _ => .wait false
/-- Whether what a transfer does next reads or writes a scratchpad: its accesses wait while the brake is applied (12 R254). -/
def usesScr (t : Xfer) : Bool :=
  let w := cView t.op
  let scr := fun (a : Nat) => bits a 60 4 == 0xA
  t.status == 0 && (t.phase == .running || t.phase == .packetsOut || (t.phase == .asked && w.kind == .deq)) &&
    ((w.ax && scr t.x.toNat) || (w.ay && scr t.y.toNat) || (t.segs.any fun g => scr g.1 || scr g.2.1) || (!t.planned && (w.kind == .gather || w.kind == .scatter)))
/-- Whether arrivals for a context are held at its cluster's boundary: while the brake is applied, unless it is being saved (01 R24, 16 R320). -/
def heldBack (s : State) (c : CtxId) : Bool := (getCl s (ctxCl c)).brake.isSome && (getCtx s c).run.state != .saving

/-- Takes a transfer's steps, as far as they go, and hands its completion on; a watched write is recorded as it is performed. `enter` says that its
scratchpad accesses may be made although the brake is applied. -/
def carry (complete : State → CtxId → Side → W32 → Byte → List (Nat × W64) → State) (enter : Bool) (c : CtxId) (ch : Side) (tid : W32) : Nat → State → State
  | 0, s => s
  | n + 1, s =>
    match findXfer (getCtx s c) ch tid with
    | none => s
    | some t =>
      if !enter && heldBack s c && usesScr t then s
      else match xferStep s c ch t with
        | .wait _ => s
        | .more s1 => carry complete enter c ch tid n s1
        | .done s1 e o => complete (if e = 0 then watchChannel s1 c ch t true else s1) c ch tid e o
/-- Steps that take a transfer from its issue to its end: planned, asked for, sent in turn, answered, written, sent in turn. -/
def carrySteps : Nat := 8
/-- Sends what can be sent of a transfer, and leaves its completion to come. -/
def kick (s : State) (c : CtxId) (ch : Side) (tid : W32) : State := carry (fun s _ _ _ _ _ => s) false c ch tid carrySteps s

/-! ### Completion (10 R206, R208, R212) -/

/-- Inserts a failure in identifier order, wrap-safe. -/
def insertFail (f : W32 × Byte) : List (W32 × Byte) → List (W32 × Byte)
  | [] => [f]
  | g :: t => if (g.1 - f.1).toNat < 2 ^ 31 then f :: g :: t else g :: insertFail f t
/-- A transfer leaves its channel: results are written unless it failed or another write is kept (03 R43), a failure is listed, an acquire takes
effect. -/
def completeXfer (s : State) (c : CtxId) (ch : Side) (tid : W32) (status : Byte) (outs : List (Nat × W64)) : State :=
  modCtx s c fun x =>
    match findXfer x ch tid with
    | none => x
    | some t =>
      let k := chanOf x ch
      let k := { k with xfers := k.xfers.filter fun u => u.tid != tid }
      if status ≠ 0 then setChan x ch { k with fails := insertFail (tid, status) k.fails }
      else
        let r := outs.foldl (fun r o => match (cView t.op).outs[o.1]? with
          | some n => deSet r ch n o.2
          | none => r) x.r
        setChan { x with r := r } ch k
/-- A transfer's completion reaches its cluster: it takes effect, or waits at the boundary in arrival order while the brake is applied (01 R24). -/
def finishAt (s : State) (c : CtxId) (ch : Side) (tid : W32) (status : Byte) (outs : List (Nat × W64)) : State :=
  if !(heldBack s c) then completeXfer s c ch tid status outs
  else match findXfer (getCtx s c) ch tid with
    | none => s
    | some t =>
      if t.phase = .arrived then s
      else modCl (putXfer s c ch { t with phase := .arrived }) (ctxCl c) fun k => { k with boundary := k.boundary ++ [.done c ch tid status outs] }
/-- Performs and completes a transfer if it can complete now. -/
def tryComplete (s : State) (c : CtxId) (ch : Side) (tid : W32) : State := carry completeXfer true c ch tid carrySteps s
/-- Whether a transfer could complete now. -/
def canComplete (s : State) (c : CtxId) (ch : Side) (tid : W32) : Bool :=
  match findXfer (getCtx s c) ch tid with
  | none => false
  | some t => match xferStep s c ch t with
    | .done .. => true
    | _ => false
/-- Whether a transfer could be carried on now but for the brake. -/
def couldMove (s : State) (c : CtxId) (ch : Side) (t : Xfer) : Bool :=
  match xferStep s c ch t with
  | .wait _ => false
  | _ => true
/-- Whether a transfer waits in the way that brakes a primary's cluster: a read for its horizon, a replicated write for a lagging die, a packet for the
window (09 R177, R178, R181). -/
def lateXfer (s : State) (c : CtxId) (ch : Side) (t : Xfer) : Bool :=
  match xferStep s c ch t with
  | .wait l => l
  | _ => false

end Sys2Proof.Machine
end

