-- ==== Sys2Proof/Machine/Copy.lean ====
section
/-! DEFINITION. What the instructions of the copy slots do at their issue (10 R205-R236): the checks of R210, identifiers, multicast, send and receive,
barriers, fences and the wheel. -/

namespace Sys2Proof.Machine

/-! ### Issue of a transfer -/

/-- The registers that a copy syllable reads, once, at its issue; later rows use the captured values (R207, R209). -/
def cArgs (iss : Iss) (sd : Side) (op : CSyl) : Except Stop (List W64) :=
  if iss.row ≠ 0 then .ok iss.args
  else (cView op).regs.mapM fun n => do
    waitReg iss sd n
    .ok (deGet iss.v.r sd n)
/-- The active form of a copy syllable. -/
def cForm (iss : Iss) (sd : Side) (op : CSyl) : W64 := formWord iss.v.ctl (formIdx (cSlot sd) (cView op).form.toNat)
/-- Rows of a copy syllable (R209). -/
def cRows (iss : Iss) (sd : Side) (op : CSyl) : Nat := if (cView op).cs then 1 else formRows (cForm iss sd op)
/-- A bracketed address in row `i`: register, hidden offset, i steps (R209, 03 R33). -/
def cAddr (iss : Iss) (sd : Side) (op : CSyl) (a : W64) (i : Nat) : W64 :=
  a + iss.delta + (if (cView op).cs then 0 else BitVec.ofInt 64 (i * formAstep (cForm iss sd op)))
/-- Room for one more transfer on a channel, else the hold or the trap of R212. -/
def channelRoom (s : State) (sd : Side) : Except Stop Unit :=
  let c := chanOf s.cx sd
  if c.xfers.length + c.fails.length < 64 then .ok ()
  else match c.fails with
    | [] => .error (.hold .late)
    | f :: _ => .error (failTrap sd f)
/-- Takes the next identifier of a channel (R206). -/
def takeTid (s : State) (sd : Side) : State :=
  { s with cx := setChan s.cx sd { chanOf s.cx sd with tid := (chanOf s.cx sd).tid + 1 } }
/-- The transfer that an issue makes. -/
def newXfer (iss : Iss) (s : State) (sd : Side) (op : CSyl) (a : List W64) : Xfer :=
  let w := cView op
  { tid := (chanOf s.cx sd).tid + 1, op := op, args := a
    x := cAddr iss sd op ((a[0]?).getD 0) iss.row, y := cAddr iss sd op ((a[1]?).getD 0) iss.row
    bundle := iss.bundle, rpt := iss.v.ctl.rptidx, loop := trLoop iss.v.r, iter := trIter iss.v.r
    stage := if 8 ≤ w.g.toNat then w.g.toNat - 8 else 0
    issued := iss.time.getD (getCl s (ctxCl s.cid)).ctime, seq := iss.v.run.nseq, kernel := !iss.v.mon.active }
/-- Puts a transfer into its channel under the next identifier. -/
def pushXfer (s : State) (sd : Side) (t : Xfer) : State :=
  let c := chanOf s.cx sd
  { s with cx := setChan s.cx sd { c with tid := t.tid, xfers := c.xfers ++ [t] } }
/-- Marks that an issue leaves: kind 01 use (R216), spin (12 R260), a watched range to come (18 R345). -/
def issueMarks (s : State) (sd : Side) (t : Xfer) : State :=
  let s := if kindWrites (cView t.op).kind then clearSpin s else s
  let s := if namesMate t then { s with cx := { s.cx with prog := { s.cx.prog with kind01 := true } } } else s
  match watchedBy s s.cid t, s.cx.run.watchStop with
  | some (a, k), none => putRun s { s.cx.run with
      watchStop := some { addr := .ofNat 64 a, wp := k, from_ := t.issued + 512, chan := some (sd, t.tid), found := false } }
  | _, _ => s
/-- Starts a transfer: marks, and what can be planned and sent at once. -/
def startXfer (sd : Side) (s : State) (t : Xfer) : Res :=
  .ok (kick (issueMarks (pushXfer s sd { t with planned := false, numbered := false }) sd t) s.cid sd t.tid)
/-- The shared shape of a copy syllable: guard, registers, the checks of every row before the first one issues, room, start. -/
def cIssue (sd : Side) (op : CSyl) (iss : Iss) (check : List W64 → W64 → W64 → Except Stop Unit) (start : State → Xfer → Res) (s : State) : Res :=
  guarded iss (cView op).g s do
    let a ← cArgs iss sd op
    (cView op).outs.forM (waitReg iss sd)
    if iss.row = 0 then
      (List.range (cRows iss sd op)).forM fun i => check a (cAddr iss sd op ((a[0]?).getD 0) i) (cAddr iss sd op ((a[1]?).getD 0) i)
    else .ok ()
    channelRoom s sd
    start s (newXfer iss s sd op a)

/-- An operand of the issue. -/
def arg (a : List W64) (i : Nat) : W64 := (a[i]?).getD 0
/-- The upper bits of an operand from bit `n` are zero. -/
def upperZero (x : W64) (n : Nat) : Bool := x.toNat / 2 ^ n == 0
/-- An address is a multiple of `n`. -/
def aligned (a : W64) (n : Nat) : Except Stop Unit := must (decide (a.toNat % n = 0)) misaligned a.toNat

/-! ### Copies, gathers and scatters (R214, R215) -/

/-- The limits of a copy descriptor. -/
def copyCheck (dims : Nat) (a : List W64) (_ _ : W64) : Except Stop Unit :=
  let n0 := lo32 (arg a 2)
  let k1 := if 2 ≤ dims then hi32 (arg a 2) else 1
  let k2 := if dims = 3 then lo32 (arg a 4) else 1
  must ((decide (2 ≤ dims) || hi32 (arg a 2) == 0) && (dims != 3 || hi32 (arg a 4) == 0) && decide (n0 * k1 * k2 ≤ 2 ^ 32)) illegalForm
/-- The limits of an index list. -/
def listCheck (a : List W64) (_ _ : W64) : Except Stop Unit :=
  let e := bits (arg a 2).toNat 0 13
  must (decide (1 ≤ e ∧ e ≤ 4096) && bits (arg a 2).toNat 13 19 == 0 && decide (hi32 (arg a 2) ≤ 65536) && upperZero (arg a 3) 21 &&
    (arg a 3).toNat % 4 == 0) illegalForm
def semCopy1d (sd : Side) (o : CA) (iss : Iss) (s : State) : Res := cIssue sd (.copy1d o) iss (copyCheck 1) (startXfer sd) s
def semCopy2d (sd : Side) (o : CA) (iss : Iss) (s : State) : Res := cIssue sd (.copy2d o) iss (copyCheck 2) (startXfer sd) s
def semCopy3d (sd : Side) (o : CA) (iss : Iss) (s : State) : Res := cIssue sd (.copy3d o) iss (copyCheck 3) (startXfer sd) s
def semGather (sd : Side) (o : CA) (iss : Iss) (s : State) : Res := cIssue sd (.gather o) iss listCheck (startXfer sd) s
def semScatter (sd : Side) (o : CA) (iss : Iss) (s : State) : Res := cIssue sd (.scatter o) iss listCheck (startXfer sd) s
def semCopy1dCs (sd : Side) (o : CS) (iss : Iss) (s : State) : Res := cIssue sd (.copy1dCs o) iss (copyCheck 1) (startXfer sd) s
def semCopy2dCs (sd : Side) (o : CS) (iss : Iss) (s : State) : Res := cIssue sd (.copy2dCs o) iss (copyCheck 2) (startXfer sd) s
def semCopy3dCs (sd : Side) (o : CS) (iss : Iss) (s : State) : Res := cIssue sd (.copy3dCs o) iss (copyCheck 3) (startXfer sd) s
def semGatherCs (sd : Side) (o : CS) (iss : Iss) (s : State) : Res := cIssue sd (.gatherCs o) iss listCheck (startXfer sd) s
def semScatterCs (sd : Side) (o : CS) (iss : Iss) (s : State) : Res := cIssue sd (.scatterCs o) iss listCheck (startXfer sd) s

/-! ### Multicast, send and receive (R217-R221) -/

/-- A well-formed address of the issuing core's own scratchpad (09 R169). -/
def ownScratch (a : W64) : Bool := isKind 0 a && bits a.toNat 21 37 == 0
/-- A well-formed multicast window address. -/
def multicast (a : W64) : Bool := isKind 2 a && bits a.toNat 32 26 == 0 && bits a.toNat 21 3 == 0 && bits a.toNat 24 8 != 0
/-- Scratchpad offset of an address. -/
def scrOff (a : W64) : Nat := bits a.toNat 0 21
/-- A length of 4 to 256 bytes in words. -/
def rowLength (x : W64) : Bool := upperZero x 9 && decide (4 ≤ x.toNat ∧ x.toNat ≤ 256) && x.toNat % 4 == 0
/-- A range of the scratchpad that ends inside it. -/
def endsInside (a : W64) (n : Nat) : Except Stop Unit := must (decide (scrOff a + n ≤ 2 ^ 21)) scratchRange a.toNat
def mcastCheck (a : List W64) (x y : W64) : Except Stop Unit := do
  must (multicast x && ownScratch y && rowLength (arg a 2)) illegalForm
  aligned x 4
  aligned y 4
  endsInside x (arg a 2).toNat
  endsInside y (arg a 2).toNat
/-- The source of a multicast or send is read in the issue cycle as an access of its slot, and the row sets out (R207). -/
def setOut (sd : Side) (iss : Iss) (delay target off : Nat) (mcast : Bool) (s : State) (t : Xfer) : Res := do
  let n := (xarg t 2).toNat
  let s ← touch s (scrUnits (scrOff t.y) n)
  let row : NetRow := { due := t.issued + delay, src := s.cid, ch := sd, tid := t.tid, target := target, off := off, region := s.cx.prog.region
                        data := scrRead iss (scrOff t.y) n }
  let s := issueMarks (pushXfer s sd { t with phase := .timed (t.issued + delay) }) sd t
  .ok (modCl s (ctxCl s.cid) fun k => if mcast then { k with win := k.win ++ [row] } else { k with net := k.net ++ [row] })
def semMcast (sd : Side) (o : CA) (iss : Iss) (s : State) : Res :=
  cIssue sd (.mcast o) iss mcastCheck (fun s t => setOut sd iss 10 (bits t.x.toNat 24 8) (scrOff t.x) true s t) s
/-- `send` and `recv` belong to primaries (R218). -/
def sendCheck (s : State) (a : List W64) (_ y : W64) : Except Stop Unit := do
  must (isPrim s s.cid && upperZero (arg a 0) 3 && ownScratch y && rowLength (arg a 2)) illegalForm
  aligned y 4
  endsInside y (arg a 2).toNat
def semSend (sd : Side) (o : CA) (iss : Iss) (s : State) : Res :=
  cIssue sd (.send o) iss (sendCheck s) (fun s t => setOut sd iss 12 (xarg t 0).toNat 0 false s t) s
def recvCheck (s : State) (a : List W64) (x _ : W64) : Except Stop Unit := do
  must (isPrim s s.cid && upperZero (arg a 1) 4 && ownScratch x) illegalForm
  aligned x 4
/-- Number of a receive entry in its cluster. -/
def entryKey (c : CtxId) (e : Nat) : Nat := 16 * (c.core.toNat % 8) + e
/-- The receive entry that a row of the exchange network arrives at. -/
def netKey (r : NetRow) : Nat := 16 * r.target + r.src.core.toNat % 8 + (if r.ch = .b then 8 else 0)
/-- Whether a send to an entry of a core is in the exchange network. -/
def inNet (k : Cluster) (core e : Nat) : Bool :=
  k.net.any fun r => r.target == core && r.src.core.toNat % 8 == e % 8 && (r.ch == .b) == bitAt e 3
/-- What a `recv` of an entry takes: the arrival held, else the one that lands in this cycle (R219). -/
def arrival (k : Cluster) (key : Nat) : List Byte :=
  let l := tabGet [] k.recv key
  if l.isEmpty then tabGet [] k.fresh key else l
/-- Takes the arrival. -/
def takeArrival (k : Cluster) (key : Nat) : Cluster :=
  if (tabGet [] k.recv key).isEmpty then { k with fresh := k.fresh.filter fun p => p.1 != key } else { k with recv := k.recv.filter fun p => p.1 != key }
/-- A row of the exchange network arrives at its receive entry, and its transfer completes (R218). -/
def landSend (s : State) (cl : Nat) (r : NetRow) : State :=
  match residentOn s (8 * cl + r.target) r.region with
  | none => completeXfer s r.src r.ch r.tid permission []
  | some _ =>
    let key := netKey r
    completeXfer (modCl s cl fun k => { k with fresh := tabSet k.fresh key r.data }) r.src r.ch r.tid 0 []
/-- A later row that runs on ahead of its cluster's time meets what lands up to its own time (log entry 30). -/
def landAhead (s : State) (iss : Iss) (e : Nat) : State :=
  let cl := ctxCl s.cid
  match iss.time with
  | none => s
  | some t =>
    if t ≤ (getCl s cl).ctime then s
    else
      let mine := fun (r : NetRow) => netKey r == entryKey s.cid e && decide (r.due ≤ t)
      ((getCl s cl).net.filter mine).foldl (fun s r => landSend s cl r) (modCl s cl fun k => { k with net := k.net.filter fun r => !(mine r) })
/-- `recv` takes what its entry holds, waits for a row on its way, or finds nothing (R219, R220). -/
def takeRow (sd : Side) (iss : Iss) (s : State) (t : Xfer) : Res :=
  let e := (xarg t 1).toNat
  let cl := ctxCl s.cid
  let s := landAhead s iss e
  let l := arrival (getCl s cl) (entryKey s.cid e)
  if !l.isEmpty then do
    endsInside t.x l.length
    let s ← touch s (scrUnits (scrOff t.x) l.length)
    let s := scrWrite (takeTid s sd) (scrOff t.x) l
    .ok (modCl s cl fun k => takeArrival k (entryKey s.cid e))
  else if inNet (getCl s cl) (s.cid.core.toNat % 8) e then .error (.hold (.recv e))
  else if iss.row = 0 then trapWith timingFault e
  else .ok (putRun (takeTid s sd) { (takeTid s sd).cx.run with timing := some e, rows := s.cx.run.rows.filter fun j => j.slot != iss.slot })
def semRecv (sd : Side) (o : CA) (iss : Iss) (s : State) : Res := cIssue sd (.recv o) iss (recvCheck s) (takeRow sd iss) s

/-! ### Stores, loads, atomics and memory-side agents (R222-R227) -/

def alignCheck (n : Nat) (_ : List W64) (x _ : W64) : Except Stop Unit := aligned x n
def semSt32 (sd : Side) (o : CS) (iss : Iss) (s : State) : Res := cIssue sd (.st32 o) iss (alignCheck 4) (startXfer sd) s
def semSt64 (sd : Side) (o : CS) (iss : Iss) (s : State) : Res := cIssue sd (.st64 o) iss (alignCheck 8) (startXfer sd) s
def semLd64 (sd : Side) (o : CS) (iss : Iss) (s : State) : Res := cIssue sd (.ld64 o) iss (alignCheck 8) (startXfer sd) s
def semAtomAdd (sd : Side) (o : CS) (iss : Iss) (s : State) : Res := cIssue sd (.atomAdd o) iss (alignCheck 8) (startXfer sd) s
def semAtomAnd (sd : Side) (o : CS) (iss : Iss) (s : State) : Res := cIssue sd (.atomAnd o) iss (alignCheck 8) (startXfer sd) s
def semAtomOr (sd : Side) (o : CS) (iss : Iss) (s : State) : Res := cIssue sd (.atomOr o) iss (alignCheck 8) (startXfer sd) s
def semAtomXor (sd : Side) (o : CS) (iss : Iss) (s : State) : Res := cIssue sd (.atomXor o) iss (alignCheck 8) (startXfer sd) s
def semAtomMax (sd : Side) (o : CS) (iss : Iss) (s : State) : Res := cIssue sd (.atomMax o) iss (alignCheck 8) (startXfer sd) s
def semAtomMin (sd : Side) (o : CS) (iss : Iss) (s : State) : Res := cIssue sd (.atomMin o) iss (alignCheck 8) (startXfer sd) s
def semAtomSwap (sd : Side) (o : CS) (iss : Iss) (s : State) : Res := cIssue sd (.atomSwap o) iss (alignCheck 8) (startXfer sd) s
def semAtomCas (sd : Side) (o : CS) (iss : Iss) (s : State) : Res := cIssue sd (.atomCas o) iss (alignCheck 8) (startXfer sd) s
def cas4Check (a : List W64) (x _ : W64) : Except Stop Unit := do
  must (upperZero (arg a 1) 4 && arg a 1 != 0) illegalForm
  aligned x 32
def semMsaCas4 (sd : Side) (o : CS) (iss : Iss) (s : State) : Res := cIssue sd (.msaCas4 o) iss cas4Check (startXfer sd) s
def queueCheck (_ : List W64) (x y : W64) : Except Stop Unit := do
  aligned x 64
  aligned y 64
def semMsaEnq (sd : Side) (o : CS) (iss : Iss) (s : State) : Res := cIssue sd (.msaEnq o) iss queueCheck (startXfer sd) s
def semMsaDeq (sd : Side) (o : CS) (iss : Iss) (s : State) : Res := cIssue sd (.msaDeq o) iss queueCheck (startXfer sd) s
def chaseCheck (a : List W64) (_ _ : W64) : Except Stop Unit := must (upperZero (arg a 1) 20) illegalForm
def semMsaChase (sd : Side) (o : CS) (iss : Iss) (s : State) : Res := cIssue sd (.msaChase o) iss chaseCheck (startXfer sd) s

/-! ### Bank operations (R228) -/

def bankCheck (s : State) (a : List W64) (x y : W64) : Except Stop Unit := do
  must (hi32 (arg a 2) == 0 && decide (lo32 (arg a 2) ≤ 2 ^ 20) && bits x.toNat 60 4 == 0xB && !(isKind 2 y)) illegalForm
  let sz := max 1 (bankSize (bankFmt s s.cid x))
  aligned x sz
  aligned y sz
def semBankWadd (sd : Side) (o : CA) (iss : Iss) (s : State) : Res := cIssue sd (.bankWadd o) iss (bankCheck s) (startXfer sd) s
def semBankAdd (sd : Side) (o : CA) (iss : Iss) (s : State) : Res := cIssue sd (.bankAdd o) iss (bankCheck s) (startXfer sd) s
def semBankMax (sd : Side) (o : CA) (iss : Iss) (s : State) : Res := cIssue sd (.bankMax o) iss (bankCheck s) (startXfer sd) s
def semBankMin (sd : Side) (o : CA) (iss : Iss) (s : State) : Res := cIssue sd (.bankMin o) iss (bankCheck s) (startXfer sd) s

/-! ### Barriers (R230-R232) -/

/-- Fields of a barrier descriptor. -/
def barLevel (d : W64) : Nat := bits d.toNat 12 2
def barIndex (d : W64) : Nat := bits d.toNat 8 4
def barCores (d : W64) : Nat := bits d.toNat 0 8
def barClusters (d : W64) : Nat := bits d.toNat 16 32
def barIdOf (d : W64) : BarId := ⟨.ofNat 2 (barLevel d), .ofNat 4 (barIndex d)⟩
/-- The layout of a descriptor, with at least one core named (R230). -/
def barLayout (d : W64) : Bool :=
  upperZero d 48 && bits d.toNat 14 2 == 0 && barLevel d != 0 && barCores d != 0 &&
    (match barLevel d with
     | 1 => barClusters d == 0
     | 2 => barClusters d != 0 && decide (barClusters d < 16)
     | _ => barClusters d != 0)
/-- Whether the index and the clusters are the region's (R230). -/
def barAllowed (s : State) (c : CtxId) (d : W64) : Bool :=
  let x := getCtx s c
  let cls := forCtx effClusters s x
  match barLevel d with
  | 1 => true
  | 2 => bitAt (forCtx (eff · · 10 0x32 2) s x) (barIndex d) && (List.range 4).all fun k => !(bitAt (barClusters d) k) || bitAt cls (4 * ctxDie c + k)
  | _ => bitAt (forCtx (eff · · 10 0x34 2) s x) (barIndex d) && (barClusters d &&& cls) == barClusters d
/-- A leaf by its barrier. -/
def leafOf (x : Ctx) (id : BarId) : Option Leaf := x.prog.leaves.find? fun l => l.id == id
/-- Replaces a leaf. -/
def setLeaf (x : Ctx) (l : Leaf) : Ctx :=
  let ls := x.prog.leaves
  { x with prog := { x.prog with leaves := if ls.any fun m => m.id == l.id then ls.map fun m => if m.id = l.id then l else m else l :: ls } }
/-- Remembers the descriptor of an arrival that has flipped, before another arrival on its barrier (R232). -/
def passLeaf (x : Ctx) : Option Leaf → Ctx
  | some l => if x.prog.passed.contains l.desc then x else { x with prog := { x.prog with passed := l.desc :: x.prog.passed } }
  | none => x
def arriveCheck (x : Ctx) (a : List W64) (_ _ : W64) : Except Stop Unit := do
  must (barLayout (arg a 0)) illegalForm
  must (match leafOf x (barIdOf (arg a 0)) with
    | some l => l.flipped
    | none => true) illegalForm
def semBarArrive (sd : Side) (o : CA) (iss : Iss) (s : State) : Res :=
  cIssue sd (.barArrive o) iss (arriveCheck s.cx) (fun s t =>
    let d := xarg t 0
    if barAllowed s s.cid d then
      let old := leafOf s.cx (barIdOf d)
      let l : Leaf := { id := barIdOf d, desc := d.setWidth 48, sent := false, phase := !((old.map (·.phase)).getD true), flipped := false
                        tid := t.tid, ch := sd, seq := t.seq, prev := old.map fun l => (l.desc, l.phase) }
      let s := pushXfer s sd { t with phase := .atBarrier }
      .ok { s with cx := setLeaf (passLeaf s.cx old) l }
    else .ok (pushXfer s sd { t with status := permission })) s
/-- No kind 01 transfer of the context is incomplete (R216). -/
def matesIdle (x : Ctx) : Bool := !(x.con.c0.xfers.any namesMate) && !(x.con.c1.xfers.any namesMate)
/-- A completed wait of cluster level clears the kind 01 mark (R216). -/
def clearMate (x : Ctx) (id : BarId) : Ctx := if id.level = 1 ∧ matesIdle x then { x with prog := { x.prog with kind01 := false } } else x
/-- Parks the issuing context on a barrier (R232). -/
def park (s : State) (id : BarId) : State :=
  putRun s { s.cx.run with parkedOn := some id, state := if s.cx.mon.active then .monitor else .parked }
def semBarWait (sd : Side) (o : CA) (iss : Iss) (s : State) : Res :=
  guarded iss o.g s do
    let a ← cArgs iss sd (.barWait o)
    must (barLayout (arg a 0)) illegalForm
    let id := barIdOf (arg a 0)
    match (leafOf s.cx id).filter fun l => l.desc == (arg a 0).setWidth 48 with
    | none => if s.cx.prog.passed.contains ((arg a 0).setWidth 48) then .ok { s with cx := clearMate s.cx id } else trapWith illegalForm
    | some l => if l.flipped then .ok { s with cx := clearMate s.cx id } else .ok (park s id)

/-! ### Fences, stream reset (R234, R235) -/

def semSfence (sd : Side) (o : CA) (iss : Iss) (s : State) : Res :=
  cIssue sd (.sfence o) iss (fun a _ _ => must (upperZero (arg a 0) 16) illegalForm)
    (fun s t => .ok (pushXfer s sd { t with phase := .fenced })) s
def semSrst (sd : Side) (o : CA) (iss : Iss) (s : State) : Res :=
  cIssue sd (.srst o) iss (fun a _ _ => must (upperZero (arg a 0) 4 && arg a 0 != 0) illegalForm)
    (fun s t => .ok (pushXfer s sd { t with phase := .fenced })) s

/-! ### The wheel (R236, 09 R187) -/

/-- What an SC operation releases or must follow on its channel, but for SC operations, which keys put in order (R187, log entry 99). -/
def scBlocked (s : State) (sd : Side) (t : Xfer) : Bool :=
  let timed := fun (u : Xfer) => match u.phase with
    | .timed _ => true
    | _ => false
  (olderOn s.cx sd t).any fun u => !(timed u) && (covered s 4 u || acquires u.op)
/-- An SC operation: in a wrong class or without a position it completes with PERMISSION; else it takes the key at hand or waits for one. -/
def semSc (sd : Side) (op : CSyl) (iss : Iss) (s : State) : Res :=
  cIssue sd op iss (alignCheck 8) (fun s t =>
    let cls := bits t.x.toNat 60 4
    if cls = 0xA ∨ cls = 0xC ∨ !(ownsAny s s.cid.core.toNat) then .ok (pushXfer s sd { t with status := permission })
    else match (wheelKey s s.cid.core.toNat).filter fun _ => !(scBlocked s sd t) with
      | none => .error (.hold .wheel)
      | some k => .ok (issueMarks (pushXfer s sd { t with phase := .timed (k + 96) }) sd t)) s
def semScLd64 (sd : Side) (o : CS) (iss : Iss) (s : State) : Res := semSc sd (.scLd64 o) iss s
def semScSt64 (sd : Side) (o : CS) (iss : Iss) (s : State) : Res := semSc sd (.scSt64 o) iss s
def semScSwap (sd : Side) (o : CS) (iss : Iss) (s : State) : Res := semSc sd (.scSwap o) iss s
def semScAdd (sd : Side) (o : CS) (iss : Iss) (s : State) : Res := semSc sd (.scAdd o) iss s

end Sys2Proof.Machine
end

