-- ==== Sys2Proof/Machine/Scale.lean ====
section
/-! DEFINITION. What the instructions of the K slot do (06 R142): the edge scale latches xr0, xr1, xc0, xc1, numbered 0 to 3, and where a
block record of a panel lies (06 R138). -/

namespace Sys2Proof.Machine

/-- An edge scale latch. -/
def latchGet (m : Mat) (x : Nat) : Latch := (m.latch[x]?).getD 0
/-- A write of a latch, with the times that 06 R143 counts from. -/
def latchSet (s : State) (iss : Iss) (x : Nat) (v : Latch) : State :=
  { s with cx := { s.cx with
      m := { s.cx.m with latch := s.cx.m.latch.setIfInBounds x v }
      run := { s.cx.run with
        kSched := s.cx.run.kSched.setIfInBounds x (some iss.v.run.sched)
        kWall := s.cx.run.kWall.setIfInBounds x (some (getCl s (ctxCl s.cid)).wall) } } }

/-- Record size of a block format code: 17 for Q4, 33 for Q8 (04 R68). -/
def recordSize (code : Nat) : Nat := if code = 0x18 then 17 else 33
/-- Byte `k` of record `n` of a panel at `p` whose records fill units of `u` bytes (06 R138). -/
def recordByte (p u z n k : Nat) : Nat := p + n / (u / z) * u + n % (u / z) * z + k

/-- `kld` (R142). -/
def semKld (o : KL) (iss : Iss) (s : State) : Res :=
  guarded iss o.g s do
    let a ← scrAddr (bGet iss.v.r o.b.toNat) (128 * o.off.toNat) 128 1
    let s ← touch s (scrUnits a 128)
    .ok (latchSet s iss o.x.toNat (.ofNat 1024 (leNat (scrRead iss a 128))))

/-- The scale bytes that `kldp` reads, checked record by record (R142). -/
def kldpBytes (x : Ctx) (b tag : Nat) (kb : Nat) : Except Stop (List Nat) :=
  (List.range 128).mapM fun p => do
    let z := recordSize (tag / 4)
    let a := recordByte b 4096 z (kb * 128 + p) (z - 1)
    must (decide (a < 0x200000)) scratchRange a
    must ((tagAt x a).toNat == tag) formatMismatch a
    .ok a
/-- `kldp` (R142). -/
def semKldp (o : KL) (iss : Iss) (s : State) : Res :=
  guarded iss o.g s do
    let b := (bGet iss.v.r o.b.toNat).toNat
    must (decide (b % 4096 = 0)) misaligned b
    must (decide (b < 0x200000)) scratchRange b
    let tag := (tagAt iss.v b).toNat
    must (decide (tag / 4 = 0x18 ∨ tag / 4 = 0x19)) formatMismatch b
    let l ← kldpBytes iss.v b tag o.off.toNat
    let s ← touch s ((l.map (· / 4096)).eraseDups)
    .ok (latchSet s iss o.x.toNat (.ofNat 1024 (leNat (l.map fun a => cellGet iss.v.prog.scratch a))))
/-- `kfill` (R142). -/
def semKfill (o : KF) (iss : Iss) (s : State) : Res :=
  guarded iss o.g s (.ok (latchSet s iss o.x.toNat (ofLanes 8 1024 (fun _ => o.v) 128)))
/-- `kcpy`; onto itself it has no effect (R142). -/
def semKcpy (o : KC) (iss : Iss) (s : State) : Res :=
  guarded iss o.g s (.ok (if o.x = o.y then s else latchSet s iss o.x.toNat (latchGet iss.v.m o.y.toNat)))

end Sys2Proof.Machine
end

