-- ==== Sys2Proof/Machine/Matrix.lean ====
section
/-! DEFINITION. Matrix beats (06 R136-R153): panels, edges, tiles, the held edge, accumulates and the values of drains. -/

namespace Sys2Proof.Machine

/-! ### Element formats of edges (R136, R138, 04 R79) -/

/-- Bits of an element of an operand format, 0 for a format that no mode accepts. -/
def elemWidth (code : Nat) : Nat :=
  if code = 0x18 then 4 else if [0x01, 0x02, 0x13, 0x14, 0x19, 0x1C].contains code then 8 else if code = 0x11 ∨ code = 0x12 then 16 else 0
/-- Formats that a tile's mode accepts. -/
def modeAccepts (mode : BitVec 2) (code : Nat) : Bool :=
  match mode.toNat with
  | 0 => [0x01, 0x02, 0x13, 0x14, 0x18, 0x19].contains code
  | 1 => [0x01, 0x02, 0x13, 0x14, 0x18, 0x19, 0x11, 0x12].contains code
  | _ => code == 0x1C
/-- Format of a lent-port edge (R144). -/
def lentCode (f : BitVec 3) : Nat := ([0x01, 0x02, 0x13, 0x14, 0x1C, 0x11, 0x12][f.toNat]?).getD 0
/-- An edge: format code, 128 raw elements (a byte of two codes for Q4), 128 scale bytes. -/
structure Edge where
  code : Nat
  raw : List Nat
  sc : List Nat
  deriving DecidableEq, Repr
/-- The value of element `t` of a position. -/
def edgeVal (e : Edge) (p t : Nat) : FV :=
  let r := (e.raw[p]?).getD 0
  match e.code with
  | 0x01 => let v := signed 8 r; .fin (v < 0) v.natAbs 0
  | 0x02 => .fin false (r % 256) 0
  | 0x13 => fdec e4m3 r
  | 0x14 => fdec e5m2 r
  | 0x11 => fdec fp16 r
  | 0x12 => fdec bf16 r
  | 0x18 => dec4 ((e.sc[p]?).getD 0) (bits r (4 * t) 4)
  | _ => dec8 ((e.sc[p]?).getD 0) r
/-- Depth of a beat on an element width. -/
def depthOf (code : Nat) : Nat := if elemWidth code = 4 then 2 else 1

/-! ### Panels (R138) -/

/-- A fetch that fails: the stop, with the rows fetched before it. -/
abbrev Fetch := Except (Stop × List Nat)
/-- Value of %mtval for a fault at an address: the unit for a scratchpad unit outside the footprint (16 R317). -/
def faultVal (e : Byte) (va : Nat) : Nat := if e = permission ∧ bits va 60 4 = 0xA then bits va 12 9 else va
/-- Where one byte of a panel lies, for a read by a context's pipe. -/
def pipeSite (s : State) (c : CtxId) (va : Nat) : Except Stop Site :=
  if 2 ^ 64 ≤ va then trapWith pageFault va
  else match locate s c va 1 { r := true } with
    | .error e => trapWith e (faultVal e va)
    | .ok t =>
      match absentAt s t.place with
      | some (k, u) => .error (.hold (if k = ctxNum c then .absent u else .absentOf k u))
      | none =>
        match t.place with
        | .main pa => if canRead s c pa then .ok t else .error (.hold (.horizon va))
        | _ => .ok t
/-- Format byte of a site; of a unit in another package, a free value. -/
def siteFmt (s : State) (t : Site) : Byte :=
  match t.place with
  | .peer _ _ off => Config.peerFormat s.free (off / 65536)
  | _ => t.fmt
/-- A format byte with the geometry its code demands (04 R67). -/
def fmtLegal (f : Byte) : Bool :=
  let code := f.toNat / 4
  if code = 0x18 ∨ code = 0x19 then f.toNat % 4 != 0 else f.toNat % 4 == 0
/-- Size of the unit that a panel's records fill (R138): the page for main memory and peers, else 4,096. -/
def panelUnit (base : Nat) (t : Site) : Nat := if base / 2 ^ 60 < 8 ∨ base / 2 ^ 60 = 0xC then t.size else 4096
/-- Row `p` of a panel at `base`, index `k`, records in units of `u` bytes: raw element and the places read; checks in the order of R153. -/
def pipeRow (s : State) (c : CtxId) (base k u : Nat) (fmt : Byte) (accept : Nat → Bool) (p : Nat) : Except Stop (Nat × List Place) := do
  let code := fmt.toNat / 4
  let q := decide (code = 0x18 ∨ code = 0x19)
  must (!(code == 0x18) || k % 2 == 0) misaligned base
  must (decide (base % (if q then u else max 1 (elemWidth code / 8)) = 0)) misaligned base
  let a := if q then recordByte base u (recordSize code) (k / 32 * 128 + p) (if code = 0x18 then k % 32 / 2 else k % 32)
    else base + (k * 128 + p) * (elemWidth code / 8)
  let n := if elemWidth code = 16 then 2 else 1
  let ts ← (List.range n).mapM fun i => pipeSite s c (a + i)
  must (ts.all (fun t => siteFmt s t == fmt) && fmtLegal fmt && accept code) formatMismatch a
  .ok (leNat (ts.flatMap fun t => readPlace s (dieOf s c) s.free t.place 1), ts.map (·.place))
/-- Rows `p` to 127 after the rows already fetched. -/
def pipeRows (row : Nat → Except Stop (Nat × List Place)) : Nat → List Nat → List Place → Fetch (List Nat × List Place)
  | 0, acc, ps => .ok (acc, ps)
  | fuel + 1, acc, ps =>
    match row acc.length with
    | .error e => .error (e, acc)
    | .ok (v, p) => pipeRows row fuel (acc ++ [v]) (ps ++ p)
/-- A panel: format byte, raw rows, places. `had` are the rows of an earlier try with their format. -/
def pipe (s : State) (c : CtxId) (base k : Nat) (accept : Nat → Bool) (had : List Nat) (hadFmt : Byte) : Except (Stop × Byte × List Nat) (Byte × List Nat × List Place) :=
  let at_ := pipeSite s c base
  let u := match at_ with
    | .ok t => panelUnit base t
    | .error _ => 4096
  let f : Except Stop Byte := if had.isEmpty then at_.map (siteFmt s) else .ok hadFmt
  match f with
  | .error e => .error (e, 0, [])
  | .ok f =>
    match pipeRows (pipeRow s c base k u f accept) (128 - had.length) had [] with
    | .error (e, l) => .error (e, f, l)
    | .ok (l, ps) => .ok (f, l, ps)
/-- Touches and clock replies of the places a beat read. -/
def noteReads (s : State) (c : CtxId) (ps : List Place) : State :=
  let units := (ps.map fun p => match p with
    | .scr k off => .scr k (off / 4096 * 4096)
    | q => q).eraseDups
  let s := noteTouch s c units
  if ps.any fun p => (match p with
      | .peer .. => true
      | _ => false) then { s with free := s.free + 1 } else s

/-! ### Beats -/

/-- A completed beat clears %rowprog and the staging edges (R140). -/
def beatDone (s : State) : State := { s with cx := { s.cx with m := { s.cx.m with rowprog := 0, staging := {} } } }
/-- The displacement of a beat with its stepped part (R144, 03 R33). -/
def moDisp (o : MO) (iss : Iss) : Int := o.disp.toInt + iss.delta.toInt
/-- Units of a whole tile. -/
def tileUnits (acc : BitVec 1) : List Nat := (List.range 16).map fun b => 768 + 16 * acc.toNat + b
/-- The rows that an earlier try of this beat left staged. -/
def stagedOf (iss : Iss) : Staging :=
  let g := iss.v.m.staging
  if iss.v.m.rowprog.getLsbD 8 ∧ g.bundle = iss.bundle ∧ g.rpt = iss.v.ctl.rptidx then g else {}
/-- The edge of a lent port (R144). -/
def lentEdge (iss : Iss) (o : MO) : Edge :=
  let sd : Side := if o.src.toNat = 2 then .a else .b
  let row := (rowGet iss.v sd (phys (vfile iss.v sd) o.v.toNat)).toNat
  let code := lentCode o.fmt
  { code := code, raw := (List.range 128).map fun p => bits row (elemWidth code * p) (elemWidth code), sc := [] }
/-- Unit of a lent register. -/
def lentUnit (iss : Iss) (o : MO) : Nat :=
  let sd : Side := if o.src.toNat = 2 then .a else .b
  vUnit sd (phys (vfile iss.v sd) o.v.toNat)
/-- The held edge (R137). -/
def heldEdge (m : Mat) : Edge :=
  { code := m.held.code.toNat, raw := (List.range 128).map fun p => (lane 16 m.held.raw p).toNat
    sc := (List.range 128).map fun p => (lane 8 m.held.scale p).toNat }
/-- Number of the latch that an edge element selects (R141): rows xr, columns xc. -/
def latchOf (colEdge : Bool) (k : Nat) : Nat := (if colEdge then 2 else 0) + k / 32 % 2
/-- An edge from a panel, with the scale bytes of its latch. -/
def panelEdge (m : Mat) (colEdge : Bool) (k : Nat) (f : Byte) (raw : List Nat) : Edge :=
  let code := f.toNat / 4
  let l := latchGet m (latchOf colEdge k)
  { code := code, raw := raw, sc := if code = 0x18 ∨ code = 0x19 then (List.range 128).map fun p => (lane 8 l p).toNat else [] }
/-- A Q8 latch byte of type 11 (R141). -/
def latchBad (e : Edge) : Bool := e.code == 0x19 && e.sc.any fun b => b / 64 == 3
/-- The distance of a beat from the K writes of the latches it reads (R143): a trap for a primary's kernel code, for which a K write of the beat's own
bundle is at distance 0 (07 R162), a wait since the last issued one for other code. `s` has the effects of the bundle's lower slots. -/
def latchTime (s : State) (iss : Iss) (ls : List Nat) : Except Stop Unit :=
  ls.forM fun x =>
    if isPrim s s.cid && !iss.v.mon.active then
      match (s.cx.run.kSched[x]?).getD none with
      | some t => must (decide (t + 6 ≤ iss.v.run.sched)) timingFault
      | none => .ok ()
    else
      match (iss.v.run.kWall[x]?).getD none with
      | some t => if t + 6 ≤ (getCl s (ctxCl s.cid)).wall then .ok () else .error (.hold .item)
      | none => .ok ()
/-- Latches that a panel edge selects. -/
def latchesOf (colEdge : Bool) (k : Nat) (e : Edge) : List Nat := if e.code = 0x18 ∨ e.code = 0x19 then [latchOf colEdge k] else []

/-- A trap of a fetch with the rows it leaves staged. -/
def stageStop (iss : Iss) (e : Stop) (fa fb : Byte) (a b : List Nat) (row : Nat) : Stop :=
  match e with
  | .trap t => .trap { t with staged := some ({ bundle := iss.bundle, rpt := iss.v.ctl.rptidx, fmtA := fa, fmtB := fb, rowsA := a, rowsB := b }, row) }
  | h => h
/-- The memory that a pipe reads: of the issuing context's own scratchpad and tags, what stood before the issue (05 R95, R99). -/
def issueMemory (iss : Iss) (s : State) : State :=
  { s with cx := { s.cx with prog := { s.cx.prog with scratch := iss.v.prog.scratch }, sys := { s.cx.sys with tags := iss.v.sys.tags } } }
/-- Fetches the panels that a beat uses: pipe A when `useA`, then pipe B when `useB`; `other` is the width of an edge known before. -/
def fetchPanels (s : State) (iss : Iss) (k : Nat) (useA useB : Bool) (ok : Nat → Bool) (other : Option Nat) :
    Except Stop ((Byte × List Nat) × (Byte × List Nat) × List Place) := do
  let g := stagedOf iss
  let fits := fun (w : Option Nat) code => ok code && (match w with
    | some n => elemWidth code == n
    | none => true)
  let a ← if useA then
      match pipe (issueMemory iss s) s.cid iss.v.m.mpa.toNat k (fits other) g.rowsA g.fmtA with
      | .error (e, f, l) => .error (stageStop iss e f 0 l [] l.length)
      | .ok r => .ok r
    else .ok (0, [], [])
  let w := if useA then some (elemWidth (a.1.toNat / 4)) else other
  let b ← if useB then
      match pipe (issueMemory iss s) s.cid iss.v.m.mpb.toNat k (fits w) g.rowsB g.fmtB with
      | .error (e, f, l) => .error (stageStop iss e a.1 f a.2.1 l (128 + l.length))
      | .ok r => .ok r
    else .ok (0, [], [])
  .ok ((a.1, a.2.1), (b.1, b.2.1), a.2.2 ++ b.2.2)

/-! ### Modes and clears (R145) -/

/-- The cells of rows cleared. -/
def clearRows (x : Ctx) (t : Nat) (rows : List Nat) : Ctx := rows.foldl (fun x r => accSet x t r 0) x
/-- A tile cleared, with its new state. -/
def tileClear (o : MO) (iss : Iss) (f : Tile → Tile) (s : State) : Res :=
  guarded iss o.g s do
    let s ← touch s (tileUnits o.acc)
    let x := clearRows s.cx o.acc.toNat (List.range 128)
    .ok (beatDone { s with cx := { x with m := tileSet x.m o.acc.toNat (f (tileGet x.m o.acc.toNat)) } })
def semMexact (o : MO) (iss : Iss) (s : State) : Res :=
  tileClear o iss (fun t => { t with mode := if o.row.getLsbD 0 then 2 else 0, anchor := 0, beats := 0 }) s
def semManch (o : MO) (iss : Iss) (s : State) : Res :=
  guarded iss o.g s do
    must (decide (-1024 ≤ moDisp o iss ∧ moDisp o iss < 1024)) illegalOpcode
    tileClear o iss (fun t => { t with mode := 1, anchor := .ofInt 11 (moDisp o iss), beats := 0 }) s
def semMzero (o : MO) (iss : Iss) (s : State) : Res := tileClear o iss (fun t => { t with beats := 0 }) s
def semMrow (o : MO) (iss : Iss) (s : State) : Res :=
  guarded iss o.g s do
    must ((tileGet iss.v.m o.acc.toNat).mode != 2) illegalForm
    let s ← touch s [accUnit o.acc.toNat o.row.toNat]
    .ok (beatDone { s with cx := accSet s.cx o.acc.toNat o.row.toNat 0 })

/-! ### Push and shift (R146) -/

/-- Fills H. -/
def fillHeld (s : State) (e : Edge) : State :=
  { s with cx := { s.cx with m := { s.cx.m with held :=
            { filled := true, code := .ofNat 6 e.code, raw := ofLanes 16 2048 (fun p => .ofNat 16 ((e.raw[p]?).getD 0)) 128
              scale := ofLanes 8 1024 (fun p => .ofNat 8 ((e.sc[p]?).getD 0)) 128 } } } }
def semMpush (o : MO) (iss : Iss) (s : State) : Res :=
  guarded iss o.g s do
    if 2 ≤ o.src.toNat then
      let s ← touch s [lentUnit iss o]
      .ok (beatDone (fillHeld s (lentEdge iss o)))
    else
      must (decide (0 ≤ moDisp o iss)) illegalForm
      let k := (moDisp o iss).toNat
      let colEdge := o.src = 1
      let (a, b, ps) ← fetchPanels s iss k (!colEdge) colEdge (fun c => elemWidth c != 0) none
      let e := panelEdge iss.v.m colEdge k (if colEdge then b.1 else a.1) (if colEdge then b.2 else a.2)
      must (!(latchBad e)) formatMismatch
      latchTime s iss (latchesOf colEdge k e)
      .ok (beatDone (fillHeld (noteReads s s.cid ps) e))
def semMshift (o : MO) (iss : Iss) (s : State) : Res :=
  guarded iss o.g s do
    must iss.v.m.held.filled illegalForm
    let e := heldEdge iss.v.m
    let turn := fun (l : List Nat) => (List.range 128).map fun p => (l[(p + o.row.toNat) % 128]?).getD 0
    .ok (beatDone (fillHeld s { e with raw := turn e.raw, sc := turn e.sc }))

/-! ### Accumulate (R147, R149) -/

/-- A row from its cells. -/
def rowOfCells (l : List Wide) : ARow := .ofNat 32768 (l.foldr (fun c acc => c.toNat + 2 ^ 256 * acc) 0)
/-- One row of an exact or anchored beat: cells, saturation, lost bits. -/
def maccRow (t : Tile) (d : Nat) (old : ARow) (a : Nat → FV) (b : Nat → Nat → FV) : ARow × Bool × Bool :=
  let cells := (List.range 128).map fun j =>
    (List.range d).foldl (fun (acc : Wide × Bool × Bool) k =>
      let p := productCode (t.mode == 1) t.anchor.toInt (fmulV (a k) (b j k))
      let c := wideAdd acc.1 p.1
      (c, acc.2.1 || wideSpecial c, acc.2.2 || p.2)) (lane 256 old j, false, false)
  (rowOfCells (cells.map (·.1)), cells.any (·.2.1), cells.any (·.2.2))
/-- One row of a phasor beat (R149). -/
def maccpRow (old : ARow) (a : Nat) (b : Nat → Nat) : ARow :=
  rowOfCells ((List.range 128).map fun j =>
    let c := lane 256 old j
    if bitAt a 7 ∨ bitAt (b j) 7 then c
    else
      let h := 256 * ((a + b j) % 128)
      pairAdd c (BitVec.ofInt 128 (cosT h) ++ BitVec.ofInt 128 (sinT h)))
/-- The two edges of an accumulate beat, with every check of R153 before a cell changes. -/
def beatEdges (o : MO) (iss : Iss) (phasor : Bool) (s : State) : Except Stop (Edge × Edge × List Place) := do
  let t := tileGet iss.v.m o.acc.toNat
  must (o.src != 1 || iss.v.m.held.filled) illegalForm
  must (decide (0 ≤ moDisp o iss)) illegalForm
  let ok := modeAccepts t.mode
  must ((t.mode == 2) == phasor) formatMismatch
  must (decide (o.src.toNat < 2) || ok (lentCode o.fmt)) formatMismatch
  must (o.src != 1 || ok iss.v.m.held.code.toNat) formatMismatch
  let k := (moDisp o iss).toNat
  let known := if o.src = 1 then some (elemWidth iss.v.m.held.code.toNat) else if 2 ≤ o.src.toNat then some (elemWidth (lentCode o.fmt)) else none
  let (fa, fb, ps) ← fetchPanels s iss k (decide (o.src.toNat < 2)) (o.src != 1) ok known
  let a := if o.src.toNat < 2 then panelEdge iss.v.m false k fa.1 fa.2 else lentEdge iss o
  let b := if o.src = 1 then heldEdge iss.v.m else panelEdge iss.v.m true k fb.1 fb.2
  must (!(decide (o.src.toNat < 2) && latchBad a)) formatMismatch
  must (!(o.src != 1 && latchBad b)) formatMismatch
  latchTime s iss ((if o.src.toNat < 2 then latchesOf false k a else []) ++ (if o.src = 1 then [] else latchesOf true k b))
  .ok (a, b, ps)
/-- Units that an accumulate touches before it fetches. -/
def beatUnits (o : MO) (iss : Iss) : List Nat := tileUnits o.acc ++ (if 2 ≤ o.src.toNat then [lentUnit iss o] else [])
/-- `macc`; 16-bit edges occupy the array for 4 cycles (R148). -/
def semMacc (o : MO) (iss : Iss) (s : State) : Res :=
  guarded iss o.g s do
    let s ← touch s (beatUnits o iss)
    let (a, b, ps) ← beatEdges o iss false s
    let t := tileGet iss.v.m o.acc.toNat
    let d := depthOf a.code
    let r := (List.range 128).foldl (fun (r : Ctx × Bool × Bool) i =>
      let y := maccRow t d (accGet r.1 o.acc.toNat i) (edgeVal a i) (edgeVal b)
      (accSet r.1 o.acc.toNat i y.1, r.2.1 || y.2.1, r.2.2 || y.2.2)) (s.cx, false, false)
    let t' := tileGet r.1.m o.acc.toNat
    let x := { r.1 with m := tileSet r.1.m o.acc.toNat { t' with sat := t'.sat || r.2.1, lost := t'.lost || r.2.2 } }
    let s := beatDone (noteReads { s with cx := x } s.cid ps)
    .ok (if elemWidth a.code = 16 then markItem s .array 4 else s)
def semMaccp (o : MO) (iss : Iss) (s : State) : Res :=
  guarded iss o.g s do
    let s ← touch s (beatUnits o iss)
    let (a, b, ps) ← beatEdges o iss true s
    let x := (List.range 128).foldl (fun x i =>
      accSet x o.acc.toNat i (maccpRow (accGet x o.acc.toNat i) ((a.raw[i]?).getD 0) (fun j => (b.raw[j]?).getD 0))) s.cx
    let t := tileGet x.m o.acc.toNat
    let x := { x with m := tileSet x.m o.acc.toNat { t with beats := t.beats + 1 } }
    .ok (beatDone (noteReads { s with cx := x } s.cid ps))

/-! ### Drained elements (R150, 04 R84, R89) -/

/-- Bytes of an element of a drain format. -/
def drainSize (fmt : BitVec 3) : Nat :=
  match fmt.toNat with
  | 0 => 4
  | 1 => 2
  | 2 => 2
  | 3 => 1
  | _ => 32
/-- Format code that the destination page of a drain must carry. -/
def drainCode (phasor : Bool) (fmt : BitVec 3) : Nat :=
  match fmt.toNat with
  | 0 => 0x10
  | 1 => if phasor then 0x1D else 0x12
  | 2 => 0x11
  | 3 => 0x13
  | _ => if phasor then 0x21 else 0x20
/-- One drained element with its flags. -/
def drainElem (t : Tile) (thresh : W32) (fmt : BitVec 3) (c : Wide) : Nat × BitVec 5 :=
  if t.mode = 2 then
    let co := (lane 128 c 1).toInt
    let si := (lane 128 c 0).toInt
    match fmt.toNat with
    | 0 => (phLen co si t.beats, 0)
    | 1 => (phAngle co si t.beats thresh, 0)
    | _ => (c.toNat, 0)
  else
    match fmt.toNat with
    | 0 => drainCell fp32 t.anchor.toInt c
    | 1 => drainCell bf16 t.anchor.toInt c
    | 2 => drainCell fp16 t.anchor.toInt c
    | 3 => drainCell e4m3 t.anchor.toInt c
    | _ => (c.toNat, 0)
/-- The 128 elements of a drained row and their flags; anchor 0 in exact mode (R145). -/
def drainRow (x : Ctx) (acc row : Nat) (fmt : BitVec 3) : List Nat × BitVec 5 :=
  let t := tileGet x.m acc
  let r := (List.range 128).map fun j => drainElem t x.sys.pthresh fmt (lane 256 (accGet x acc row) j)
  (r.map (·.1), r.foldl (fun f e => f ||| e.2) 0)

/-! ### Drain into a vector file (R151) -/

/-- Registers that `mdrainv` writes. -/
def drainRegs (fmt : BitVec 3) : Nat := if fmt.toNat = 0 then 2 else if fmt.toNat = 4 then 16 else 1
def semMdrainv (o : MO) (iss : Iss) (s : State) : Res :=
  guarded iss o.g s do
    let sd : Side := if o.src.toNat = 2 then .a else .b
    let n := drainRegs o.fmt
    let t := tileGet iss.v.m o.acc.toNat
    must (!(t.mode == 2 && (o.fmt == 2 || o.fmt == 3))) illegalForm
    let ps := (List.range n).map fun i => phys (vfile iss.v sd) (o.v.toNat + i)
    let s ← touch s (accUnit o.acc.toNat o.row.toNat :: ps.map (vUnit sd))
    let (el, fl) := drainRow iss.v o.acc.toNat o.row.toNat o.fmt
    let size := drainSize o.fmt
    let whole := el.foldr (fun e acc => e % 2 ^ (8 * size) + 2 ^ (8 * size) * acc) 0
    let x := ps.zipIdx.foldl (fun x p => rowSet x sd p.1 (.ofNat 2048 (whole / 2 ^ (2048 * p.2)))) s.cx
    .ok (beatDone (raiseFlags { s with cx := x } fl))

end Sys2Proof.Machine
end

