-- ==== Sys2Proof/Machine/Drain.lean ====
section
/-! DEFINITION. The drain of an accumulator row to memory (06 R150). -/

namespace Sys2Proof.Machine

/-- The fault of a drained row: of its pieces in address order, each cause before the next (R153). -/
def drainFault (s : State) (code : Nat) (l : List ((Nat × Nat) × Except Byte Site)) : Option Stop :=
  let first := fun (p : Byte → Bool) => l.findSome? fun q => match q.2 with
    | .error e => if p e then some (Stop.trap { code := e, val := .ofNat 64 (faultVal e q.1.1) }) else none
    | .ok _ => none
  let fmt := l.findSome? fun q => match q.2 with
    | .ok t => if (siteFmt s t).toNat = 4 * code then none else some (Stop.trap { code := formatMismatch, val := .ofNat 64 q.1.1 })
    | .error _ => none
  (first (· == pageFault)) <|> (first fun _ => true) <|> fmt
/-- The sites of a drained row, checked for translation, write right and format, then for presence (R150, R153). -/
def drainSites (s : State) (c : CtxId) (code : Nat) (ps : List (Nat × Nat)) : Except Stop (List Site) :=
  let l := ps.map fun p => (p, locate s c p.1 p.2 { w := true })
  let ts := l.filterMap fun p => p.2.toOption
  match drainFault s code l with
  | some e => .error e
  | none =>
    match ts.findSome? fun t => absentAt s t.place with
    | some (k, u) => .error (.hold (if k = ctxNum c then .absent u else .absentOf k u))
    | none =>
      let n := (ts.filter (replicated s)).length
      if n ≠ 0 ∧ !(canRepWrite s (dieOf s c) n) then .error (.hold .late) else .ok ts
/-- Writes of a drain inside the package. -/
def drainLocal (s : State) (c : CtxId) (ts : List Site) (ps : List (Nat × Nat)) (l : List Byte) : State :=
  ((ts.zip ps).foldl (fun (acc : State × List Byte) p =>
    (putSite acc.1 c p.1 (acc.2.take p.2.2), acc.2.drop p.2.2)) (s, l)).1
/-- A drain into another package goes out as stream 0 packets (11 R237); a full window holds the issue (09 R181). -/
def drainRemote (s : State) (c : CtxId) (l : List (Nat × Byte)) : Res :=
  let x := getCtx s c
  let ps := writeUnits s c l
  if ps.any fun p => decide (64 < unacked s x.con.tag 0 p.1 + (ps.filter fun q => q.1 == p.1).length) then .error (.hold .late)
  else
    .ok (ps.foldl (fun s q =>
      let n := takeSeqs s c 0 q.1.toNat 1
      sendNew n.2 { dst := q.1, tag := x.con.tag, stream := 0, seq := n.1 } x.prog.tenant q.2.1 q.2.2.1 q.2.2.2 (c, none) false) s)
/-- `mdrain` (R150). -/
def semMdrain (o : MO) (iss : Iss) (s : State) : Res :=
  guarded iss o.g s do
    let t := tileGet iss.v.m o.acc.toNat
    let ph := t.mode == 2
    must (!(ph && (o.fmt == 2 || o.fmt == 3))) illegalForm
    let a : Int := iss.v.m.mpd.toNat + moDisp o iss
    let size := drainSize o.fmt
    must (decide (a % size = 0)) misaligned (BitVec.ofInt 64 a).toNat
    must (decide (0 ≤ a ∧ a + 128 * size ≤ 2 ^ 64)) pageFault (BitVec.ofInt 64 a).toNat
    let ps := ctxPieces s s.cid a.toNat (128 * size)
    let ts ← drainSites s s.cid (drainCode ph o.fmt) ps
    let s ← touch s [accUnit o.acc.toNat o.row.toNat]
    let (el, fl) := drainRow iss.v o.acc.toNat o.row.toNat o.fmt
    let bytes := el.flatMap fun e => leBytes size e
    let far := (bytes.zipIdx.map fun b => (a.toNat + b.2, b.1)).filter fun q => (remoteOf s s.cid q.1).isSome
    let s ← if far.isEmpty then .ok s else drainRemote s s.cid far
    let s := drainLocal s s.cid ts ps bytes
    .ok (beatDone (raiseFlags (watchStore (clearSpin s) iss o.g [(a.toNat, 128 * size)]) fl))

end Sys2Proof.Machine
end

