-- ==== Sys2Proof/Machine/LoopBranch.lean ====
section
/-! DEFINITION. What the instructions of the L slot do (05 R111-R118, 03 R36), and the fetch of instruction bytes (03 R64). -/

namespace Sys2Proof.Machine

/-! ### Instruction space (03 R64, 13 R282) -/

/-- The instruction page map of a slot. -/
def imapOf (k : CoreSt) (sec : Bool) : Cells 8 := if sec then k.map1 else k.map0
/-- A byte of the instruction space of a context; none on an unmapped page. -/
def fetchByte (s : State) (c : CtxId) (x : Ctx) (off : Nat) : Option Byte :=
  let p := off / 4096
  if p < 64 ∧ x.ctl.imap.getLsbD p then
    let k := getCore s c.core.toNat
    some (cellGet k.imem (4096 * ((cellGet (imapOf k c.sec) p).toNat - 1) + off % 4096))
  else none
/-- `n` bytes from an offset, or the first unmapped offset. -/
def fetchBytes (s : State) (c : CtxId) (x : Ctx) : Nat → Nat → Except Nat (List Byte)
  | 0, _ => .ok []
  | n + 1, off =>
    match fetchByte s c x off with
    | none => .error off
    | some b => (fetchBytes s c x n (off + 1)).map (b :: ·)

/-! ### Branches (R111) -/

/-- Where the next bundle is, and what its issue costs beyond its stall count and 1 (R111, R117, 03 R36). -/
def goTo (s : State) (pc : W32) (gap : Nat) : State :=
  { s with cx := { s.cx with r := { s.cx.r with pc := pc }, run := { s.cx.run with gap := gap } } }
/-- The target of a branch: its own bundle's address plus 4 times the offset. -/
def branchTarget (o : LB) (iss : Iss) : W32 := iss.bundle + (o.off.signExtend 32) * 4

def semBr (o : LB) (iss : Iss) (s : State) : Res := guarded iss o.g s (.ok (goTo s (branchTarget o iss) 2))
def semCall (o : LB) (iss : Iss) (s : State) : Res :=
  guarded iss o.g s do
    must (decide (iss.v.r.rstack.length < 8)) illegalForm
    let s := goTo s (branchTarget o iss) 2
    .ok (putR s { s.cx.r with rstack := iss.v.r.rstack ++ [iss.next] })
def semRet (o : SG) (iss : Iss) (s : State) : Res :=
  guarded iss o.g s
    (match iss.v.r.rstack.getLast? with
    | none => trapWith illegalForm
    | some t =>
      let s := goTo s t 2
      .ok (putR s { s.cx.r with rstack := iss.v.r.rstack.dropLast }))

/-! ### Modulo loops (R112-R114) -/

/-- The stage predicates of a new loop: q0 when there is an iteration, the rest of the stages false, the others kept. -/
def loopStages (q : BitVec 8) (stages : Nat) (some_ : Bool) : BitVec 8 :=
  (q &&& ~~~(BitVec.ofNat 8 (2 ^ stages - 1))) ||| (if some_ then 1 else 0)
/-- Starts a loop. -/
def startLoop (l : BitVec 2) (cnt : Nat) (stages : Nat) (iss : Iss) (s : State) : State :=
  let seq := 1 + (iss.v.r.loops.toList.foldl (fun m x => max m x.seq) 0)
  let lp : Loop := {
    count := .ofNat 32 cnt, stages := .ofNat 32 stages, iter := 0, passes := if 1 ≤ cnt then cnt + stages - 1 else 1
    start := iss.next, active := true, exit := false, seq := seq }
  putR s { (loopSet s.cx.r l.toNat lp) with q := loopStages s.cx.r.q stages (decide (1 ≤ cnt)) }
def semLoop (o : LP) (iss : Iss) (s : State) : Res :=
  guarded iss o.g s do
    let cnt := (rs iss o.s).toNat
    must (decide (cnt < 2 ^ 32)) illegalForm
    .ok (startLoop o.l cnt (o.st.toNat + 1) iss s)
def semLoopImm (o : LI) (iss : Iss) (s : State) : Res :=
  guarded iss o.g s (.ok (startLoop o.l o.cnt.toNat (o.st.toNat + 1) iss s))

/-- Rotation of a file by the end of a pass (R113), from the base and rotation before the issue: `vrot`, or a move to a rotation register, in the
same bundle is overwritten as a whole (DESIGN CHOICE, log entry 104). -/
def rotateFile (v x : Ctx) (sd : Side) : Ctx :=
  let f := vfile v sd
  if f.base.toNat = 0 then x
  else setVFile x sd { vfile x sd with base := f.base, rot := .ofNat 11 ((f.rot.toNat + 1) % (2048 - f.base.toNat)) }
/-- The base registers after the end of a pass: each base with a step advances by it, from its value before the issue; one without keeps what the same
bundle writes into it (R113, R115; DESIGN CHOICE, log entry 104). -/
def stepBases (v r : Regs) : Regs :=
  (List.range 8).foldl (fun r k => if cellGet v.bstep k = 0 then r else bSet r k (bGet v k + cellGet v.bstep k)) r
/-- The stage predicates shifted by one pass: q0 true while iterations are left (R113). -/
def shiftStages (q : BitVec 8) (stages : Nat) (more : Bool) : BitVec 8 :=
  let m : BitVec 8 := .ofNat 8 (2 ^ stages - 1)
  (q &&& ~~~m) ||| (((q <<< 1) ||| (if more then 1 else 0)) &&& m)
def semLend (o : LE) (iss : Iss) (s : State) : Res :=
  guarded iss o.g s do
    let n := o.l.toNat
    let l := loopGet iss.v.r n
    must l.active illegalForm
    let x := rotateFile iss.v (rotateFile iss.v s.cx .a) .b
    let r := stepBases iss.v.r x.r
    let p := l.iter + 1
    let cur := (currentLoop iss.v.r).map (·.1) == some n
    let s := { s with cx := { x with r := r, run := { x.run with boundary := x.run.boundary || cur } } }
    if p < l.passes ∧ !l.exit then
      let s := putR s { (loopSet s.cx.r n { l with iter := p }) with q := shiftStages iss.v.r.q l.stages.toNat (decide (p < l.count.toNat)) }
      .ok (goTo s l.start 0)
    else .ok (putR s (loopSet s.cx.r n { l with iter := p, active := false }))
def semLexit (o : LE) (iss : Iss) (s : State) : Res :=
  guarded iss o.g s do
    let l := loopGet iss.v.r o.l.toNat
    must l.active illegalForm
    .ok (putR s (loopSet s.cx.r o.l.toNat { l with exit := true }))

/-! ### Bases and predicates (R115, R116) -/

def semBstep (o : LS) (iss : Iss) (s : State) : Res :=
  guarded iss o.g s (.ok (putR s { s.cx.r with bstep := cellSet s.cx.r.bstep o.b.toNat (o.imm.signExtend 32) }))
def semBset (o : LS) (iss : Iss) (s : State) : Res := guarded iss o.g s (.ok (putR s (bSet s.cx.r o.b.toNat (o.imm.signExtend 32))))
def semQset (o : LQ) (iss : Iss) (s : State) : Res := guarded iss o.g s (.ok (putR s { s.cx.r with q := o.q }))

/-! ### Templates, refetch, end of a run (03 R36, R117, R118) -/

/-- The 15 entries of 64 bytes. -/
def templateEntries (bs : List Byte) : List (BitVec 512) :=
  (List.range 15).map fun k => .ofNat 512 (leNat ((bs.drop (64 * k)).take 64))
/-- `dict` (03 R36): 960 bytes from the instruction scratchpad; where they both reach the monitor's pages and touch an unmapped page, PERMISSION comes
first (DESIGN CHOICE, log entry 105: the rule does not order the two). -/
def semDict (o : LD) (iss : Iss) (s : State) : Res :=
  guarded iss o.g s do
    let off := 64 * o.off.toNat
    must (iss.v.mon.active || decide (off + 960 ≤ 0x3C000)) permission (max off 0x3C000)
    match fetchBytes s s.cid iss.v 960 off with
    | .error a => trapWith fetchFault a
    | .ok bs =>
      let s := goTo s iss.next 24
      .ok { s with cx := { s.cx with ctl := { s.cx.ctl with tmpl := templateEntries bs, dictLoaded := true, dictOff := o.off } } }
def semIfence (o : SG) (iss : Iss) (s : State) : Res := guarded iss o.g s (.ok (goTo s iss.next 12))

/-- Whether a result that the scoreboard tracks has landed by wall cycle `w`. -/
def landed (sb : List Pend) (it : Item) (w : Nat) : Bool := sb.all fun p => p.item != it || decide (p.at_ ≤ w)
/-- Whether the wait of a `kend` is over: no transfer incomplete, every drain landed, in another package acknowledged (R118); and no row still to
issue, which the spec does not name: the model has the rows of V forms and of copy forms issue before the run ends (DESIGN CHOICE, log entry 30). -/
def kendReady (s : State) (c : CtxId) (x : Ctx) : Bool :=
  x.con.c0.xfers.isEmpty && x.con.c1.xfers.isEmpty && x.run.rows.isEmpty && landed x.run.sb .drain (getCl s (ctxCl c)).wall && !(drainsOut s c x)
/-- The failure that a `kend` reports, channel 0 first (10 R212). -/
def kendFailure (x : Ctx) : Option Stop :=
  match x.con.c0.fails, x.con.c1.fails with
  | f :: _, _ => some (failTrap .a f)
  | [], f :: _ => some (failTrap .b f)
  | [], [] => none
/-- `kend`: a set kind 01 mark traps (10 R216); the run ends once the wait is over. -/
def semKend (o : SG) (iss : Iss) (s : State) : Res :=
  guarded iss o.g s do
    must (!iss.v.prog.kind01) illegalForm
    if kendReady s s.cid iss.v then
      match kendFailure iss.v with
      | some e => .error e
      | none => .ok ()
    else .ok ()
    .ok (putRun s { s.cx.run with hold := some .kend })

end Sys2Proof.Machine
end

