-- ==== Sys2Proof/Machine/VectorFloat.lean ====
section
/-! DEFINITION. Floating operations of the vector slots (05 R121-R125): FP32, BF16 and FP16 arithmetic, extrema, compares, classes and the special
functions. -/

namespace Sys2Proof.Machine

/-- FP32 arithmetic, rounded once in the rounding mode (R121). -/
def semVaddF32 (sd : Side) (o : VR) (iss : Iss) (s : State) : Res := lane2 sd o iss (fadd fp32) s
def semVsubF32 (sd : Side) (o : VR) (iss : Iss) (s : State) : Res := lane2 sd o iss (fsub fp32) s
def semVmulF32 (sd : Side) (o : VR) (iss : Iss) (s : State) : Res := lane2 sd o iss (fmul fp32) s
def semVfmaF32 (sd : Side) (o : V3) (iss : Iss) (s : State) : Res := lane3 sd o iss (ffma fp32 false false) s
def semVfmsF32 (sd : Side) (o : V3) (iss : Iss) (s : State) : Res := lane3 sd o iss (ffma fp32 false true) s
def semVfnmaF32 (sd : Side) (o : V3) (iss : Iss) (s : State) : Res := lane3 sd o iss (ffma fp32 true false) s
/-- Extrema, sign operations and classes (R122): no rounding, no flag. -/
def semVminF32 (sd : Side) (o : VR) (iss : Iss) (s : State) : Res := lane2 sd o iss (fun _ _ x y => (fmin2 fp32 x y, 0)) s
def semVmaxF32 (sd : Side) (o : VR) (iss : Iss) (s : State) : Res := lane2 sd o iss (fun _ _ x y => (fmax2 fp32 x y, 0)) s
def semVabsF32 (sd : Side) (o : VR) (iss : Iss) (s : State) : Res :=
  lane1 sd o iss (fun _ _ x => (if fisNan fp32 x then fp32.nan else x % 2 ^ 31, 0)) s
def semVnegF32 (sd : Side) (o : VR) (iss : Iss) (s : State) : Res :=
  lane1 sd o iss (fun _ _ x => (if fisNan fp32 x then fp32.nan else (x + 2 ^ 31) % 2 ^ 32, 0)) s
def semVclassF32 (sd : Side) (o : VR) (iss : Iss) (s : State) : Res := lane1 sd o iss (fun _ _ x => (fclass x, 0)) s

/-- A compare of 32-bit lanes (R123). -/
def cmp32 (sd : Side) (o : VR) (iss : Iss) (f : Nat → Nat → Bool) (s : State) : Res :=
  cmpOp sd o [(sd, o.vsa), (sd, o.vsb)] iss [fun l => f (ln (vsrc iss sd o.vsa) l) (ln (vsrc iss sd o.vsb) l)] s
/-- A compare of 16-bit elements: even ones into the named mask, odd ones into the next (R125). -/
def cmp16 (sd : Side) (o : VR) (iss : Iss) (f : Nat → Nat → Bool) (s : State) : Res :=
  let e := fun h l => f (ln16 (vsrc iss sd o.vsa) l h) (ln16 (vsrc iss sd o.vsb) l h)
  cmpOp sd o [(sd, o.vsa), (sd, o.vsb)] iss [e 0, e 1] s
def semVcmpeqF32 (sd : Side) (o : VR) (iss : Iss) (s : State) : Res := cmp32 sd o iss (feq fp32) s
def semVcmpltF32 (sd : Side) (o : VR) (iss : Iss) (s : State) : Res := cmp32 sd o iss (flt fp32) s
def semVcmpleF32 (sd : Side) (o : VR) (iss : Iss) (s : State) : Res := cmp32 sd o iss (fle fp32) s
def semVcmpunF32 (sd : Side) (o : VR) (iss : Iss) (s : State) : Res := cmp32 sd o iss (fun x y => fisNan fp32 x || fisNan fp32 y) s
/-- `vsel`: a bitwise test of the third source (R123). -/
def semVsel (sd : Side) (o : V3) (iss : Iss) (s : State) : Res := lane3 sd o iss (fun _ _ x y z => (if z = 0 then y else x, 0)) s

/-- Special functions of FP32 lanes (R124). -/
def semVrecipF32 (sd : Side) (o : VR) (iss : Iss) (s : State) : Res := lane1 sd o iss (special fp32 .recip) s
def semVrsqrtF32 (sd : Side) (o : VR) (iss : Iss) (s : State) : Res := lane1 sd o iss (special fp32 .rsqrt) s
def semVsqrtF32 (sd : Side) (o : VR) (iss : Iss) (s : State) : Res := lane1 sd o iss (special fp32 .sqrt) s
def semVexp2F32 (sd : Side) (o : VR) (iss : Iss) (s : State) : Res := lane1 sd o iss (special fp32 .exp2) s
def semVlog2F32 (sd : Side) (o : VR) (iss : Iss) (s : State) : Res := lane1 sd o iss (special fp32 .log2) s
def semVsinpiF32 (sd : Side) (o : VR) (iss : Iss) (s : State) : Res := lane1 sd o iss (special fp32 .sinpi) s
def semVcospiF32 (sd : Side) (o : VR) (iss : Iss) (s : State) : Res := lane1 sd o iss (special fp32 .cospi) s
/-- Special functions of BF16 elements, rounded straight into BF16 (R124). -/
def semVrecipBf16 (sd : Side) (o : VR) (iss : Iss) (s : State) : Res := half1 sd o iss (special bf16 .recip) s
def semVrsqrtBf16 (sd : Side) (o : VR) (iss : Iss) (s : State) : Res := half1 sd o iss (special bf16 .rsqrt) s
def semVsqrtBf16 (sd : Side) (o : VR) (iss : Iss) (s : State) : Res := half1 sd o iss (special bf16 .sqrt) s
def semVexp2Bf16 (sd : Side) (o : VR) (iss : Iss) (s : State) : Res := half1 sd o iss (special bf16 .exp2) s
def semVlog2Bf16 (sd : Side) (o : VR) (iss : Iss) (s : State) : Res := half1 sd o iss (special bf16 .log2) s
def semVsinpiBf16 (sd : Side) (o : VR) (iss : Iss) (s : State) : Res := half1 sd o iss (special bf16 .sinpi) s
def semVcospiBf16 (sd : Side) (o : VR) (iss : Iss) (s : State) : Res := half1 sd o iss (special bf16 .cospi) s

/-- 16-bit arithmetic, two elements a lane (R125). -/
def semVaddBf16 (sd : Side) (o : VR) (iss : Iss) (s : State) : Res := half2 sd o iss (fadd bf16) s
def semVsubBf16 (sd : Side) (o : VR) (iss : Iss) (s : State) : Res := half2 sd o iss (fsub bf16) s
def semVmulBf16 (sd : Side) (o : VR) (iss : Iss) (s : State) : Res := half2 sd o iss (fmul bf16) s
def semVfmaBf16 (sd : Side) (o : V3) (iss : Iss) (s : State) : Res := half3 sd o iss (ffma bf16 false false) s
def semVminBf16 (sd : Side) (o : VR) (iss : Iss) (s : State) : Res := half2 sd o iss (fun _ _ x y => (fmin2 bf16 x y, 0)) s
def semVmaxBf16 (sd : Side) (o : VR) (iss : Iss) (s : State) : Res := half2 sd o iss (fun _ _ x y => (fmax2 bf16 x y, 0)) s
def semVcmpeqBf16 (sd : Side) (o : VR) (iss : Iss) (s : State) : Res := cmp16 sd o iss (feq bf16) s
def semVcmpltBf16 (sd : Side) (o : VR) (iss : Iss) (s : State) : Res := cmp16 sd o iss (flt bf16) s
def semVaddF16 (sd : Side) (o : VR) (iss : Iss) (s : State) : Res := half2 sd o iss (fadd fp16) s
def semVsubF16 (sd : Side) (o : VR) (iss : Iss) (s : State) : Res := half2 sd o iss (fsub fp16) s
def semVmulF16 (sd : Side) (o : VR) (iss : Iss) (s : State) : Res := half2 sd o iss (fmul fp16) s
def semVfmaF16 (sd : Side) (o : V3) (iss : Iss) (s : State) : Res := half3 sd o iss (ffma fp16 false false) s

end Sys2Proof.Machine
end

