-- ==== Sys2Proof/Machine/VectorInt.lean ====
section
/-! DEFINITION. Integer operations, conversions, permutes, reductions, mask operations, the generator and transfers between files of the vector
slots (05 R126-R134). -/

namespace Sys2Proof.Machine

/-! ### Integers (R126, R127) -/

/-- A lane operation on integers: no rounding, no flag. -/
def int2 (sd : Side) (o : VR) (iss : Iss) (f : Nat → Nat → Nat) (s : State) : Res := lane2 sd o iss (fun _ _ x y => (f x y % 2 ^ 32, 0)) s
/-- A signed result of 32 bits. -/
def wrap32 (v : Int) : Nat := (v % 2 ^ 32).toNat
/-- A signed result saturated to 32 bits. -/
def sat32 (v : Int) : Nat := wrap32 (max (-(2 ^ 31)) (min (2 ^ 31 - 1) v))
def semVaddI32 (sd : Side) (o : VR) (iss : Iss) (s : State) : Res := int2 sd o iss (· + ·) s
def semVsubI32 (sd : Side) (o : VR) (iss : Iss) (s : State) : Res := int2 sd o iss (fun x y => x + 2 ^ 32 - y) s
def semVmulI32 (sd : Side) (o : VR) (iss : Iss) (s : State) : Res := int2 sd o iss (· * ·) s
def semVmulhI32 (sd : Side) (o : VR) (iss : Iss) (s : State) : Res :=
  int2 sd o iss (fun x y => wrap32 (signed 32 x * signed 32 y / 2 ^ 32)) s
def semVaddsI32 (sd : Side) (o : VR) (iss : Iss) (s : State) : Res := int2 sd o iss (fun x y => sat32 (signed 32 x + signed 32 y)) s
def semVsubsI32 (sd : Side) (o : VR) (iss : Iss) (s : State) : Res := int2 sd o iss (fun x y => sat32 (signed 32 x - signed 32 y)) s
def semVminI32 (sd : Side) (o : VR) (iss : Iss) (s : State) : Res := int2 sd o iss (fun x y => wrap32 (min (signed 32 x) (signed 32 y))) s
def semVmaxI32 (sd : Side) (o : VR) (iss : Iss) (s : State) : Res := int2 sd o iss (fun x y => wrap32 (max (signed 32 x) (signed 32 y))) s
def semVminN32 (sd : Side) (o : VR) (iss : Iss) (s : State) : Res := int2 sd o iss min s
def semVmaxN32 (sd : Side) (o : VR) (iss : Iss) (s : State) : Res := int2 sd o iss max s
def semVand (sd : Side) (o : VR) (iss : Iss) (s : State) : Res := int2 sd o iss (· &&& ·) s
def semVor (sd : Side) (o : VR) (iss : Iss) (s : State) : Res := int2 sd o iss (· ||| ·) s
def semVxor (sd : Side) (o : VR) (iss : Iss) (s : State) : Res := int2 sd o iss (· ^^^ ·) s
/-- A count: the immediate when bit 8 of imm9 is set, else a register lane (R127). -/
def countOf (o : VR) (lane_ : Nat) (width : Nat) : Nat := if o.imm.getLsbD 8 then o.imm.toNat % 64 else lane_ % width
/-- The sources that a count operation reads. -/
def countSrcs (sd : Side) (o : VR) : List (Side × BitVec 11) := if o.imm.getLsbD 8 then [(sd, o.vsa)] else [(sd, o.vsa), (sd, o.vsb)]
/-- A shift of each lane. -/
def shiftOp (sd : Side) (o : VR) (iss : Iss) (f : Nat → Nat → Nat) (s : State) : Res :=
  laneOp sd o.g o.form o.mask.toNat o.vd (countSrcs sd o) 0 iss
    (fun l => (f (ln (vsrc iss sd o.vsa) l) (countOf o (ln (vsrc iss sd o.vsb) l) 32) % 2 ^ 32, 0)) s
def semVshl (sd : Side) (o : VR) (iss : Iss) (s : State) : Res := shiftOp sd o iss (fun x c => x * 2 ^ c) s
def semVshr (sd : Side) (o : VR) (iss : Iss) (s : State) : Res := shiftOp sd o iss (fun x c => x / 2 ^ c) s
def semVsra (sd : Side) (o : VR) (iss : Iss) (s : State) : Res := shiftOp sd o iss (fun x c => wrap32 (signed 32 x / 2 ^ c)) s
def semVcmpeqI32 (sd : Side) (o : VR) (iss : Iss) (s : State) : Res := cmp32 sd o iss (· == ·) s
def semVcmpltI32 (sd : Side) (o : VR) (iss : Iss) (s : State) : Res := cmp32 sd o iss (fun x y => decide (signed 32 x < signed 32 y)) s
def semVcmpltN32 (sd : Side) (o : VR) (iss : Iss) (s : State) : Res := cmp32 sd o iss (fun x y => decide (x < y)) s

/-! ### Conversions (R128) -/

def semVcvtF32I32 (sd : Side) (o : VR) (iss : Iss) (s : State) : Res := lane1 sd o iss ffromI32 s
def semVcvtI32F32 (sd : Side) (o : VR) (iss : Iss) (s : State) : Res := lane1 sd o iss ftoI32 s
/-- An element of each lane widened exactly to FP32; a NaN becomes the canonical one (R72). -/
def widen (sd : Side) (o : VR) (iss : Iss) (f : Fmt) (s : State) : Res :=
  laneOp sd o.g o.form o.mask.toNat o.vd [(sd, o.vsa)] 0 iss
    (fun l => fput fp32 0 0 (fdec f (bits (ln (vsrc iss sd o.vsa) l) (f.w * o.imm.toNat) f.w))) s
/-- Two lanes narrowed to the elements of one lane: va to the even element, vb to the odd one. -/
def narrow16 (sd : Side) (o : VR) (iss : Iss) (f : Fmt) (s : State) : Res :=
  laneOp sd o.g o.form o.mask.toNat o.vd [(sd, o.vsa), (sd, o.vsb)] (drawsOf o.rm 2) iss
    (fun l =>
      let e := fun h x => fput f o.rm.toNat (drawU (vfile iss.v sd) h l) (fdec fp32 x)
      pair16 (e 0 (ln (vsrc iss sd o.vsa) l)) (e 1 (ln (vsrc iss sd o.vsb) l))) s
/-- A lane narrowed into byte #sel of the destination lane; the other bytes are kept. -/
def narrow8 (sd : Side) (o : VR) (iss : Iss) (f : Fmt) (s : State) : Res :=
  laneOp sd o.g o.form o.mask.toNat o.vd [(sd, o.vsa)] (drawsOf o.rm 1) iss
    (fun l =>
      let r := fput f o.rm.toNat (drawU (vfile iss.v sd) 0 l) (fdec fp32 (ln (vsrc iss sd o.vsa) l))
      let old := ln (vsrc iss sd o.vd) l
      let k := o.imm.toNat
      (old - ln8 (vsrc iss sd o.vd) l k * 2 ^ (8 * k) + r.1 % 256 * 2 ^ (8 * k), r.2)) s
def semVcvtF32Bf16 (sd : Side) (o : VR) (iss : Iss) (s : State) : Res := widen sd o iss bf16 s
def semVcvtBf16F32 (sd : Side) (o : VR) (iss : Iss) (s : State) : Res := narrow16 sd o iss bf16 s
def semVcvtF32F16 (sd : Side) (o : VR) (iss : Iss) (s : State) : Res := widen sd o iss fp16 s
def semVcvtF16F32 (sd : Side) (o : VR) (iss : Iss) (s : State) : Res := narrow16 sd o iss fp16 s
def semVcvtF32E4m3 (sd : Side) (o : VR) (iss : Iss) (s : State) : Res := widen sd o iss e4m3 s
def semVcvtE4m3F32 (sd : Side) (o : VR) (iss : Iss) (s : State) : Res := narrow8 sd o iss e4m3 s
def semVcvtF32E5m2 (sd : Side) (o : VR) (iss : Iss) (s : State) : Res := widen sd o iss e5m2 s
def semVcvtE5m2F32 (sd : Side) (o : VR) (iss : Iss) (s : State) : Res := narrow8 sd o iss e5m2 s

/-! ### Quantizing (R129) -/

/-- A row written whole, with flags. -/
def rowOp (sd : Side) (o : VR) (iss : Iss) (r : List Nat × BitVec 5) (s : State) : Res :=
  laneOp sd o.g o.form o.mask.toNat o.vd [(sd, o.vsa)] 0 iss (fun l => ((r.1[l]?).getD 0, r.2)) s
/-- The bytes of a block record: codes, then the scale byte (04 R68). -/
def recordBytes (q8 : Bool) (codes : List Nat) (scale : Nat) : List Nat :=
  (if q8 then codes else (List.range 16).map fun j => (codes[2 * j]?).getD 0 + 16 * (codes[2 * j + 1]?).getD 0) ++ [scale]
/-- Lanes from bytes. -/
def bytesToLanes (l : List Nat) : List Nat :=
  (List.range 64).map fun k => (l[4 * k]?).getD 0 + 2 ^ 8 * (l[4 * k + 1]?).getD 0 + 2 ^ 16 * (l[4 * k + 2]?).getD 0 + 2 ^ 24 * (l[4 * k + 3]?).getD 0
/-- The quantized row of two blocks. -/
def quantRow (q8 : Bool) (ty : Nat) (row : VRow) : List Nat × BitVec 5 :=
  let blk := fun h => quantBlock q8 ty ((List.range 32).map fun k => ln row (32 * h + k))
  let b0 := blk 0
  let b1 := blk 1
  (bytesToLanes (recordBytes q8 b0.1 b0.2.1 ++ recordBytes q8 b1.1 b1.2.1), b0.2.2 ||| b1.2.2)
def semVquantQ4 (sd : Side) (o : VR) (iss : Iss) (s : State) : Res := rowOp sd o iss (quantRow false (o.imm.toNat % 4) (vsrc iss sd o.vsa)) s
def semVquantQ8 (sd : Side) (o : VR) (iss : Iss) (s : State) : Res := rowOp sd o iss (quantRow true (o.imm.toNat % 4) (vsrc iss sd o.vsa)) s
/-- The 64 values of two Q4 records in the first 34 bytes of a row. -/
def dequantRow (row : VRow) : List Nat :=
  let byte := fun k => bits row.toNat (8 * k) 8
  (List.range 64).map fun l =>
    let h := l / 32
    let c := bits (byte (17 * h + l % 32 / 2)) (4 * (l % 2)) 4
    (fput fp32 0 0 (dec4 (byte (17 * h + 16)) c)).1
def semVdequantQ4 (sd : Side) (o : VR) (iss : Iss) (s : State) : Res := rowOp sd o iss (dequantRow (vsrc iss sd o.vsa), 0) s

/-! ### Permutes (R130) and `vrotl` (R127) -/

/-- A permute: lane `l` of the destination from the whole source rows. -/
def permute (sd : Side) (o : VR) (srcs : List (Side × BitVec 11)) (iss : Iss) (f : VRow → VRow → Nat → Nat) (s : State) : Res :=
  laneOp sd o.g o.form o.mask.toNat o.vd srcs 0 iss (fun l => (f (vsrc iss sd o.vsa) (vsrc iss sd o.vsb) l, 0)) s
def semVperm (sd : Side) (o : VR) (iss : Iss) (s : State) : Res :=
  permute sd o [(sd, o.vsa), (sd, o.vsb)] iss (fun a b l => ln a (ln b l % 64)) s
def semVrotl (sd : Side) (o : VR) (iss : Iss) (s : State) : Res :=
  permute sd o (countSrcs sd o) iss (fun a b l => ln a ((l + countOf o (ln b 0) 64) % 64)) s
def semVbcast (sd : Side) (o : VR) (iss : Iss) (s : State) : Res := permute sd o [(sd, o.vsa)] iss (fun a _ _ => ln a (o.imm.toNat % 64)) s
def semVzip (sd : Side) (o : VR) (iss : Iss) (s : State) : Res :=
  permute sd o [(sd, o.vsa), (sd, o.vsb)] iss (fun a b l => ln (if l % 2 = 0 then a else b) (l / 2 + 32 * (o.imm.toNat % 2))) s
def semVunzip (sd : Side) (o : VR) (iss : Iss) (s : State) : Res :=
  permute sd o [(sd, o.vsa), (sd, o.vsb)] iss
    (fun a b l => if l < 32 then ln a (2 * l + o.imm.toNat % 2) else ln b (2 * (l - 32) + o.imm.toNat % 2)) s

/-! ### Reductions (R131, 04 R91) -/

/-- Node (k, j) of the tree: value if present, and the flags of its nodes; `f w` combines two values with the draw word of lane `w`. -/
def treeNode (act : W64) (v : VRow) (f : Nat → Nat → Nat → Nat × BitVec 5) : Nat → Nat → Option Nat × BitVec 5
  | 0, j => (if act.getLsbD j then some (ln v j) else none, 0)
  | k + 1, j =>
    let x := treeNode act v f k j
    let y := treeNode act v f k (j + 2 ^ k)
    match x.1, y.1 with
    | none, b => (b, x.2 ||| y.2)
    | some a, none => (some a, x.2 ||| y.2)
    | some a, some b =>
      let r := f (j + 2 ^ k - 1) a b
      (some r.1, x.2 ||| y.2 ||| r.2)
/-- Lane 0 of a row replaced. -/
def setLane0 (row : VRow) (x : Nat) : VRow := .ofNat 2048 (row.toNat / 2 ^ 32 * 2 ^ 32 + x % 2 ^ 32)
/-- An FP32 element as an operation delivers it: a NaN without its payload (04 R72). -/
def canonF32 (x : Nat) : Nat := if fisNan fp32 x then fp32.nan else x
/-- The shared shape of a reduction: lane 0 of the destination row is written whatever the mask; `put` is what the element type does to a
delivered value (04 R72: the NaN of a lone active lane is canonical too). -/
def reduceOp (sd : Side) (o : VR) (draws : Nat) (empty : Nat) (put : Nat → Nat) (iss : Iss) (f : Nat → Nat → Nat → Nat × BitVec 5) (s : State) : Res :=
  guarded iss o.g s do
    let s ← touchRows s iss (vRows iss sd o.form) [(sd, o.vd), (sd, o.vsa)]
    let p := phys (vfile iss.v sd) (o.vd.toNat + iss.row)
    let r := treeNode (activeBits iss.v sd o.form o.mask.toNat) (vsrc iss sd o.vsa) f 6 0
    .ok (raiseFlags { s with cx := advance (rowSet s.cx sd p (setLane0 (rowGet s.cx sd p) (put (r.1.getD empty)))) sd draws } r.2)
def semVredsumF32 (sd : Side) (o : VR) (iss : Iss) (s : State) : Res :=
  reduceOp sd o (drawsOf o.rm 1) 0 canonF32 iss (fun w x y => fadd fp32 o.rm.toNat (drawU (vfile iss.v sd) 0 w) x y) s
def semVredmaxF32 (sd : Side) (o : VR) (iss : Iss) (s : State) : Res := reduceOp sd o 0 0xFF800000 canonF32 iss (fun _ x y => (fmax2 fp32 x y, 0)) s
def semVredminF32 (sd : Side) (o : VR) (iss : Iss) (s : State) : Res := reduceOp sd o 0 0x7F800000 canonF32 iss (fun _ x y => (fmin2 fp32 x y, 0)) s
def semVredsumI32 (sd : Side) (o : VR) (iss : Iss) (s : State) : Res := reduceOp sd o 0 0 id iss (fun _ x y => ((x + y) % 2 ^ 32, 0)) s

/-! ### Masks (R132) -/

/-- A mask operation on all 64 bits. -/
def maskOp (sd : Side) (o : VR) (iss : Iss) (f : W64 → W64 → W64) (s : State) : Res :=
  guarded iss o.g s
    (.ok { s with cx := maskSet s.cx sd o.vd.toNat (f (maskGet iss.v sd o.vsa.toNat) (maskGet iss.v sd o.vsb.toNat)) })
def semVmand (sd : Side) (o : VR) (iss : Iss) (s : State) : Res := maskOp sd o iss (· &&& ·) s
def semVmor (sd : Side) (o : VR) (iss : Iss) (s : State) : Res := maskOp sd o iss (· ||| ·) s
def semVmxor (sd : Side) (o : VR) (iss : Iss) (s : State) : Res := maskOp sd o iss (· ^^^ ·) s
def semVmnot (sd : Side) (o : VR) (iss : Iss) (s : State) : Res := maskOp sd o iss (fun x _ => ~~~x) s

/-! ### Generator (R133) and transfers between the files (R134) -/

def semVrng (sd : Side) (o : VR) (iss : Iss) (s : State) : Res :=
  laneOp sd o.g o.form o.mask.toNat o.vd [] 1 iss (fun l => (rngWord (vfile iss.v sd).key.toNat (vfile iss.v sd).ctr.toNat l, 0)) s
def semVrngset (sd : Side) (o : VR) (iss : Iss) (s : State) : Res :=
  guarded iss o.g s do
    let s ← touch s (rowUnits iss.v 0 [(sd, o.vsa)])
    let row := vsrc iss sd o.vsa
    let f := vfile s.cx sd
    let g := if o.imm.getLsbD 0 then { f with ctr := lane 128 row 1 } else { f with key := lane 128 row 0, ctr := lane 128 row 1 }
    .ok { s with cx := setVFile s.cx sd g }
/-- The other vector slot. -/
def otherSide : Side → Side
  | .a => .b
  | .b => .a
def semVxfer (sd : Side) (o : VR) (iss : Iss) (s : State) : Res :=
  laneOp sd o.g o.form o.mask.toNat o.vd [(otherSide sd, o.vsa)] 0 iss (fun l => (ln (vsrc iss (otherSide sd) o.vsa) l, 0)) s

end Sys2Proof.Machine
end

