-- ==== Sys2Proof/Machine/Phasor.lean ====
section
/-! DEFINITION. Phasor operations of the vector slots (06 R154-R158). -/

namespace Sys2Proof.Machine

/-- Equal elements of `w` bits of a lane combined. -/
def elems (w n : Nat) (f : Nat → Nat) : Nat := (List.range n).foldr (fun k acc => f k % 2 ^ w + 2 ^ w * acc) 0
def semVpmulP16 (sd : Side) (o : VR) (iss : Iss) (s : State) : Res :=
  lane2 sd o iss (fun _ _ x y => (elems 16 2 fun k => phMul 15 (bits x (16 * k) 16) (bits y (16 * k) 16), 0)) s
def semVpmulP8 (sd : Side) (o : VR) (iss : Iss) (s : State) : Res :=
  lane2 sd o iss (fun _ _ x y => (elems 8 4 fun k => phMul 7 (bits x (8 * k) 8) (bits y (8 * k) 8), 0)) s
/-- `vpcmp` (R155): the bit of the result's place in the set. -/
def semVpcmpP16 (sd : Side) (o : VR) (iss : Iss) (s : State) : Res :=
  cmp16 sd o iss (fun x y => bitAt o.imm.toNat (phCmp x y)) s
/-- `vpsc`: cosine or sine of an element as int32 (R154). -/
def phSc (imm x : Nat) : Nat :=
  let e := bits x (16 * (imm % 2)) 16
  if bitAt e 15 then 0 else wrap32 (if bitAt imm 1 then sinT e else cosT e)
def semVpscP16 (sd : Side) (o : VR) (iss : Iss) (s : State) : Res := lane1 sd o iss (fun _ _ x => (phSc o.imm.toNat x, 0)) s

/-! ### States of a resultant (R156) -/

/-- C, S and n of a state row. -/
def phState (v : VRow) : Int × Int × Nat := (signed 48 (ln v 0 + 2 ^ 32 * ln v 1), signed 48 (ln v 2 + 2 ^ 32 * ln v 3), ln v 4)
/-- The sum of two states, C and S modulo 2^48, n modulo 2^32. -/
def phAdd (x y : Int × Int × Nat) : Int × Int × Nat :=
  ((BitVec.ofInt 48 (x.1 + y.1)).toInt, (BitVec.ofInt 48 (x.2.1 + y.2.1)).toInt, (x.2.2 + y.2.2) % 2 ^ 32)
/-- The sum over the defined elements of the active lanes. -/
def phSumRow (act : W64) (v : VRow) : Int × Int × Nat :=
  (List.range 64).foldl (fun a l =>
    if act.getLsbD l then
      [0, 1].foldl (fun a h => let e := ln16 v l h; if bitAt e 15 then a else phAdd a (cosT e, sinT e, 1)) a
    else a) (0, 0, 0)
/-- A state written over lanes 0 to 4 of a row. -/
def putState (old : VRow) (x : Int × Int × Nat) : VRow :=
  let w := fun v : Int => (BitVec.ofInt 64 v).toNat
  .ofNat 2048 (old.toNat / 2 ^ 160 * 2 ^ 160 + w x.1 + 2 ^ 64 * w x.2.1 + 2 ^ 128 * x.2.2)
def semVpsumP16 (sd : Side) (o : VR) (iss : Iss) (s : State) : Res :=
  guarded iss o.g s do
    let s ← touchRows s iss (vRows iss sd o.form) [(sd, o.vd), (sd, o.vsa)]
    let p := phys (vfile iss.v sd) (o.vd.toNat + iss.row)
    let act := activeBits iss.v sd o.form o.mask.toNat
    let src := vsrc iss sd o.vsa
    let part := if o.imm.getLsbD 1 then (if act.getLsbD 0 then phState src else (0, 0, 0)) else phSumRow act src
    let r := if o.imm.getLsbD 0 then phAdd (phState (vsrc iss sd o.vd)) part else part
    .ok { s with cx := rowSet s.cx sd p (putState (rowGet s.cx sd p) r) }
/-- Lane 0 from the state of the row, where lane 0 is active (R157). -/
def phLane0 (sd : Side) (o : VR) (iss : Iss) (f : Int → Int → Nat → Nat) (s : State) : Res :=
  guarded iss o.g s do
    let s ← touchRows s iss (vRows iss sd o.form) [(sd, o.vd), (sd, o.vsa)]
    let p := phys (vfile iss.v sd) (o.vd.toNat + iss.row)
    let st := phState (vsrc iss sd o.vsa)
    if (activeBits iss.v sd o.form o.mask.toNat).getLsbD 0 then
      .ok { s with cx := rowSet s.cx sd p (setLane0 (rowGet s.cx sd p) (f st.1 st.2.1 st.2.2)) }
    else .ok s
def semVpresP16 (sd : Side) (o : VR) (iss : Iss) (s : State) : Res := phLane0 sd o iss (fun c s n => phAngle c s n iss.v.sys.pthresh) s
def semVplenP16 (sd : Side) (o : VR) (iss : Iss) (s : State) : Res := phLane0 sd o iss phLen s
/-- `vpcvt` (R158). -/
def semVpcvtP8 (sd : Side) (o : VR) (iss : Iss) (s : State) : Res :=
  if o.imm.getLsbD 0 then
    lane1 sd o iss (fun _ _ x => (elems 16 2 fun k => phTo16 (bits x (8 * (2 * b2n (o.imm.getLsbD 1) + k)) 8), 0)) s
  else lane2 sd o iss (fun _ _ x y => (elems 8 4 fun k => phTo8 (bits (if k < 2 then x else y) (16 * (k % 2)) 16), 0)) s

end Sys2Proof.Machine
end

