-- ==== Sys2Proof/Machine/System.lean ====
section
/-! DEFINITION. System registers (05 R110, 13 R292) and system instructions (13 R286-R291). -/

namespace Sys2Proof.Machine

/-! ### System registers -/

/-- %accst (04 R83). -/
def accstWord (m : Mat) : W64 :=
  .ofNat 64 (b2n m.t0.sat + 2 * b2n m.t0.lost + 16 * b2n m.t1.sat + 32 * b2n m.t1.lost + 2 ^ 6 * m.t0.mode.toNat + 2 ^ 8 * m.t1.mode.toNat +
    2 ^ 16 * m.t0.anchor.toNat + 2 ^ 32 * m.t1.anchor.toNat)
/-- %vrota or %vrotb (05 R107). -/
def vrotWord (f : VFile) : W64 := .ofNat 64 (f.base.toNat + 2 ^ 16 * f.rot.toNat)
/-- %dictbase (03 R36). -/
def dictbaseWord (c : Ctl) : W64 := .ofNat 64 (2 ^ 63 * b2n c.dictLoaded + 64 * c.dictOff.toNat)
/-- A half of a 128-bit generator register. -/
def half128 (x : BitVec 128) (h : Nat) : W64 := x.extractLsb' (64 * h) 64
/-- A 128-bit register with one half replaced. -/
def setHalf (x : BitVec 128) (h : Nat) (v : W64) : BitVec 128 := if h = 0 then half128 x 1 ++ v else v ++ half128 x 0

/-- The value of a system register of the issuing context. While the monitor runs, %rptidx is the repetition of the trap it answers (03 R34). -/
def sysRead (x : Ctx) (n : Nat) : W64 :=
  if n < 0x40 then
    match n with
    | 0x00 => x.sys.fflags.setWidth 64
    | 0x01 => accstWord x.m
    | 0x02 => x.sys.pthresh.setWidth 64
    | 0x03 => (if x.mon.active then x.mon.mrpt else x.ctl.rptidx).setWidth 64
    | 0x04 => dictbaseWord x.ctl
    | 0x05 => x.ctl.imap
    | 0x08 => half128 x.va.key 0
    | 0x09 => half128 x.va.key 1
    | 0x0A => half128 x.va.ctr 0
    | 0x0B => half128 x.va.ctr 1
    | 0x0C => half128 x.vb.key 0
    | 0x0D => half128 x.vb.key 1
    | 0x0E => half128 x.vb.ctr 0
    | 0x0F => half128 x.vb.ctr 1
    | 0x10 => x.con.c0.tid.setWidth 64
    | 0x11 => (chanDone x.con.c0).setWidth 64
    | 0x12 => x.con.c1.tid.setWidth 64
    | 0x13 => (chanDone x.con.c1).setWidth 64
    | 0x14 => x.m.mpa
    | 0x15 => x.m.mpb
    | 0x16 => x.m.mpd
    | 0x17 => x.m.rowprog.setWidth 64
    | 0x18 => x.sys.sfsel.setWidth 64
    | 0x19 => (cellGet x.sys.tags x.sys.sfsel.toNat).setWidth 64
    | 0x1A => vrotWord x.va
    | _ => vrotWord x.vb
  else if n < 0x50 then maskGet x .a (n - 0x40)
  else if n < 0x60 then maskGet x .b (n - 0x50)
  else
    match n with
    | 0x200 => x.mon.mcause.setWidth 64
    | 0x201 => .ofNat 64 (x.mon.mepc.toNat / 4 * 4)
    | 0x202 => x.mon.mrpt.setWidth 64
    | 0x203 => x.mon.mtval
    | 0x204 => .ofNat 64 (b2n x.mon.dbg + 2 * b2n x.mon.esc)
    | 0x205 => 0x3C000
    | 0x220 => .ofNat 64 (x.mon.ctxCode.toNat + 256 * b2n x.mon.ctxBusy)
    | _ =>
      if n < 0x210 then (x.mon.mscratch[n - 0x208]?).getD 0
      else if n < 0x214 then (x.mon.wpaddr[n - 0x210]?).getD 0
      else (x.mon.wpmask[n - 0x214]?).getD 0

/-- Tile flags after a write of ones (04 R83). -/
def clearTile (t : Tile) (w : Nat) : Tile := { t with sat := t.sat && !(bitAt w 0), lost := t.lost && !(bitAt w 1) }

/-- A write of %vrota or %vrotb (05 R107). -/
def writeVrot (x : Ctx) (sd : Side) (w : Nat) : Except Stop Ctx := do
  let base := bits w 0 11
  let rot := bits w 16 11
  must (decide (base % 16 = 0) && (if base = 0 then decide (rot = 0) else decide (rot < 2048 - base))) illegalForm
  .ok (setVFile x sd { vfile x sd with base := .ofNat 11 base, rot := .ofNat 11 rot })

/-- A write of a system register as each field's access code allows (R8, R110, 13 R292). -/
def sysWrite (x : Ctx) (v : Ctx) (n : Nat) (w : W64) : Except Stop Ctx :=
  if n < 0x40 then
    match n with
    | 0x00 => .ok { x with sys := { x.sys with fflags := x.sys.fflags &&& ~~~(w.setWidth 5) } }
    | 0x01 => .ok { x with m := { x.m with t0 := clearTile x.m.t0 w.toNat, t1 := clearTile x.m.t1 (w.toNat / 16) } }
    | 0x02 => .ok { x with sys := { x.sys with pthresh := w.setWidth 32 } }
    | 0x04 => trapWith permission
    | 0x08 => .ok { x with va := { x.va with key := setHalf x.va.key 0 w } }
    | 0x09 => .ok { x with va := { x.va with key := setHalf x.va.key 1 w } }
    | 0x0A => .ok { x with va := { x.va with ctr := setHalf x.va.ctr 0 w } }
    | 0x0B => .ok { x with va := { x.va with ctr := setHalf x.va.ctr 1 w } }
    | 0x0C => .ok { x with vb := { x.vb with key := setHalf x.vb.key 0 w } }
    | 0x0D => .ok { x with vb := { x.vb with key := setHalf x.vb.key 1 w } }
    | 0x0E => .ok { x with vb := { x.vb with ctr := setHalf x.vb.ctr 0 w } }
    | 0x0F => .ok { x with vb := { x.vb with ctr := setHalf x.vb.ctr 1 w } }
    | 0x14 => .ok { x with m := { x.m with mpa := w } }
    | 0x15 => .ok { x with m := { x.m with mpb := w } }
    | 0x16 => .ok { x with m := { x.m with mpd := w } }
    | 0x18 => .ok { x with sys := { x.sys with sfsel := w.setWidth 9 } }
    | 0x19 => .ok { x with sys := { x.sys with tags := cellSet x.sys.tags v.sys.sfsel.toNat (w.setWidth 8) } }
    | 0x1A => writeVrot x .a w.toNat
    | 0x1B => writeVrot x .b w.toNat
    | _ => .ok x
  else if n < 0x50 then .ok (maskSet x .a (n - 0x40) w)
  else if n < 0x60 then .ok (maskSet x .b (n - 0x50) w)
  else
    match n with
    | 0x201 => .ok { x with mon := { x.mon with mepc := .ofNat 18 (w.toNat / 4 * 4) } }
    | 0x202 => .ok { x with mon := { x.mon with mrpt := w.setWidth 4 } }
    | _ =>
      if 0x208 ≤ n ∧ n < 0x210 then .ok { x with mon := { x.mon with mscratch := x.mon.mscratch.setIfInBounds (n - 0x208) w } }
      else if 0x210 ≤ n ∧ n < 0x214 then .ok { x with mon := { x.mon with wpaddr := x.mon.wpaddr.setIfInBounds (n - 0x210) w } }
      else if 0x214 ≤ n ∧ n < 0x218 then .ok { x with mon := { x.mon with wpmask := x.mon.wpmask.setIfInBounds (n - 0x214) w } }
      else .ok x

/-- The monitor's registers are closed to kernels (R110). -/
def sysAllowed (iss : Iss) (n : BitVec 14) : Except Stop Unit := must (iss.v.mon.active || decide (n.toNat < 0x200)) permission

def semMovFromSys (o : SY) (iss : Iss) (s : State) : Res :=
  guarded iss o.g s do
    sysAllowed iss o.n
    .ok (wrS s o.s (sysRead iss.v o.n.toNat))
def semMovToSys (o : SY) (iss : Iss) (s : State) : Res :=
  guarded iss o.g s do
    sysAllowed iss o.n
    let x ← sysWrite s.cx iss.v o.n.toNat (rs iss o.s)
    .ok { s with cx := x }

/-! ### System instructions -/

/-- A monitor-only instruction issued by kernel code traps with PERMISSION (R286). -/
def monitorOnly (iss : Iss) : Except Stop Unit := must iss.v.mon.active permission
/-- What the end of the issue does (R287-R289). -/
def postIssue (s : State) (p : Post) : State := putRun s { s.cx.run with post := some p }

/-- `trap`: in the monitor it acts as `esc` with s0 (R287). -/
def semTrap (o : SC) (iss : Iss) (s : State) : Res :=
  guarded iss o.g s (.ok (postIssue s (if iss.v.mon.active then .escalate 0 else .trapTo (o.n.setWidth 64))))
def semEsc (o : SS) (iss : Iss) (s : State) : Res :=
  guarded iss o.g s do
    monitorOnly iss
    .ok (postIssue s (.escalate o.s))
def semMret (o : SG) (iss : Iss) (s : State) : Res :=
  guarded iss o.g s do
    monitorOnly iss
    .ok (postIssue s .mret)
/-- `yield` (R286, 12 R260). -/
def semYield (o : SG) (iss : Iss) (s : State) : Res :=
  guarded iss o.g s (.ok { s with cx := { s.cx with prog := { s.cx.prog with yielded := true } } })

/-- The unit that a 14-bit operand names (R290). -/
def unitOf (n : Nat) : Nat :=
  match n / 4096 with
  | 0 => n % 4096
  | 1 => 512 + n % 4096
  | 2 => 640 + n % 4096
  | _ => 768 + n % 4096
/-- The answer of `pmq` (R290, 16 R317). A unit of a context that issues is present or absent: departing units are those of a saved context. -/
def pmqAnswer (x : Ctx) (u : Nat) : W64 :=
  if !(x.prog.footprint.contains u) then 3 else if x.prog.absent.contains u then 1 else 0
def semPmq (o : SY) (iss : Iss) (s : State) : Res := guarded iss o.g s (.ok (wrS s o.s (pmqAnswer iss.v (unitOf o.n.toNat))))

/-- Asks the cluster's sack hoist for an absent unit; a unit already asked for is not asked for twice, but a touch makes it a demand pull (16 R322). -/
def askPull (s : State) (c : CtxId) (u : Nat) (demand : Option Nat) : State :=
  modCl s (ctxCl c) fun k =>
    if k.hoist.any fun j => j.kind == 0 && j.ctx == c && j.unit == u then
      { k with hoist := k.hoist.map fun j =>
          if j.kind = 0 ∧ j.ctx = c ∧ j.unit = u ∧ j.demand = none then { j with demand := demand } else j }
    else
      { k with hoist := k.hoist ++ [{ kind := 0, ctx := c, region := (getCtx s c).prog.region, unit := u, image := (getCtx s c).prog.image, demand := demand }] }
def semPmpull (o : SC) (iss : Iss) (s : State) : Res :=
  guarded iss o.g s
    (let u := unitOf o.n.toNat
     .ok (if iss.v.prog.footprint.contains u && iss.v.prog.absent.contains u then askPull s s.cid u none else s))

/-- A request to the cluster tile sequencer (R291): the bundle commits, %ctxst.busy is set. -/
def askSequencer (s : State) (restore : Bool) (image : W64) : State :=
  { s with cx := { s.cx with mon := { s.cx.mon with ctxBusy := true, ctxReq := some (restore, image) } } }
def semCtxsave (o : SS) (iss : Iss) (s : State) : Res :=
  guarded iss o.g s do
    monitorOnly iss
    .ok (askSequencer s false (rs iss o.s))
def semCtxrest (o : SS) (iss : Iss) (s : State) : Res :=
  guarded iss o.g s do
    monitorOnly iss
    .ok (askSequencer s true (rs iss o.s))
/-- `ctxsw` marks the core's secondary as starved (R286). -/
def semCtxsw (o : SG) (iss : Iss) (s : State) : Res :=
  guarded iss o.g s do
    monitorOnly iss
    let sec := otherSlot (primOf s s.cid.core.toNat)
    let x := getCtx s sec
    must (x.run.state != .empty && x.prog.tenant == iss.v.prog.tenant) permission
    .ok (modCtx s sec fun x => { x with prog := { x.prog with starved := true } })
/-- `dstop` (R286, 18 R342). -/
def semDstop (o : SC) (iss : Iss) (s : State) : Res :=
  guarded iss o.g s (.ok (if iss.v.mon.dbg then putRun s { s.cx.run with dstop := some o.n } else s))
/-- `wpset` (18 R343). -/
def semWpset (o : SN) (iss : Iss) (s : State) : Res :=
  guarded iss o.g s do
    monitorOnly iss
    let w : Watch := { addr := (iss.v.mon.wpaddr[o.n.toNat]?).getD 0, mask := (iss.v.mon.wpmask[o.n.toNat]?).getD 0, armed := true }
    .ok { s with cx := { s.cx with mon := { s.cx.mon with watch := s.cx.mon.watch.setIfInBounds o.n.toNat w } } }
/-- `wpclr` (18 R343). -/
def semWpclr (o : SN) (iss : Iss) (s : State) : Res :=
  guarded iss o.g s do
    monitorOnly iss
    let w := (s.cx.mon.watch[o.n.toNat]?).getD {}
    .ok { s with cx := { s.cx with mon := { s.cx.mon with watch := s.cx.mon.watch.setIfInBounds o.n.toNat { w with armed := false } } } }
def semRdtick (o : SS) (iss : Iss) (s : State) : Res := guarded iss o.g s (.ok (wrS s o.s (.ofNat 64 (tick s))))
def semRdcyc (o : SS) (iss : Iss) (s : State) : Res := guarded iss o.g s (.ok (wrS s o.s (.ofNat 64 iss.v.run.cyc)))

end Sys2Proof.Machine
end

