-- ==== Sys2Proof/Machine/VectorMem.lean ====
section
/-! DEFINITION. Loads and stores of the vector slots (05 R135). -/

namespace Sys2Proof.Machine

/-- Address of row `i`: base, displacement, stepped part, 256 bytes a row. -/
def vmAddr (iss : Iss) (o : VM) (i : Nat) : Int :=
  (bGet iss.v.r o.b.toNat).toNat + o.off.toInt + iss.delta.toInt + 256 * i
/-- Active lanes in order. -/
def lanesOf (act : W64) : List Nat := (List.range 64).filter fun l => act.getLsbD l
/-- The checks of one row: alignment, range, tag of every active lane. -/
def vmCheck (iss : Iss) (o : VM) (tags : List Nat) (act : W64) (i : Nat) : Except Stop Unit :=
  let a := vmAddr iss o i
  let ls := lanesOf act
  if ls.isEmpty then .ok ()
  else if a % 4 ≠ 0 then trapWith misaligned (BitVec.ofInt 64 a).toNat
  else match ls.find? fun (l : Nat) => decide (a + 4 * l < 0 ∨ 0x200000 < a + 4 * l + 4) with
    | some l => trapWith scratchRange (BitVec.ofInt 64 (a + 4 * l)).toNat
    | none => match ls.find? fun (l : Nat) => !(tags.contains (tagAt iss.v (a + 4 * l).toNat).toNat) with
      | some l => trapWith formatMismatch (a + 4 * l).toNat
      | none => .ok ()
/-- Units of a row: the register and the blocks of its active lanes; none where no lane is active (R135). -/
def vmUnits (iss : Iss) (sd : Side) (o : VM) (act : W64) (i : Nat) : List Nat :=
  if (lanesOf act).isEmpty then []
  else vUnit sd (phys (vfile iss.v sd) (o.v.toNat + i)) :: ((lanesOf act).map fun (l : Nat) => (vmAddr iss o i + 4 * l).toNat / 4096).eraseDups
/-- The start of a row: the checks of every row before any row commits, then the row's touches. -/
def vmStart (s : State) (iss : Iss) (sd : Side) (o : VM) (tags : List Nat) (act : W64) : Res := do
  if iss.row = 0 then
    let rows := List.range (vRows iss sd o.form)
    rows.forM fun i => vmCheck iss o tags act i
    touchCheck s.cx (rows.flatMap fun i => vmUnits iss sd o act i)
  else .ok ()
  .ok { s with cx := stamp s.cx (getCl s (ctxCl s.cid)).ctime (vmUnits iss sd o act iss.row) }

/-- A load: the active lanes of the row, as the bytes stood before the issue (R135, R99). -/
def vecLoad (sd : Side) (o : VM) (tags : List Nat) (iss : Iss) (s : State) : Res :=
  guarded iss o.g s do
    let act := activeBits iss.v sd o.form o.mask.toNat
    let s ← vmStart s iss sd o tags act
    let p := phys (vfile iss.v sd) (o.v.toNat + iss.row)
    let r := mergeLanes act (rowGet s.cx sd p) fun l => (leNat (scrRead iss (vmAddr iss o iss.row + 4 * (l : Int)).toNat 4), 0)
    .ok { s with cx := rowSet s.cx sd p r.1 }
/-- A store: the bytes of the active lanes (R135). -/
def vecStore (sd : Side) (o : VM) (tags : List Nat) (iss : Iss) (s : State) : Res :=
  guarded iss o.g s do
    let act := activeBits iss.v sd o.form o.mask.toNat
    let s ← vmStart s iss sd o tags act
    let row := rowGet iss.v sd (phys (vfile iss.v sd) (o.v.toNat + iss.row))
    let at_ := fun l : Nat => (vmAddr iss o iss.row + 4 * l).toNat
    let s := (lanesOf act).foldl (fun s l => scrWrite s (at_ l) (leBytes 4 (ln row l))) s
    .ok (watchStore (clearSpin s) iss o.g ((lanesOf act).map fun l => (0xA000000000000000 + at_ l, 4)))

/-- Tags that a suffix accepts (R135): code in bits 7:2, geometry none. -/
def tagsF32 : List Nat := [0x40]
def tagsI32 : List Nat := [0x14, 0x18]
def tagsBf16 : List Nat := [0x48]
def tagsF16 : List Nat := [0x44]
def semVldF32 (sd : Side) (o : VM) (iss : Iss) (s : State) : Res := vecLoad sd o tagsF32 iss s
def semVldI32 (sd : Side) (o : VM) (iss : Iss) (s : State) : Res := vecLoad sd o tagsI32 iss s
def semVldBf16 (sd : Side) (o : VM) (iss : Iss) (s : State) : Res := vecLoad sd o tagsBf16 iss s
def semVldF16 (sd : Side) (o : VM) (iss : Iss) (s : State) : Res := vecLoad sd o tagsF16 iss s
def semVstF32 (sd : Side) (o : VM) (iss : Iss) (s : State) : Res := vecStore sd o tagsF32 iss s
def semVstI32 (sd : Side) (o : VM) (iss : Iss) (s : State) : Res := vecStore sd o tagsI32 iss s
def semVstBf16 (sd : Side) (o : VM) (iss : Iss) (s : State) : Res := vecStore sd o tagsBf16 iss s
def semVstF16 (sd : Side) (o : VM) (iss : Iss) (s : State) : Res := vecStore sd o tagsF16 iss s

end Sys2Proof.Machine
end

