-- ==== Sys2Proof/Machine/Sems.lean ====
section
/-! DEFINITION. Which meaning each syllable has in an issue: a call per constructor. -/

namespace Sys2Proof.Machine

/-- The meanings of the S slot's syllables. -/
def semS (y : SSyl) (iss : Iss) (s : State) : Res :=
  match y with
  | .add o => semAdd o iss s
  | .sub o => semSub o iss s
  | .mul o => semMul o iss s
  | .mulh o => semMulh o iss s
  | .mulhu o => semMulhu o iss s
  | .and o => semAnd o iss s
  | .or o => semOr o iss s
  | .xor o => semXor o iss s
  | .andn o => semAndn o iss s
  | .shl o => semShl o iss s
  | .shr o => semShr o iss s
  | .sra o => semSra o iss s
  | .rotl o => semRotl o iss s
  | .min o => semMin o iss s
  | .max o => semMax o iss s
  | .minu o => semMinu o iss s
  | .maxu o => semMaxu o iss s
  | .popc o => semPopc o iss s
  | .clz o => semClz o iss s
  | .ctz o => semCtz o iss s
  | .bext o => semBext o iss s
  | .bins o => semBins o iss s
  | .cmpeq o => semCmpeq o iss s
  | .cmpne o => semCmpne o iss s
  | .cmplt o => semCmplt o iss s
  | .cmpltu o => semCmpltu o iss s
  | .cmple o => semCmple o iss s
  | .cmpleu o => semCmpleu o iss s
  | .gand o => semGand o iss s
  | .gor o => semGor o iss s
  | .gxor o => semGxor o iss s
  | .gnot o => semGnot o iss s
  | .addSi o => semAddSi o iss s
  | .andSi o => semAndSi o iss s
  | .orSi o => semOrSi o iss s
  | .xorSi o => semXorSi o iss s
  | .shlSi o => semShlSi o iss s
  | .shrSi o => semShrSi o iss s
  | .sraSi o => semSraSi o iss s
  | .cmpeqSi o => semCmpeqSi o iss s
  | .cmpltSi o => semCmpltSi o iss s
  | .cmpltuSi o => semCmpltuSi o iss s
  | .movi o => semMovi o iss s
  | .movkH1 o => semMovkH1 o iss s
  | .movkH2 o => semMovkH2 o iss s
  | .movkH3 o => semMovkH3 o iss s
  | .movkH4 o => semMovkH4 o iss s
  | .addSj o => semAddSj o iss s
  | .andSj o => semAndSj o iss s
  | .orSj o => semOrSj o iss s
  | .xorSj o => semXorSj o iss s
  | .sld8 o => semSld8 o iss s
  | .sld16 o => semSld16 o iss s
  | .sld32 o => semSld32 o iss s
  | .sld64 o => semSld64 o iss s
  | .sldz8 o => semSldz8 o iss s
  | .sldz16 o => semSldz16 o iss s
  | .sldz32 o => semSldz32 o iss s
  | .sst8 o => semSst8 o iss s
  | .sst16 o => semSst16 o iss s
  | .sst32 o => semSst32 o iss s
  | .sst64 o => semSst64 o iss s
  | .lop3 o => semLop3 o iss s
  | .fset o => semFset o iss s
  | .fsetReg o => semFsetReg o iss s
  | .vrot o => semVrot o iss s
  | .cpyFromS o => semCpyFromS o iss s
  | .cpyToS o => semCpyToS o iss s
  | .wdone o => semWdone o iss s
  | .movFromSys o => semMovFromSys o iss s
  | .movToSys o => semMovToSys o iss s
  | .trap o => semTrap o iss s
  | .esc o => semEsc o iss s
  | .mret o => semMret o iss s
  | .yield o => semYield o iss s
  | .pmq o => semPmq o iss s
  | .pmpull o => semPmpull o iss s
  | .ctxsave o => semCtxsave o iss s
  | .ctxrest o => semCtxrest o iss s
  | .ctxsw o => semCtxsw o iss s
  | .dstop o => semDstop o iss s
  | .wpset o => semWpset o iss s
  | .wpclr o => semWpclr o iss s
  | .rdtick o => semRdtick o iss s
  | .rdcyc o => semRdcyc o iss s

/-- The meanings of the L slot's syllables. -/
def semL (y : LSyl) (iss : Iss) (s : State) : Res :=
  match y with
  | .br o => semBr o iss s
  | .call o => semCall o iss s
  | .ret o => semRet o iss s
  | .loop o => semLoop o iss s
  | .loopImm o => semLoopImm o iss s
  | .lend o => semLend o iss s
  | .lexit o => semLexit o iss s
  | .bstep o => semBstep o iss s
  | .bset o => semBset o iss s
  | .dict o => semDict o iss s
  | .ifence o => semIfence o iss s
  | .kend o => semKend o iss s
  | .qset o => semQset o iss s

/-- The meanings of the K slot's syllables. -/
def semK (y : KSyl) (iss : Iss) (s : State) : Res :=
  match y with
  | .kld o => semKld o iss s
  | .kldp o => semKldp o iss s
  | .kfill o => semKfill o iss s
  | .kcpy o => semKcpy o iss s

/-- The meanings of the V slot's syllables. -/
def semV (sd : Side) (y : VSyl) (iss : Iss) (s : State) : Res :=
  match y with
  | .vaddF32 o => semVaddF32 sd o iss s
  | .vsubF32 o => semVsubF32 sd o iss s
  | .vmulF32 o => semVmulF32 sd o iss s
  | .vfmaF32 o => semVfmaF32 sd o iss s
  | .vfmsF32 o => semVfmsF32 sd o iss s
  | .vfnmaF32 o => semVfnmaF32 sd o iss s
  | .vminF32 o => semVminF32 sd o iss s
  | .vmaxF32 o => semVmaxF32 sd o iss s
  | .vabsF32 o => semVabsF32 sd o iss s
  | .vnegF32 o => semVnegF32 sd o iss s
  | .vcmpeqF32 o => semVcmpeqF32 sd o iss s
  | .vcmpltF32 o => semVcmpltF32 sd o iss s
  | .vcmpleF32 o => semVcmpleF32 sd o iss s
  | .vcmpunF32 o => semVcmpunF32 sd o iss s
  | .vsel o => semVsel sd o iss s
  | .vclassF32 o => semVclassF32 sd o iss s
  | .vrecipF32 o => semVrecipF32 sd o iss s
  | .vrsqrtF32 o => semVrsqrtF32 sd o iss s
  | .vsqrtF32 o => semVsqrtF32 sd o iss s
  | .vexp2F32 o => semVexp2F32 sd o iss s
  | .vlog2F32 o => semVlog2F32 sd o iss s
  | .vsinpiF32 o => semVsinpiF32 sd o iss s
  | .vcospiF32 o => semVcospiF32 sd o iss s
  | .vrecipBf16 o => semVrecipBf16 sd o iss s
  | .vrsqrtBf16 o => semVrsqrtBf16 sd o iss s
  | .vsqrtBf16 o => semVsqrtBf16 sd o iss s
  | .vexp2Bf16 o => semVexp2Bf16 sd o iss s
  | .vlog2Bf16 o => semVlog2Bf16 sd o iss s
  | .vsinpiBf16 o => semVsinpiBf16 sd o iss s
  | .vcospiBf16 o => semVcospiBf16 sd o iss s
  | .vaddBf16 o => semVaddBf16 sd o iss s
  | .vsubBf16 o => semVsubBf16 sd o iss s
  | .vmulBf16 o => semVmulBf16 sd o iss s
  | .vfmaBf16 o => semVfmaBf16 sd o iss s
  | .vminBf16 o => semVminBf16 sd o iss s
  | .vmaxBf16 o => semVmaxBf16 sd o iss s
  | .vcmpeqBf16 o => semVcmpeqBf16 sd o iss s
  | .vcmpltBf16 o => semVcmpltBf16 sd o iss s
  | .vaddF16 o => semVaddF16 sd o iss s
  | .vsubF16 o => semVsubF16 sd o iss s
  | .vmulF16 o => semVmulF16 sd o iss s
  | .vfmaF16 o => semVfmaF16 sd o iss s
  | .vaddI32 o => semVaddI32 sd o iss s
  | .vsubI32 o => semVsubI32 sd o iss s
  | .vmulI32 o => semVmulI32 sd o iss s
  | .vmulhI32 o => semVmulhI32 sd o iss s
  | .vaddsI32 o => semVaddsI32 sd o iss s
  | .vsubsI32 o => semVsubsI32 sd o iss s
  | .vminI32 o => semVminI32 sd o iss s
  | .vmaxI32 o => semVmaxI32 sd o iss s
  | .vminN32 o => semVminN32 sd o iss s
  | .vmaxN32 o => semVmaxN32 sd o iss s
  | .vand o => semVand sd o iss s
  | .vor o => semVor sd o iss s
  | .vxor o => semVxor sd o iss s
  | .vshl o => semVshl sd o iss s
  | .vshr o => semVshr sd o iss s
  | .vsra o => semVsra sd o iss s
  | .vcmpeqI32 o => semVcmpeqI32 sd o iss s
  | .vcmpltI32 o => semVcmpltI32 sd o iss s
  | .vcmpltN32 o => semVcmpltN32 sd o iss s
  | .vcvtF32I32 o => semVcvtF32I32 sd o iss s
  | .vcvtI32F32 o => semVcvtI32F32 sd o iss s
  | .vcvtF32Bf16 o => semVcvtF32Bf16 sd o iss s
  | .vcvtBf16F32 o => semVcvtBf16F32 sd o iss s
  | .vcvtF32F16 o => semVcvtF32F16 sd o iss s
  | .vcvtF16F32 o => semVcvtF16F32 sd o iss s
  | .vcvtF32E4m3 o => semVcvtF32E4m3 sd o iss s
  | .vcvtE4m3F32 o => semVcvtE4m3F32 sd o iss s
  | .vcvtF32E5m2 o => semVcvtF32E5m2 sd o iss s
  | .vcvtE5m2F32 o => semVcvtE5m2F32 sd o iss s
  | .vquantQ4 o => semVquantQ4 sd o iss s
  | .vdequantQ4 o => semVdequantQ4 sd o iss s
  | .vquantQ8 o => semVquantQ8 sd o iss s
  | .vperm o => semVperm sd o iss s
  | .vrotl o => semVrotl sd o iss s
  | .vbcast o => semVbcast sd o iss s
  | .vzip o => semVzip sd o iss s
  | .vunzip o => semVunzip sd o iss s
  | .vredsumF32 o => semVredsumF32 sd o iss s
  | .vredmaxF32 o => semVredmaxF32 sd o iss s
  | .vredminF32 o => semVredminF32 sd o iss s
  | .vredsumI32 o => semVredsumI32 sd o iss s
  | .vmand o => semVmand sd o iss s
  | .vmor o => semVmor sd o iss s
  | .vmxor o => semVmxor sd o iss s
  | .vmnot o => semVmnot sd o iss s
  | .vrng o => semVrng sd o iss s
  | .vrngset o => semVrngset sd o iss s
  | .vxfer o => semVxfer sd o iss s
  | .vldF32 o => semVldF32 sd o iss s
  | .vldI32 o => semVldI32 sd o iss s
  | .vldBf16 o => semVldBf16 sd o iss s
  | .vldF16 o => semVldF16 sd o iss s
  | .vstF32 o => semVstF32 sd o iss s
  | .vstI32 o => semVstI32 sd o iss s
  | .vstBf16 o => semVstBf16 sd o iss s
  | .vstF16 o => semVstF16 sd o iss s
  | .vpmulP16 o => semVpmulP16 sd o iss s
  | .vpmulP8 o => semVpmulP8 sd o iss s
  | .vpcmpP16 o => semVpcmpP16 sd o iss s
  | .vpscP16 o => semVpscP16 sd o iss s
  | .vpsumP16 o => semVpsumP16 sd o iss s
  | .vpresP16 o => semVpresP16 sd o iss s
  | .vplenP16 o => semVplenP16 sd o iss s
  | .vpcvtP8 o => semVpcvtP8 sd o iss s

/-- The meanings of the M slot's syllables. -/
def semM (y : MSyl) (iss : Iss) (s : State) : Res :=
  match y with
  | .mpush o => semMpush o iss s
  | .mshift o => semMshift o iss s
  | .macc o => semMacc o iss s
  | .maccp o => semMaccp o iss s
  | .mdrain o => semMdrain o iss s
  | .manch o => semManch o iss s
  | .mzero o => semMzero o iss s
  | .mrow o => semMrow o iss s
  | .mexact o => semMexact o iss s
  | .mdrainv o => semMdrainv o iss s

/-- The meanings of the C slot's syllables. -/
def semC (sd : Side) (y : CSyl) (iss : Iss) (s : State) : Res :=
  match y with
  | .copy1d o => semCopy1d sd o iss s
  | .copy2d o => semCopy2d sd o iss s
  | .copy3d o => semCopy3d sd o iss s
  | .gather o => semGather sd o iss s
  | .scatter o => semScatter sd o iss s
  | .mcast o => semMcast sd o iss s
  | .send o => semSend sd o iss s
  | .recv o => semRecv sd o iss s
  | .bankWadd o => semBankWadd sd o iss s
  | .bankAdd o => semBankAdd sd o iss s
  | .bankMax o => semBankMax sd o iss s
  | .bankMin o => semBankMin sd o iss s
  | .barArrive o => semBarArrive sd o iss s
  | .barWait o => semBarWait sd o iss s
  | .sfence o => semSfence sd o iss s
  | .srst o => semSrst sd o iss s
  | .copy1dCs o => semCopy1dCs sd o iss s
  | .copy2dCs o => semCopy2dCs sd o iss s
  | .copy3dCs o => semCopy3dCs sd o iss s
  | .gatherCs o => semGatherCs sd o iss s
  | .scatterCs o => semScatterCs sd o iss s
  | .st32 o => semSt32 sd o iss s
  | .st64 o => semSt64 sd o iss s
  | .ld64 o => semLd64 sd o iss s
  | .atomAdd o => semAtomAdd sd o iss s
  | .atomAnd o => semAtomAnd sd o iss s
  | .atomOr o => semAtomOr sd o iss s
  | .atomXor o => semAtomXor sd o iss s
  | .atomMax o => semAtomMax sd o iss s
  | .atomMin o => semAtomMin sd o iss s
  | .atomSwap o => semAtomSwap sd o iss s
  | .atomCas o => semAtomCas sd o iss s
  | .msaCas4 o => semMsaCas4 sd o iss s
  | .msaEnq o => semMsaEnq sd o iss s
  | .msaDeq o => semMsaDeq sd o iss s
  | .msaChase o => semMsaChase sd o iss s
  | .scLd64 o => semScLd64 sd o iss s
  | .scSt64 o => semScSt64 sd o iss s
  | .scSwap o => semScSwap sd o iss s
  | .scAdd o => semScAdd sd o iss s

/-- The effect of one issue of a syllable in its slot; a syllable of the band has none (03 R57). -/
def semSyl (y : Syl) (iss : Iss) (s : State) : Res :=
  match y with
  | .s o => semS o iss s
  | .l o => semL o iss s
  | .k o => semK o iss s
  | .v sd o => semV sd o iss s
  | .m o => semM o iss s
  | .c sd o => semC sd o iss s
  | .band _ _ => .ok s

end Sys2Proof.Machine
end

