-- ==== Sys2Proof/Machine/Stop.lean ====
section
/-! DEFINITION. The end of a kernel run at `kend` (05 R118, 13 R285, 10 R206), and the landing of debug and watch stops (18 R342, R345). -/

namespace Sys2Proof.Machine

/-! ### Kernels and entries -/

/-- A registered kernel of a region (13 R281). -/
def findKernel (s : State) (region : W32) (num : BitVec 16) : Option Kernel := s.kernels.find? fun k => k.region == region && k.num == num
/-- An entry of a tile sequencer. -/
def getEntry (s : State) (e : EntryId) : Entry := ((s.seqs.find? fun p => p.1 == e).map (·.2)).getD {}
/-- Replaces an entry; a free one is not listed. -/
def setEntry (s : State) (e : EntryId) (x : Entry) : State :=
  let rest := s.seqs.filter fun p => p.1 != e
  { s with seqs := if x = {} then rest else (e, x) :: rest }
/-- Declared output tiles with their number and bytes as the run leaves them. -/
def outputTiles (x : Ctx) (k : Kernel) : List (W64 × List Byte) :=
  (k.tiles.zipIdx.filter fun t => t.1.kind == 1).map fun t => (.ofNat 64 (8 * x.prog.pos.toNat + t.2), cellRead x.prog.scratch t.1.off t.1.size)

/-- The end of a run: the outputs wait for the sequencer's COMMIT, the continuation state stays in the slot, the slot is EMPTY; an EMPTY primary
slot is a kernel boundary (12 R250). -/
def endRun (s : State) (c : CtxId) : State :=
  let x := getCtx s c
  let outs := match findKernel s x.prog.region x.prog.kernel with
    | some k => outputTiles x k
    | none => []
  let s := match x.prog.entry with
    | some e => setEntry s e { getEntry s e with state := .commit, out := outs }
    | none => s
  let prim := isPrim s c
  let s := modCore s c.core.toNat fun k =>
    { k with left := (c.sec, x.prog.region, x.con) :: k.left.filter (fun l => !(l.1 == c.sec && l.2.1 == x.prog.region)), vacant := k.vacant || prim }
  setCtx s c {}

/-! ### Stops -/

/-- A boundary stands before the next issue: a `lend` of the current loop has just committed, or no loop is active (R342). -/
def atBoundary (x : Ctx) : Bool := x.run.boundary || (currentLoop x.r).isNone
/-- Whether a pending watch stop may land at a boundary at cluster time `t` (R345). -/
def watchReady (w : WatchStop) (t : Nat) : Bool := w.chan.isNone || w.found || (decide (2 ≤ w.bounds) && decide (w.from_ ≤ t))
/-- The stop that may land before the next issue; before a `kend` any pending stop lands. -/
def stopDue (s : State) (c : CtxId) (beforeKend : Bool) : Option Trap :=
  let x := getCtx s c
  if x.mon.active ∨ x.ctl.rptidx ≠ 0 ∨ !(beforeKend || atBoundary x) then none
  else match x.run.watchStop with
    | some w =>
      if beforeKend || watchReady w (getCl s (ctxCl c)).ctime then some { code := watchCode, val := w.addr, slot := some 7 } else debug x
    | none => debug x
where
  /-- A pending DEBUG_STOP. -/
  debug (x : Ctx) : Option Trap := x.run.dstop.map fun n => { code := debugStopCode, val := n.setWidth 64, slot := some 7 }
/-- A stop record (R342). -/
def stopRecord (s : State) (c : CtxId) (t : Trap) (code : Nat) : Nat :=
  let x := getCtx s c
  packFields [(5, 1), (t.code.toNat, 1), (trWhere s c, 2), (trBundle x.r.pc 0 0, 4), (trLoop x.r, 1), (x.r.q.toNat, 1), (0, 2), (trIter x.r, 4),
    (trDelta s (ctxCl c), 4), (code, 4), (x.prog.serial.toNat, 4), (x.prog.region.toNat, 4)]
/-- A watch record of a stop that lands before its write is performed (R345). -/
def lateWatch (s : State) (c : CtxId) (w : WatchStop) : State :=
  match w.chan with
  | some (ch, tid) =>
    if w.found then s
    else match findXfer (getCtx s c) ch tid with
      | none => s
      | some t =>
        let s1 := keepRecord s (ctxCl c) (getCtx s c).prog.region (channelRecord s c ch t w.wp w.addr.toNat w.more false false)
        putXfer s1 c ch { t with watched := true }
  | none => s
/-- Lands a stop: the record is written and the monitor entered before the bundle due next (R342). -/
def landStop (s : State) (c : CtxId) (t : Trap) : State :=
  let x := getCtx s c
  let (s, code) := if t.code = watchCode then
      match x.run.watchStop with
      | some w => (lateWatch s c w, w.wp)
      | none => (s, 0)
    else (s, (x.run.dstop.getD 0).toNat)
  let s := keepRecord s (ctxCl c) x.prog.region (stopRecord s c t code)
  let s := modCtx s c fun x => { x with run := if t.code = watchCode then { x.run with watchStop := none } else { x.run with dstop := none } }
  takeTrap s c t

end Sys2Proof.Machine
end

