-- ==== Sys2Proof/Machine/Timing.lean ====
section
/-! DEFINITION. What the issue checks and schedules, read from a syllable's word: guard, form, stepping (03 R33), vector reads (R39), destinations
(R43), scratchpad accesses (R42), items of the scoreboard with their latencies (R46, 05 R96, R120, 06 R152, R159, 12 R251). -/

namespace Sys2Proof.Machine

/-! ### Fields of a syllable -/

/-- Opcode of a syllable. -/
def opOf (y : Syl) : Nat := encodeSyl y / 2 ^ (y.slot.bits - 8)
/-- Whether a syllable is of the forward-compatibility band (R57). -/
def isBand : Syl → Bool
  | .band _ _ => true
  | _ => false
/-- Whether a syllable is `lop3`, which has no guard (R51). -/
def isLop : Syl → Bool
  | .s (.lop3 _) => true
  | _ => false
/-- Guard field; `always` where there is none. -/
def guardOf (y : Syl) : BitVec 4 := if isBand y || isLop y then 0 else .ofNat 4 (encodeSyl y / 2 ^ (y.slot.bits - 12))
/-- Whether a syllable of the C slots is of the CS layout (R56). -/
def isCS (y : Syl) : Bool :=
  match y with
  | .c _ o => (cView o).cs
  | _ => false
/-- Form field of a syllable of VA, VB, M, C0 or C1; a CS syllable uses f0 (R56). -/
def formOf (y : Syl) : Nat :=
  match y with
  | .v _ _ => bits (encodeSyl y) 1 2
  | .m _ => bits (encodeSyl y) 1 2
  | .c _ o => (cView o).form.toNat
  | _ => 0
/-- Swap bit of a present syllable (R47). -/
def swapOf (y : Syl) : Bool :=
  match y with
  | .v _ _ => bitAt (encodeSyl y) 0
  | .m _ => bitAt (encodeSyl y) 0
  | .c _ o => (cView o).sw
  | _ => false
/-- Number of a slot among the form registers, none for S, L, K. -/
def formSlot (k : Nat) : Option Nat := if 3 ≤ k ∧ k < 8 then some (k - 3) else none
/-- The active form of a syllable. -/
def activeForm (c : Ctl) (y : Syl) : W64 := formWord c (formIdx (y.slot.num - 3) (formOf y))
/-- Rows of a syllable. -/
def rowsOf (c : Ctl) (y : Syl) : Nat :=
  if isBand y then 1
  else match y with
    | .v _ _ => formRows (activeForm c y)
    | .m _ => formRows (activeForm c y)
    | .c _ _ => formRows (activeForm c y)
    | _ => 1

/-! ### Vector syllables -/

/-- Opcode of a word of the V slots. -/
def vOp (w : Nat) : Nat := w / 2 ^ 56
def vFieldD (w : Nat) : Nat := bits w 41 11
def vFieldA (w : Nat) : Nat := bits w 30 11
def vFieldB (w : Nat) : Nat := bits w 19 11
def vFieldC (w : Nat) : Nat := bits w 8 11
/-- Layouts V3 and VM (R54, R61). -/
def vIsThree (op : Nat) : Bool := [3, 4, 5, 14, 0x23, 0x2B].contains op
def vIsLoad (op : Nat) : Bool := decide (0x60 ≤ op ∧ op < 0x64)
def vIsStore (op : Nat) : Bool := decide (0x64 ≤ op ∧ op < 0x68)
/-- Operations on masks alone (05 R132). -/
def vIsMaskOp (op : Nat) : Bool := decide (0x59 ≤ op ∧ op ≤ 0x5C)
/-- How many mask registers a compare writes (05 R123, 06 R155). -/
def vMaskPair (op : Nat) : Nat :=
  if (10 ≤ op ∧ op ≤ 13) ∨ (0x40 ≤ op ∧ op ≤ 0x42) then 1 else if op = 0x26 ∨ op = 0x27 ∨ op = 0x6A then 2 else 0
/-- VR operations that read vsa alone. -/
def vIsOne (op imm : Nat) : Bool :=
  [8, 9, 15, 0x43, 0x44, 0x45, 0x47, 0x52, 0x5E, 0x5F, 0x6B, 0x6C, 0x6D, 0x6E].contains op || decide ((0x10 ≤ op ∧ op ≤ 0x1E) ∨ (0x49 ≤ op ∧ op ≤ 0x4F) ∨
    (0x55 ≤ op ∧ op ≤ 0x58)) || ([0x3D, 0x3E, 0x3F, 0x51].contains op && decide (256 ≤ imm)) || (op == 0x6F && imm % 2 == 1)
/-- Register fields of the slot's own file by the place of their lowest bit: what stepping steps and a form's rows count up (R33, R119). -/
def vOwnFields (w : Nat) : List Nat :=
  let op := vOp w
  if 0xF0 ≤ op ∨ vIsMaskOp op then []
  else if vIsLoad op || vIsStore op then [41]
  else if vIsThree op then [41, 30, 19, 8]
  else if op = 0x5D ∨ op = 0x5F then [41]
  else if op = 0x5E then [30]
  else (if vMaskPair op = 0 then [41] else []) ++ (if vIsOne op (bits w 10 9) then [30] else [30, 19])
/-- Vector registers that a row reads through the read ports of a bank (R39, 05 R134). -/
def vReads (sd : Side) (w : Nat) : List (Side × Nat) :=
  let op := vOp w
  if 0xF0 ≤ op ∨ vIsMaskOp op ∨ vIsLoad op ∨ op = 0x5D then []
  else if vIsStore op then [(sd, vFieldD w)]
  else if vIsThree op then [(sd, vFieldA w), (sd, vFieldB w), (sd, vFieldC w)]
  else if op = 0x5F then [(otherSide sd, vFieldA w)]
  else
    (sd, vFieldA w) :: (if vIsOne op (bits w 10 9) then [] else [(sd, vFieldB w)]) ++ (if op = 0x6C ∧ bitAt w 10 then [(sd, vFieldD w)] else [])
/-- The mask field. -/
def vMask (w : Nat) : Nat :=
  let op := vOp w
  if vIsMaskOp op then 0 else bits w 3 (if vIsThree op then 2 else 4)
/-- Latencies (05 R120, 06 R159); `vrngset`, for which no rule gives one, takes 1 (log entry 18). -/
def vLatency (op : Nat) : Nat :=
  if op ≤ 2 then 4 else if op ≤ 5 then 5 else if op ≤ 7 then 4 else if op ≤ 15 then 2 else if op ≤ 0x1E then 8
  else if op ≤ 0x22 then 4 else if op = 0x23 then 5 else if op ≤ 0x25 then 4 else if op ≤ 0x27 then 2 else if op ≤ 0x2A then 4 else if op = 0x2B then 5
  else if op = 0x32 ∨ op = 0x33 then 3 else if op ≤ 0x42 then 2 else if op ≤ 0x4C then 4 else if op = 0x4D ∨ op = 0x4F then 8 else if op = 0x4E then 4
  else if op ≤ 0x54 then 3 else if op ≤ 0x58 then 8 else if op ≤ 0x5C then 1 else if op = 0x5D then 4 else if op = 0x5E then 1 else if op = 0x5F then 2
  else if op ≤ 0x63 then 4 else if op ≤ 0x6A then 2 else if op = 0x6B then 3 else if op ≤ 0x6E then 8 else 2
/-- Operations that may raise a flag (04 R75): the arithmetic and the special functions, the conversions that round, quantizing and the float
sum. Extrema, classes, compares and the exact conversions raise none (05 R122, R123, R128). -/
def vFlags (op : Nat) : Bool :=
  decide (op ≤ 5 ∨ (0x10 ≤ op ∧ op ≤ 0x1E) ∨ (0x20 ≤ op ∧ op ≤ 0x23) ∨ (0x28 ≤ op ∧ op ≤ 0x2B)) ||
    [0x43, 0x44, 0x46, 0x48, 0x4A, 0x4C, 0x4D, 0x4F, 0x55].contains op
/-- Operations that draw from the generator: `vrng`, and roundings in mode 4 (04 R74, R92). -/
def vDraws (w : Nat) : Bool :=
  let op := vOp w
  op == 0x5D || ((if vIsThree op then bits w 5 3 else bits w 7 3) == 4 && decide (op < 0x59) && !(op == 14))

/-- Draws of one row of a vector word: two for pairs of 16-bit elements (04 R92, 05 R125, R128). -/
def drawsPerRow (w : Nat) : Nat :=
  let op := vOp w
  if !(vDraws w) then 0 else if (0x18 ≤ op ∧ op ≤ 0x2B) ∨ op = 0x46 ∨ op = 0x48 then 2 else 1

/-! ### Stepping (R33) -/

/-- A word with one field replaced. -/
def setField (w lo n v : Nat) : Nat := w - bits w lo n * 2 ^ lo + v % 2 ^ n * 2 ^ lo
/-- Steps the fields of a word; none when one leaves its file of `top` registers. -/
def stepFields (top n : Nat) (step : Int) : List Nat → Nat → Option Nat
  | [], w => some w
  | lo :: t, w =>
    let v : Int := bits w lo n + step
    if 0 ≤ v ∧ v < top then stepFields top n step t (setField w lo n v.toNat) else none
/-- Register fields of a copy word that the syllable uses. -/
def cOwnFields (y : Syl) : List Nat :=
  match y with
  | .c _ o =>
    let v := cView o
    if v.cs then [15, 10]
    else match v.kind with
      | .arrive => [15]
      | .wait => [15]
      | .fence => [15]
      | .reset => [15]
      | .recv => [15, 10]
      | _ => [15, 10, 5]
  | _ => []
/-- The record stepped for a sticky issue, or none where a stepped number leaves its file. -/
def stepRecord (c : Ctl) (x : Slot) (st : Sticky) : Option Sticky :=
  let w := st.word.toNat
  match decodeSyl x w with
  | .error _ => none
  | .ok y =>
    if isBand y then some st
    else
      let fm := activeForm c y
      let out := fun (swapBit : Option Nat) (r : Option Nat) => r.map fun w' =>
        { word := .ofNat 64 (match swapBit with
            | some k => setField w' k 1 0
            | none => w'), disp := st.disp + .ofInt 64 (formAstep fm) }
      match x with
      | .va => out (some 0) (stepFields 2048 11 (formStep fm) (vOwnFields w) w)
      | .vb => out (some 0) (stepFields 2048 11 (formStep fm) (vOwnFields w) w)
      | .m => out (some 0) (stepFields 128 7 (formStep fm) (if [4, 7, 9].contains (w / 2 ^ 56) then [44] else []) w)
      | .c0 => out (if isCS y then none else some 2) (stepFields 32 5 (formStep fm) (cOwnFields y) w)
      | .c1 => out (if isCS y then none else some 2) (stepFields 32 5 (formStep fm) (cOwnFields y) w)
      | _ => some st

/-! ### Form limits at decode (R44) -/

/-- A displacement of a beat stepped outside the field of `manch` (06 R144, R145). -/
def badField (y : Syl) (delta : W64) : Bool :=
  match y with
  | .m (.manch o) => !(decide (-1024 ≤ o.disp.toInt + delta.toInt ∧ o.disp.toInt + delta.toInt < 1024))
  | _ => false
/-- Vector operations that take neither several rows nor a mask (05 R123, R129, R132, R133, 06 R155). -/
def vLimits (c : Ctl) (y : Syl) (w : Nat) : Bool :=
  let op := vOp w
  let rows := rowsOf c y
  let cols := formCols (activeForm c y)
  let mask := bits w 3 4
  (vMaskPair op == 0 || rows == 1) && (!(vIsMaskOp op || op == 0x5E) || (rows == 1 && mask == 0)) &&
    (!(op == 0x4D || op == 0x4E || op == 0x4F) || (mask == 0 && cols == 64)) &&
    (vOwnFields w).all (fun lo => decide (bits w lo 11 + rows ≤ 2048)) && (op != 0x5F || decide (vFieldA w + rows ≤ 2048))
/-- Whether the syllable passes the checks that trap with ILLEGAL_FORM at decode; `rep` says whether the bundle repeats (R32, 13 R286). -/
def formLegal (c : Ctl) (y : Syl) (rep : Bool) : Bool :=
  let w := encodeSyl y
  match y with
  | .s (.fset o) => fsetRange o.fld o.imm.toInt
  | .s (.vrot o) => o.base.toNat % 16 == 0
  | .s (.trap _) => !rep
  | .s (.esc _) => !rep
  | .s (.mret _) => !rep
  | .s (.ctxsave _) => !rep
  | .v _ _ => vLimits c y w && (!rep || rowsOf c y == 1)
  | .m (.mdrainv o) => rowsOf c y == 1 && decide (o.v.toNat + drainRegs o.fmt ≤ 2048)
  | .m _ => rowsOf c y == 1
  | .c _ o =>
    let one := (cView o).cs || (match (cView o).kind with
      | .arrive => true
      | .wait => true
      | .fence => true
      | .reset => true
      | _ => false) || rep
    !one || rowsOf c y == 1
  | _ => true

/-! ### Read ports (R39, R40) -/

/-- Banks that a row of a vector syllable reads: file and parity of the physical register. -/
def bankReads (x : Ctx) (y : Syl) (row : Nat) : List (Side × Nat) :=
  match y with
  | .v sd _ => (vReads sd (encodeSyl y)).map fun p => (p.1, phys (vfile x p.1) (p.2 + row) % 2)
  | _ => []
/-- The lent read of an M syllable (06 R144). -/
def lentRead (x : Ctx) (y : Syl) : Option (Side × Nat) :=
  match y with
  | .m (.mpush o) => lent o
  | .m (.macc o) => lent o
  | .m (.maccp o) => lent o
  | _ => none
where
  /-- The register of a lent source. -/
  lent (o : MO) : Option (Side × Nat) :=
    if o.src = 2 then some (.a, phys (vfile x .a) o.v.toNat % 2) else if o.src = 3 then some (.b, phys (vfile x .b) o.v.toNat % 2) else none

/-! ### Destinations (R43) -/

/-- A register that a syllable names as its destination. -/
inductive Dst
  | s (n : Nat) | g (n : Nat) | q (n : Nat) | b (n : Nat) | bstep (n : Nat) | v (sd : Side) (n : Nat) | mask (sd : Side) (n : Nat) | d (n : Nat) | e (n : Nat)
  deriving DecidableEq, Repr

/-- Destinations of a word of the S slot. -/
def sDests (x : Ctx) (w : Nat) : List Dst :=
  let op := w / 2 ^ 24
  let sd := fun n => if n = 0 then [] else [Dst.s n]
  if op ≤ 0x15 then sd (bits w 14 6)
  else if op ≤ 0x1F then [.g (bits w 14 6)]
  else if op ≤ 0x26 then sd (bits w 14 6)
  else if op ≤ 0x29 then [.g (bits w 14 6)]
  else if op ≤ 0x39 then sd (bits w 14 6)
  else if op ≤ 0x3D then []
  else if op ≤ 0x43 then sd (bits w 18 6)
  else if op = 0x47 then
    let n := bits w 0 11
    match bits w 11 3 with
    | 0 => [.b n]
    | 2 => [.d n]
    | 3 => [.e n]
    | 4 => [.v .a (phys x.va n)]
    | _ => [.v .b (phys x.vb n)]
  else if op = 0x48 ∨ op = 0x4A ∨ op = 0x54 ∨ op = 0x5C ∨ op = 0x5D then sd (bits w 14 6)
  else if op = 0x4B ∧ 0x40 ≤ bits w 0 14 ∧ bits w 0 14 < 0x50 then [.mask .a (bits w 0 14 - 0x40)]
  else if op = 0x4B ∧ 0x50 ≤ bits w 0 14 ∧ bits w 0 14 < 0x60 then [.mask .b (bits w 0 14 - 0x50)]
  else []
/-- Destinations of any syllable. -/
def dests (x : Ctx) (y : Syl) : List Dst :=
  let w := encodeSyl y
  match y with
  | .s _ => sDests x w
  | .l (.bset o) => [.b o.b.toNat]
  | .l (.bstep o) => [.bstep o.b.toNat]
  | .l (.qset _) => (List.range 8).map .q
  | .l (.loop o) => (List.range (o.st.toNat + 1)).map .q
  | .l (.loopImm o) => (List.range (o.st.toNat + 1)).map .q
  | .v sd _ =>
    let op := vOp w
    if vMaskPair op = 2 then [.mask sd (vFieldD w), .mask sd (vFieldD w + 1)]
    else if vMaskPair op = 1 ∨ vIsMaskOp op then [.mask sd (vFieldD w)]
    else if vIsStore op ∨ op = 0x5E then []
    else (List.range (rowsOf x.ctl y)).map fun i => .v sd (phys (vfile x sd) (vFieldD w + i))
  | .m (.mdrainv o) =>
    let sd : Side := if o.src = 2 then .a else .b
    (List.range (drainRegs o.fmt)).map fun i => .v sd (phys (vfile x sd) (o.v.toNat + i))
  | .c .a o => (cView o).outs.map .d
  | .c .b o => (cView o).outs.map .e
  | _ => []

/-! ### Accesses in program order (R42, 06 R152) -/

/-- The virtual address of a byte of the issuing context's scratchpad. -/
def ownVa (a : Nat) : Nat := 0xA000000000000000 + a
/-- The bytes that one row of a panel at `base` is fetched from (06 R138). -/
def panelRow (s : State) (base k p : Nat) : List (Nat × Nat) :=
  match pipeSite s s.cid base with
  | .error _ => []
  | .ok t =>
    let code := (siteFmt s t).toNat / 4
    let w := elemWidth code
    if code = 0x18 ∨ code = 0x19 then
      [(recordByte base (panelUnit base t) (recordSize code) (k / 32 * 128 + p) (if code = 0x18 then k % 32 / 2 else k % 32), 1)]
    else [(base + (k * 128 + p) * (w / 8), w / 8)]
/-- The bytes of a whole panel that a beat fetches. -/
def panelBytes (s : State) (iss : Iss) (base : W64) (o : MO) : List (Nat × Nat) :=
  if moDisp o iss < 0 then [] else (List.range 128).flatMap fun p => panelRow s base.toNat (moDisp o iss).toNat p
/-- Byte ranges, by virtual address, that one row of a syllable accesses in program order. -/
def accesses (s : State) (iss : Iss) : Syl → List (Nat × Nat)
  | .s (.sld8 o) => sm o 1
  | .s (.sld16 o) => sm o 2
  | .s (.sld32 o) => sm o 4
  | .s (.sld64 o) => sm o 8
  | .s (.sldz8 o) => sm o 1
  | .s (.sldz16 o) => sm o 2
  | .s (.sldz32 o) => sm o 4
  | .s (.sst8 o) => sm o 1
  | .s (.sst16 o) => sm o 2
  | .s (.sst32 o) => sm o 4
  | .s (.sst64 o) => sm o 8
  | .k (.kld o) => match scrAddr (bGet iss.v.r o.b.toNat) (128 * o.off.toNat) 128 1 with
    | .ok a => [(ownVa a, 128)]
    | .error _ => []
  | .k (.kldp o) =>
    let b := (bGet iss.v.r o.b.toNat).toNat
    match kldpBytes iss.v b (tagAt iss.v b).toNat o.off.toNat with
    | .ok l => l.map fun a => (ownVa a, 1)
    | .error _ => []
  | .v sd (.vldF32 o) => vm sd o
  | .v sd (.vldI32 o) => vm sd o
  | .v sd (.vldBf16 o) => vm sd o
  | .v sd (.vldF16 o) => vm sd o
  | .v sd (.vstF32 o) => vm sd o
  | .v sd (.vstI32 o) => vm sd o
  | .v sd (.vstBf16 o) => vm sd o
  | .v sd (.vstF16 o) => vm sd o
  | .m (.mpush o) => if o.src = 0 then panelBytes s iss iss.v.m.mpa o else if o.src = 1 then panelBytes s iss iss.v.m.mpb o else []
  | .m (.macc o) => beat o
  | .m (.maccp o) => beat o
  | .m (.mdrain o) =>
    let a : Int := iss.v.m.mpd.toNat + moDisp o iss
    if a < 0 then [] else [(a.toNat, 128 * drainSize o.fmt)]
  | .c sd (.mcast o) => source sd (.mcast o)
  | .c sd (.send o) => source sd (.send o)
  | .c sd (.recv o) => match cArgs iss sd (.recv o) with
    | .ok a => [(ownVa (scrOff (cAddr iss sd (.recv o) (arg a 0) iss.row)),
        (arrival (getCl s (ctxCl s.cid)) (entryKey s.cid ((arg a 1).toNat % 16))).length)]
    | .error _ => []
  | _ => []
where
  /-- Scalar accesses. -/
  sm (o : SM) (n : Nat) : List (Nat × Nat) := match smAddr o iss n with
    | .ok a => [(ownVa a, n)]
    | .error _ => []
  /-- The active lanes of a row. -/
  vm (sd : Side) (o : VM) : List (Nat × Nat) :=
    (lanesOf (activeBits iss.v sd o.form o.mask.toNat)).map fun (l : Nat) => (ownVa (vmAddr iss o iss.row + 4 * (l : Int)).toNat, 4)
  /-- The panels of an accumulate. -/
  beat (o : MO) : List (Nat × Nat) :=
    (if o.src.toNat < 2 then panelBytes s iss iss.v.m.mpa o else []) ++ (if o.src = 1 then [] else panelBytes s iss iss.v.m.mpb o)
  /-- The source of a multicast or send. -/
  source (sd : Side) (op : CSyl) : List (Nat × Nat) := match cArgs iss sd op with
    | .ok a => [(ownVa (scrOff (cAddr iss sd op (arg a 1) iss.row)), (arg a 2).toNat)]
    | .error _ => []
/-- Scratchpad banks of byte ranges, each once; 32 lines in a row take every bank. -/
def banksOf (l : List (Nat × Nat)) : List Nat :=
  ((l.filter fun p => isKind 0 (.ofNat 64 p.1)).flatMap fun p =>
    if p.2 = 0 then [] else (List.range (min 32 ((p.1 + p.2 - 1) / 64 + 1 - p.1 / 64))).map fun i => (p.1 / 64 + i) % 32).eraseDups

/-! ### Scoreboard items (12 R251, R252) -/

/-- What one issue of a syllable asks of the scoreboard: items read at the issue, items that a later row reads with the number of the row, items
written with their latencies in program order (R252), other pending effects with their times. -/
structure Use where
  reads : List Item := []
  later : List (Item × Nat) := []
  writes : List (Item × Nat) := []
  marks : List (Item × Nat) := []
  deriving DecidableEq, Repr

/-- Items of a system register (05 R110). -/
def sysItems (n : Nat) : List Item :=
  if n = 0 then [.flags] else if n = 1 then [.tile 0, .tile 1] else if 8 ≤ n ∧ n < 0x0C then [.rng .a] else if 0x0C ≤ n ∧ n < 0x10 then [.rng .b]
  else if 0x40 ≤ n ∧ n < 0x50 then [.mask .a (n - 0x40)] else if 0x50 ≤ n ∧ n < 0x60 then [.mask .b (n - 0x50)] else []
/-- Use of a word of the S slot. -/
def sUse (x : Ctx) (w : Nat) : Use :=
  let op := w / 2 ^ 24
  let d := bits w 14 6
  let a := bits w 8 6
  let b := bits w 2 6
  if op ≤ 0x10 then { reads := [.s a, .s b], writes := [(.s d, if 2 ≤ op ∧ op ≤ 4 then 3 else 1)] }
  else if op ≤ 0x13 then { reads := [.s a], writes := [(.s d, 1)] }
  else if op = 0x14 then { reads := [.s a, .s b], writes := [(.s d, 1)] }
  else if op = 0x15 then { reads := [.s a, .s b, .s d], writes := [(.s d, 1)] }
  else if op ≤ 0x1B then { reads := [.s a, .s b] }
  else if op ≤ 0x1F then {}
  else if op ≤ 0x26 then { reads := [.s a], writes := [(.s d, 1)] }
  else if op ≤ 0x29 then { reads := [.s a] }
  else if op = 0x2A then { writes := [(.s d, 1)] }
  else if op ≤ 0x32 then { reads := [.s d], writes := [(.s d, 1)] }
  else if op ≤ 0x39 then { writes := [(.s d, 4)] }
  else if op ≤ 0x3D then { reads := [.s d] }
  else if op ≤ 0x43 then { reads := [.s (bits w 12 6), .s (bits w 6 6), .s (bits w 18 6)], writes := [(.s (bits w 18 6), 1)] }
  else if op = 0x45 then { reads := [.s (bits w 7 6)] }
  else if op = 0x47 then
    match bits w 11 3 with
    | 4 => { reads := [.s d], writes := [(.v .a (phys x.va (bits w 0 11)), 2)] }
    | 5 => { reads := [.s d], writes := [(.v .b (phys x.vb (bits w 0 11)), 2)] }
    | _ => { reads := [.s d] }
  else if op = 0x48 then
    match bits w 11 3 with
    | 4 => { reads := [.v .a (phys x.va (bits w 0 11))], writes := [(.s d, 3)] }
    | 5 => { reads := [.v .b (phys x.vb (bits w 0 11))], writes := [(.s d, 3)] }
    | _ => { writes := [(.s d, 1)] }
  else if op = 0x49 then { reads := [.s (bits w 13 6)] }
  else if op = 0x4A then { reads := sysItems (bits w 0 14), writes := [(.s d, 1)] }
  else if op = 0x4B then { reads := [.s d], writes := (sysItems (bits w 0 14)).map (·, 1) }
  else if op = 0x51 ∨ op = 0x56 ∨ op = 0x57 then { reads := [.s d] }
  else if op = 0x54 ∨ op = 0x5C ∨ op = 0x5D then { writes := [(.s d, 1)] }
  else {}
/-- Use of a vector word, all rows of its form. -/
def vUse (x : Ctx) (sd : Side) (y : Syl) : Use :=
  let w := encodeSyl y
  let op := vOp w
  let lat := vLatency op
  let n := rowsOf x.ctl y
  let m := vMask w
  let src := fun (row : Nat) => (vReads sd w).map fun p => Item.v p.1 (phys (vfile x p.1) (p.2 + row))
  let msrc := if vIsMaskOp op then [Item.mask sd (vFieldA w % 16), .mask sd (vFieldB w % 16)] else if m = 0 then [] else [.mask sd m]
  { reads := src 0 ++ msrc
    later := (List.range (n - 1)).flatMap fun i => (src (i + 1)).map (·, i + 1)
    writes :=
      if vMaskPair op = 2 then [(.mask sd (vFieldD w), lat), (.mask sd (vFieldD w + 1), lat)]
      else if vMaskPair op = 1 ∨ vIsMaskOp op then [(.mask sd (vFieldD w), lat)]
      else if vIsStore op then []
      else if op = 0x5E then [(.rng sd, lat)]
      else (List.range n).map fun i => (.v sd (phys (vfile x sd) (vFieldD w + i)), lat + i)
    marks := (if vFlags op then [(.flags, lat + n - 1)] else []) ++ (if vDraws w then [(.rng sd, lat + n - 1)] else []) }
/-- Use of a matrix word. -/
def mUse (iss : Iss) (y : Syl) : Use :=
  let w := encodeSyl y
  let op := w / 2 ^ 56
  let t := bits w 51 1
  let lent : List Item := if op ∈ [0, 2, 3] ∧ 2 ≤ bits w 42 2 then
      (let sd : Side := if bits w 42 2 = 2 then .a else .b
       [.v sd (phys (vfile iss.v sd) (bits w 31 11))]) else []
  let out : List (Item × Nat) := match y with
    | .m (.mdrainv o) =>
      let sd : Side := if o.src = 2 then .a else .b
      (List.range (drainRegs o.fmt)).map fun i => (.v sd (phys (vfile iss.v sd) (o.v.toNat + i)), 6)
    | _ => []
  let own : List (Item × Nat) := match y with
    | .m (.mdrain o) =>
      let a : Int := iss.v.m.mpd.toNat + moDisp o iss
      if a < 0 then [] else [(.mem a.toNat (a.toNat + 128 * drainSize o.fmt), 6)]
    | _ => []
  { reads := lent ++ (if op ∈ [2, 3, 4, 9] then [.array] else []) ++ (if op ∈ [4, 5, 6, 7, 8, 9] then [.tile t] else []) ++
      (if op ∈ [5, 6, 7, 8] then [.drainOf t] else [])
    writes := out
    marks := (if op ∈ [2, 3] then [(.tile t, 4)] else []) ++ (if op ∈ [4, 9] then [(.drainOf t, 6), (.drain, 6), (.flags, 6)] else []) ++ own }
/-- Use of one issue of a syllable whose guard is true. -/
def useOf (iss : Iss) (y : Syl) : Use :=
  match y with
  | .s _ => sUse iss.v (encodeSyl y)
  | .l (.loop o) => { reads := [.s o.s.toNat] }
  | .v sd _ => vUse iss.v sd y
  | .m _ => mUse iss y
  | _ => {}

/-- The wall cycle from which every pending entry that matches is usable. -/
def readyAt (sb : List Pend) (f : Item → Bool) : Nat := sb.foldl (fun m p => if f p.item then max m p.at_ else m) 0
/-- Whether a pending drained range holds an accessed byte (06 R152). -/
def overDrain (it : Item) (l : List (Nat × Nat)) : Bool :=
  match it with
  | .mem lo hi => l.any fun p => decide (p.1 < hi ∧ lo < p.1 + p.2)
  | _ => false
/-- The first wall cycle in which a syllable can issue as its scoreboard stands: reads (R251), those of a later row when it issues (05 R119), then the
order of writes (R252). -/
def issueFrom (sb : List Pend) (u : Use) (acc : List (Nat × Nat)) (wall : Nat) : Nat :=
  let r := readyAt sb fun it => u.reads.contains it || overDrain it acc
  let r := u.later.foldl (fun m q => max m (readyAt sb (· == q.1) - q.2)) r
  if wall < r then r
  else
    (u.writes.foldl (fun m q => sb.foldl (fun m p => if p.item = q.1 ∧ p.item ≠ .s 0 ∧ wall < p.at_ ∧ wall + q.2 ≤ p.at_ then max m (p.at_ + 1) else m) m) 0)
/-- Adds pending results; results usable in the next cycle need no entry, and landed ones leave. -/
def addPend (sb : List Pend) (l : List (Item × Nat)) (wall : Nat) : List Pend :=
  (sb.filter fun p => decide (wall < p.at_)) ++ (l.filter fun q => decide (2 ≤ q.2) && !(q.1 == .s 0)).map fun q => { item := q.1, at_ := wall + q.2 }

end Sys2Proof.Machine
end

