-- ==== Sys2Proof/Machine/Issue.lean ====
section
/-! DEFINITION. The issue of a bundle (03 R28-R49, 12 R251-R253): fetch, decode, the checks of R44, the slots' effects as one whole, holds and
traps, and the commit. -/

namespace Sys2Proof.Machine

/-! ### Bundles (R28, R29, R31, R35) -/

/-- A fetched bundle: header, words by slot, bytes. -/
structure Bun where
  hdr : Nat
  words : List (Nat × Nat)
  len : Nat
  deriving DecidableEq, Repr

/-- Bit of slot `k` in the header byte at `sh`: the highest bit is slot 0. -/
def slotBit (h sh k : Nat) : Bool := bitAt h (sh + (7 - k))
def hdrPresent (h k : Nat) : Bool := slotBit h 24 k
def hdrQuiet (h k : Nat) : Bool := slotBit h 16 k
def hdrRepeat (h : Nat) : Nat := bits h 12 4
def hdrStall (h : Nat) : Nat := bits h 8 4
def hdrTemplate (h : Nat) : Nat := bits h 4 4
def hdrLendA (h : Nat) : Nat := bits h 2 2
def hdrLendB (h : Nat) : Nat := bits h 0 2
/-- A slot by its number. -/
def slotOf (k : Nat) : Slot := (Slot.all[k]?).getD .c1
/-- Slot numbers in order. -/
def slots8 : List Nat := [0, 1, 2, 3, 4, 5, 6, 7]
/-- Words of the slots for which `p` holds, from bytes, in slot order. -/
def takeWords (p : Nat → Bool) : List Nat → List Byte → List (Nat × Nat) × List Byte
  | [], bs => ([], bs)
  | k :: t, bs =>
    if p k then
      let n := (slotOf k).bits / 8
      let r := takeWords p t (bs.drop n)
      ((k, leNat (bs.take n)) :: r.1, r.2)
    else takeWords p t bs
/-- Bytes of a bundle with a header. -/
def bundleLen (h : Nat) : Nat := slots8.foldl (fun n k => if hdrPresent h k then n + (slotOf k).bits / 8 else n) 4
/-- Fetches the bundle at the pc, or the first unmapped offset (R64). -/
def fetchBundle (s : State) (c : CtxId) (x : Ctx) : Except Nat Bun :=
  match fetchBytes s c x 4 x.r.pc.toNat with
  | .error a => .error a
  | .ok hb =>
    let h := leNat hb
    match fetchBytes s c x (bundleLen h) x.r.pc.toNat with
    | .error a => .error a
    | .ok bs => .ok { hdr := h, words := (takeWords (hdrPresent h) slots8 (bs.drop 4)).1, len := bundleLen h }
/-- The word of a slot. -/
def wordOf (l : List (Nat × Nat)) (k : Nat) : Option Nat := (l.find? fun p => p.1 == k).map (·.2)
/-- The words of a template entry by slot; none when the entry was never loaded or breaks its layout (R35). DESIGN CHOICE (log entry 94): the
bytes of the entry's word part that no masked slot uses count as reserved and must be zero; a word itself is checked in its slot's place, as if it
followed the header. -/
def templateWords (c : Ctl) (k : Nat) : Option (List (Nat × Nat)) :=
  if k = 0 then some []
  else match c.tmpl[k - 1]? with
    | none => none
    | some e =>
      let bs := leBytes 64 e.toNat
      let m := e.toNat % 2 ^ 32
      let r := takeWords (fun q => bitAt m (24 + (7 - q))) slots8 (bs.drop 4)
      if m % 2 ^ 24 ≠ 0 ∨ r.2.any (· != 0) then none else some r.1

/-- A syllable that a slot issues, with the displacement stepped so far and the record it leaves. -/
structure Pick where
  slot : Nat
  syl : Syl
  record : Option Sticky
  deriving DecidableEq, Repr

/-- A word of a bundle or template. -/
def pickWord (k w : Nat) : Except Byte Pick :=
  match decodeSyl (slotOf k) w with
  | .ok y => .ok { slot := k, syl := y, record := if k = 1 then none else some { word := .ofNat 64 w, disp := 0 } }
  | .error _ => .error illegalOpcode
/-- A sticky issue (R33). -/
def pickSticky (c : Ctl) (k : Nat) : Except Byte Pick :=
  match (c.sticky[k]?).getD none with
  | none => .error illegalForm
  | some st => match stepRecord c (slotOf k) st with
    | none => .error illegalForm
    | some st' => match decodeSyl (slotOf k) st'.word.toNat with
      | .ok y => .ok { slot := k, syl := y, record := some st' }
      | .error _ => .error illegalForm
/-- What a slot does at an issue (R29, R30, R32). DESIGN CHOICE (log entry 95): the L syllable of a repeated bundle is decoded and checked at its only
issue, with the last repetition, so that earlier repetitions commit before an illegal one traps. -/
def pick (c : Ctl) (b : Bun) (tm : List (Nat × Nat)) (k : Nat) : Option (Except Byte Pick) :=
  if hdrQuiet b.hdr k then none
  else
    let w := (wordOf b.words k) <|> (wordOf tm k)
    if k = 1 then (if c.rptidx.toNat = hdrRepeat b.hdr then w.map (pickWord 1) else none)
    else match w with
      | some w => if c.rptidx = 0 then some (pickWord k w) else some (pickSticky c k)
      | none => some (pickSticky c k)
/-- Slots that a bundle uses, as a mask in header order, lent ports with them (R20, R38). -/
def usedMask (b : Bun) (res : List (Nat × Except Byte Pick)) : BitVec 8 :=
  let m := res.foldl (fun m p => m ||| BitVec.twoPow 8 (7 - p.1)) (0 : BitVec 8)
  m ||| (if hdrLendA b.hdr = 0 then 0 else 0x10) ||| (if hdrLendB b.hdr = 0 then 0 else 0x08)

/-! ### Checks at decode (R44) -/

/-- A trap of a slot. -/
def slotTrap {α : Type} (code : Byte) (slot : Nat) (val : W64 := 0) : Except Trap α := .error { code := code, val := val, slot := some slot }
/-- A check at decode. -/
def need (ok : Bool) (code : Byte) (slot : Nat) : Except Trap Unit := if ok then .ok () else slotTrap code slot
/-- The bank reads of the cycle `i` cycles on: of each V slot's row that issues then, whether its form is older or of this bundle, and in the cycle
itself the lent read. -/
def cycleReads (s : State) (x : Ctx) (ps : List Pick) (i : Nat) : List (Nat × Side × Nat) :=
  let wall := (getCl s (ctxCl s.cid)).wall + i
  let own := [3, 4].flatMap fun k =>
    match x.run.rows.find? fun j => j.slot == k && decide (j.due ≤ wall) && decide (wall < j.due + (j.rows - j.row)) with
    | some j => (bankReads { x with va := j.va, vb := j.vb } j.syl (j.row + (wall - j.due))).map (k, ·)
    | none =>
      if decide (wall - i < readyAt x.run.sb (· == .slot k)) then []
      else match ps.find? fun p => p.slot == k && decide (i < rowsOf x.ctl p.syl) with
        | some p => (bankReads x p.syl i).map (k, ·)
        | none => []
  let lent := if i = 0 then (match ps.find? fun p => p.slot == 5 with
    | some p => (lentRead x p.syl).toList.map (5, ·)
    | none => []) else []
  own ++ lent
/-- The slot that answers for a bank: a `vxfer` that reads it, else the file's own slot (R39, 05 R134). -/
def bankAnswers (l : List (Nat × Side × Nat)) (b : Side × Nat) : Nat :=
  let own := if b.1 = .a then 3 else 4
  match l.find? fun r => r.2 == b && (r.1 == 3 || r.1 == 4) && r.1 != own with
  | some r => r.1
  | none => own
/-- Whether a slot answers for a bank that is read more than twice in a cycle. -/
def bankBreach (l : List (Nat × Side × Nat)) (k : Nat) : Bool :=
  l.any fun r => bankAnswers l r.2 == k && decide (2 < (l.filter fun q => q.2 == r.2).length)
/-- The header faults (R29, R40), then the template's (R35). DESIGN CHOICE (log entry 94): the ILLEGAL_OPCODE of an entry that was never loaded, or whose
reserved part is not zero, names slot 7 and comes after the lend fault and before every slot's checks. -/
def headerCheck (b : Bun) (tm : Bool) : Except Trap Unit := do
  need (b.hdr != 0 && !(slots8.any fun k => hdrPresent b.hdr k && hdrQuiet b.hdr k)) illegalOpcode 7
  need (hdrLendA b.hdr == 0 || hdrLendA b.hdr != hdrLendB b.hdr) illegalPort 7
  need tm illegalOpcode 7
/-- What a slot resolved to. -/
def resolved (l : List (Nat × Except Byte Pick)) (k : Nat) : Option (Except Byte Pick) := (l.find? fun p => p.1 == k).map (·.2)
/-- The checks of one slot, in order. -/
def slotCheck (v : Ctx) (b : Bun) (reads : List (List (Nat × Side × Nat))) (l : List (Nat × Except Byte Pick)) (k : Nat) : Except Trap Unit := do
  match resolved l k with
  | some (.error e) => slotTrap (α := Unit) e k
  | some (.ok p) =>
    need (!(badField p.syl ((p.record.map (·.disp)).getD 0))) illegalOpcode k
    need (formLegal v.ctl p.syl (decide (0 < hdrRepeat b.hdr))) illegalForm k
  | none => .ok ()
  need (!((k == 3 || k == 4) && reads.any fun r => bankBreach r k)) illegalBank k
  match resolved l k with
  | some (.ok p) => match lentRead v p.syl with
    | some (.a, _) => need (hdrLendA b.hdr == 1) illegalPort k
    | some (.b, _) => need (hdrLendB b.hdr == 1) illegalPort k
    | none => .ok ()
  | _ => .ok ()
/-- Pairs of slots that name one destination: lower, upper, registers. -/
def dualPairs (v : Ctx) (ps : List Pick) : List (Nat × Nat × List Dst) :=
  ps.flatMap fun p => (ps.filter fun q => decide (p.slot < q.slot)).filterMap fun q =>
    let common := (dests v p.syl).filter fun d => (dests v q.syl).contains d
    if common.isEmpty then none else some (p.slot, q.slot, common)
/-- The guard of a slot's syllable. -/
def pickGuard (ps : List Pick) (k : Nat) : BitVec 4 := ((ps.find? fun p => p.slot == k).map fun p => guardOf p.syl).getD 0
/-- Statically timed code in strict mode (R253, R250). -/
def strictNow (s : State) (c : CtxId) : Bool := let x := getCtx s c; isPrim s c && !x.mon.active && x.prog.strict && !x.prog.promoted
/-- Kernel code of a primary. -/
def primKernel (s : State) (c : CtxId) : Bool := isPrim s c && !(getCtx s c).mon.active
/-- DUAL_WRITE (R43): at decode when a writer is unguarded; in strict mode also when both guards are true. -/
def dualCheck (s : State) (v : Ctx) (ps : List Pick) : Except Trap (List (Nat × Nat × List Dst)) := do
  let prs := dualPairs v ps
  match prs.find? fun p => pickGuard ps p.1 == 0 || pickGuard ps p.2.1 == 0 with
  | some p => slotTrap dualWriteCode p.2.1
  | none =>
    let hot := prs.filter fun p => guardOn v.r (pickGuard ps p.1) && guardOn v.r (pickGuard ps p.2.1)
    match hot with
    | p :: _ => if strictNow s s.cid then slotTrap dualWriteCode p.2.1 else .ok hot
    | [] => .ok []

/-! ### The context prepared for an issue -/

/-- Swaps of the issuing syllables (R47, R48): a guarded-off syllable swaps too, as stepping goes on as if it had issued (R49; 07, line 31). -/
def doSwaps (x : Ctx) (ps : List Pick) : Ctx :=
  { x with ctl := ps.foldl (fun c p => if swapOf p.syl then swapForm c (p.slot - 3) (formOf p.syl) else c) x.ctl }
/-- Records that an issue leaves (R33). -/
def newSticky (l : Vector (Option Sticky) 8) (ps : List Pick) : Vector (Option Sticky) 8 :=
  ps.foldl (fun l p => match p.record with
    | some r => l.setIfInBounds p.slot (some r)
    | none => l) l
/-- The context as the slots see it: swaps done, the pc at the next bundle, scheduled cycles counted (06 R143). -/
def prepare (x : Ctx) (b : Bun) (ps : List Pick) : Ctx :=
  let x := doSwaps x ps
  let first := x.ctl.rptidx = 0
  { x with
    ctl := { x.ctl with sticky := newSticky x.ctl.sticky ps }
    r := { x.r with pc := if x.ctl.rptidx.toNat = hdrRepeat b.hdr then x.r.pc + .ofNat 32 b.len else x.r.pc }
    run := { x.run with
      sched := x.run.sched + (if first then hdrStall b.hdr + x.run.gap else 0) + 1, nseq := x.run.nseq + 1, gap := 0, boundary := false } }
/-- What a slot's issue sees. -/
def issOf (v : Ctx) (pc : W32) (len : Nat) (p : Pick) : Iss :=
  { v := v, delta := (p.record.map (·.disp)).getD 0, bundle := pc, next := pc + .ofNat 32 len, slot := p.slot }

/-! ### The slots' effects -/

/-- The order in which a bank serves an access of a syllable (R42): deliveries of the exchange network first, then the slots. -/
def portRank (slot : Nat) : Syl → Nat
  | .c _ (.recv _) => 0
  | _ => slot + 1
/-- How many accesses are queued ahead of one of rank `rank` on its banks (R42). -/
def queued (ahead : List (Nat × Nat)) (rank : Nat) (banks : List Nat) : Nat :=
  banks.foldl (fun m b => max m (ahead.countP fun a => a.2 == b && decide (a.1 < rank))) 0
/-- Scratchpad banks that a row of a syllable accesses, with their rank. -/
def bankUse (s : State) (iss : Iss) (y : Syl) : List (Nat × Nat) :=
  if guardOn iss.v.r (guardOf y) && !isBand y then (banksOf (accesses s iss y)).map (portRank iss.slot y, ·) else []
/-- The byte ranges of every row of a V form at its issue, of the row itself otherwise. -/
def allAccesses (s : State) (iss : Iss) (y : Syl) : List (Nat × Nat) :=
  match y with
  | .v _ _ => (List.range (rowsOf iss.v.ctl y)).flatMap fun i => accesses s { iss with row := i } y
  | _ => accesses s iss y
/-- What row `i` of a V form sees: the state before the issue (05 R95), the generator after the draws of the rows before it. -/
def formIss (iss : Iss) (sd : Side) (s0 s : State) (i : Nat) : Iss :=
  { iss with row := i, v := setVFile iss.v sd { vfile iss.v sd with ctr := (vfile iss.v sd).ctr + ((vfile s.cx sd).ctr - (vfile s0.cx sd).ctr) } }
/-- The effect of a syllable at its issue: every row of a V form, in order (05 R119); each row's result is usable at its own time (R120). -/
def semForm (y : Syl) (iss : Iss) (s : State) : Res :=
  match y with
  | .v sd _ =>
    if rowsOf iss.v.ctl y = 1 then semSyl y iss s
    else (List.range (rowsOf iss.v.ctl y)).foldlM (fun t i => semSyl y (formIss iss sd s t i) t) s
  | _ => semSyl y iss s
/-- One slot of an issue: busy slots, the scoreboard, the scratchpad ports, then the effect. The number is the cycle from which a hold of the
scoreboard ends. -/
def runPart (ahead : List (Nat × Nat)) (iss : Iss) (y : Syl) (s : State) : Except (Stop × Nat) State :=
  let run := iss.v.run
  let wall := (getCl s (ctxCl s.cid)).wall
  let busy := readyAt run.sb (· == .slot iss.slot)
  if wall < busy then .error (.hold .item, busy)
  else if (run.rows.any fun j => j.slot == iss.slot) || run.issuedNow.getLsbD (7 - iss.slot) then .error (.hold .item, 0)
  else if isBand y || !(guardOn iss.v.r (guardOf y)) then .ok s
  else
    let from_ := issueFrom run.sb (useOf iss y) (allAccesses s iss y) wall
    if wall < from_ then .error (.hold .item, from_)
    else
      let n := queued ahead (portRank iss.slot y) (banksOf (accesses s iss y))
      if 0 < n ∧ run.portUntil = none then .error (.hold (.port n), 0)
      else match semForm y iss s with
        | .ok t => .ok t
        | .error e => .error (e, 0)

/-- The value of a discarded destination put back (R43). -/
def restoreDst (old : Ctx) (x : Ctx) (d : Dst) : Ctx :=
  match d with
  | .s n => { x with r := sSet x.r n (sGet old.r n) }
  | .g n => { x with r := gSet x.r n (gGet old.r n) }
  | .q n => { x with r := { x.r with q := setBit x.r.q n (qGet old.r n) } }
  | .b n => { x with r := bSet x.r n (bGet old.r n) }
  | .bstep n => { x with r := { x.r with bstep := cellSet x.r.bstep n (cellGet old.r.bstep n) } }
  | .v sd n => rowSet x sd n (rowGet old sd n)
  | .mask sd n => maskSet x sd n (maskGet old sd n)
  | .d n => { x with r := deSet x.r .a n (deGet old.r .a n) }
  | .e n => { x with r := deSet x.r .b n (deGet old.r .b n) }
/-- Destinations that a slot loses. -/
def lostDsts (hot : List (Nat × Nat × List Dst)) (k : Nat) : List Dst := (hot.filter fun p => p.1 == k).flatMap (·.2.2)
/-- All slots in order; a slot that loses a destination keeps its old value. -/
def runParts (v : Ctx) (pc : W32) (len : Nat) (hot : List (Nat × Nat × List Dst)) : List Pick → List (Nat × Nat) → State → Except (Nat × Stop × Nat) State
  | [], _, s => .ok s
  | p :: t, ahead, s =>
    let iss := issOf v pc len p
    match runPart ahead iss p.syl s with
    | .error e => .error (p.slot, e)
    | .ok s' => runParts v pc len hot t (ahead ++ bankUse s iss p.syl) { s' with cx := (lostDsts hot p.slot).foldl (restoreDst s.cx) s'.cx }

/-! ### Conditions that hold an issue (12 R253, R256) -/

/-- The deviation cause of a hold (12 R256). -/
def causeOf : HoldOn → Cause
  | .absent _ => .absent
  | .absentOf _ _ => .absent
  | .recv _ => .receiveWait
  | .item => .interlock
  | .late => .lateReply
  | .horizon _ => .lateReply
  | .port _ => .portWait
  | .wheel => .wheelWait
/-- Order and codes of the causes (12 R256, 18 R340). -/
def causeNum : Cause → Nat
  | .absent => 1 | .lateReply => 2 | .interlock => 3 | .portWait => 4 | .receiveWait => 5 | .wheelWait => 6 | .dualWrite => 7
/-- Whether a hold counts as waiting (12 R249). -/
def waitsOn : HoldOn → Bool
  | .recv _ => true
  | .late => true
  | .horizon _ => true
  | .wheel => true
  | _ => false
/-- What holds each slot of an issue, every slot tried on its own. -/
def holdsOf (v : Ctx) (pc : W32) (len : Nat) : List Pick → List (Nat × Nat) → State → List (Nat × HoldOn × Nat)
  | [], _, _ => []
  | p :: t, ahead, s =>
    let iss := issOf v pc len p
    let rest := holdsOf v pc len t (ahead ++ bankUse s iss p.syl) s
    match runPart ahead iss p.syl s with
    | .error (.hold h, n) => (p.slot, h, n) :: rest
    | _ => rest
/-- A unit of a context taken as present. -/
def assumeUnit (s : State) (c : CtxId) (u : Nat) : State := modCtx s c fun x => { x with prog := { x.prog with absent := x.prog.absent.filter (· != u) } }
/-- The absent units that one slot touches, found one after the other (16 R322). -/
def absentUnits (iss : Iss) (y : Syl) : Nat → State → List (CtxId × Nat)
  | 0, _ => []
  | fuel + 1, s =>
    match runPart [] iss y s with
    | .error (.hold (.absent u), _) => (s.cid, u) :: absentUnits iss y fuel (assumeUnit s s.cid u)
    | .error (.hold (.absentOf k u), _) => (ctxOfNum k, u) :: absentUnits iss y fuel (assumeUnit s (ctxOfNum k) u)
    | _ => []
/-- Rank of a demand pull (16 R322): cycle, primaries first, core, slot. -/
def demandRank (s : State) (c : CtxId) (slot : Nat) : Nat :=
  (((getCl s (ctxCl c)).wall * 4 + (if isPrim s c then 0 else 1)) * 8 + c.core.toNat % 8) * 16 + slot
/-- Demand pulls for units that one slot touches, in unit order. -/
def demandUnits (s : State) (c : CtxId) (slot : Nat) (l : List (CtxId × Nat)) : State :=
  (sortBy (fun a b => decide (a.2 ≤ b.2)) l).foldl (fun s p => askPull s p.1 p.2 (some (demandRank s c slot))) s

/-! ### Commit -/

/-- Items that an issue leaves pending, with its multi-row V slots busy (05 R119). -/
def newPend (v : Ctx) (pc : W32) (len : Nat) (hot : List (Nat × Nat × List Dst)) (ps : List Pick) : List (Item × Nat) :=
  ps.flatMap fun p =>
    let iss := issOf v pc len p
    let rows := rowsOf v.ctl p.syl
    let lost := (lostDsts hot p.slot).filterMap fun d => match d with
      | .s n => some (Item.s n)
      | .v sd n => some (.v sd n)
      | .mask sd n => some (.mask sd n)
      | _ => none
    let own := if guardOn v.r (guardOf p.syl) && !isBand p.syl then
        (let u := useOf iss p.syl
         (u.writes.filter fun q => !(lost.contains q.1)) ++ u.marks) else []
    own ++ (if 1 < rows ∧ (p.slot = 3 ∨ p.slot = 4) then [(.slot p.slot, rows)] else [])
/-- The rows that an issue leaves to issue (05 R119, 10 R209); a guarded-off copy form keeps its slot busy with rows that do nothing. -/
def newRows (s : State) (v : Ctx) (pc : W32) (len : Nat) (hot : List (Nat × Nat × List Dst)) (ps : List Pick) : List RowJob :=
  ps.filterMap fun p =>
    let rows := rowsOf v.ctl p.syl
    let on := guardOn v.r (guardOf p.syl)
    let iss := issOf v pc len p
    let time := if p.slot < 6 then (getCl s (ctxCl s.cid)).wall else ownNow s s.cid
    let args := match p.syl with
      | .c sd o => match cArgs iss sd o with
        | .ok a => a
        | .error _ => []
      | _ => []
    let skip := (lostDsts hot p.slot).filterMap fun d => match d with
      | .v sd n => some (sd, n)
      | _ => none
    if rows ≤ 1 ∨ p.slot < 3 ∨ (p.slot < 6 ∧ !on) then none
    else some {
      slot := p.slot, syl := if on then p.syl else .band (.ofNat 3 p.slot) 0, delta := iss.delta, row := 1, rows := rows, due := time + 1, b := v.r.b
      va := v.va, vb := v.vb, form := activeForm v.ctl p.syl, pthresh := v.sys.pthresh, args := args, bundle := pc, seq := v.run.nseq
      clustered := decide (6 ≤ p.slot) && primKernel s s.cid, skip := skip }
/-- A deviation record (18 R340). -/
def devRecord (s : State) (cl : Nat) (b : Brake) (lost : Nat) : Nat :=
  packFields [(1, 1), (causeNum b.cause, 1), (cl / 4 + 16 * (cl % 4) + 64 * b.core, 2), (trBundle b.bundle b.rpt.toNat b.slot, 4), (lost, 4), (b.loop.toNat, 1),
    (b.stage.toNat, 1), (0, 2), (b.iter.toNat, 4), (b.first - (getCl s cl).segCycle, 4), (b.region.toNat, 4), (b.serial.toNat, 4)]
/-- Stage of a syllable guarded by a stage predicate (18 R338). -/
def stageOf (g : BitVec 4) : BitVec 8 := if 8 ≤ g.toNat then .ofNat 8 (g.toNat - 8) else 0
/-- What a record names of a context. -/
def brakeOf (s : State) (c : CtxId) (cause : Cause) (bundle : W32) (rpt : BitVec 4) (slot : Nat) (g : BitVec 4) : Brake :=
  let x := getCtx s c
  { cause := cause, core := c.core.toNat % 8, bundle := bundle, rpt := rpt, slot := slot, loop := .ofNat 8 (trLoop x.r), stage := stageOf g
    iter := .ofNat 32 (trIter x.r), first := (getCl s (ctxCl c)).wall, region := x.prog.region, serial := x.prog.serial }
/-- The record of an issue that discards writes: of a primary in kernel code (R43). DESIGN CHOICE (log entry 93): where several pairs of slots name
common destinations, the one record names the first pair, the lowest slot that loses a write first. -/
def dualRecords (s0 s : State) (ps : List Pick) (hot : List (Nat × Nat × List Dst)) : State :=
  match primKernel s0 s0.cid, hot with
  | true, p :: _ =>
    let b := brakeOf s0 s0.cid .dualWrite s0.cx.r.pc s0.cx.ctl.rptidx p.1 (pickGuard ps p.1)
    keepRecord s (ctxCl s0.cid) b.region (devRecord s0 (ctxCl s0.cid) b 0)
  | _, _ => s
/-- A boundary passed: a channel's watch stop counts it (18 R345). -/
def countBoundary (x : Ctx) : Ctx :=
  if x.run.boundary || (currentLoop x.r).isNone then { x with run := { x.run with watchStop := x.run.watchStop.map fun w => { w with bounds := w.bounds + 1 } } } else x
/-- What the end of an issue does: the companions of `trap`, `mret` and `esc`, a `kend` that need not wait (13 R287-R289, 05 R118). -/
def afterIssue (s : State) (c : CtxId) : State :=
  let x := getCtx s c
  match x.run.post with
  | some (.trapTo n) => takeTrap s c { code := trapCode, val := n, slot := some 0 }
  | some .mret => monitorReturn s c
  | some (.escalate r) => escalate s c none 0 r
  | none => if x.run.hold = some .kend ∧ kendReady s c x then endRun s c else s
/-- A system register that a `mov` writes governs later bundles whatever the draws of its own bundle (05 R110): the generator registers. -/
def movLast (v : Ctx) (pc : W32) (len : Nat) (ps : List Pick) (s : State) : State :=
  ps.foldl (fun s p => match p.syl with
    | .s (.movToSys o) =>
      if 8 ≤ o.n.toNat ∧ o.n.toNat < 16 ∧ (ps.any fun q => (q.slot == 3 || q.slot == 4) && vDraws (encodeSyl q.syl)) then
        (match semSyl p.syl (issOf v pc len p) s with
         | .ok t => t
         | .error _ => s)
      else s
    | _ => s) s
/-- The issuing context with what the issue of a form fixed for its rows: bases, threshold, the active form, the number of the issue. -/
def rowCtx (x : Ctx) (j : RowJob) : Ctx :=
  { x with
    r := { x.r with b := j.b }
    sys := { x.sys with pthresh := j.pthresh }
    ctl := { x.ctl with forms := x.ctl.forms.setIfInBounds (formIdx (j.slot - 3) (formOf j.syl)) j.form }
    run := { x.run with nseq := j.seq } }
/-- The mask that a `mov` of the bundle writes: side and number. -/
def movMask (v : Ctx) (ps : List Pick) : Option (Side × Nat) :=
  ps.findSome? fun p => match p.syl with
    | .s (.movToSys o) =>
      let n := o.n.toNat
      if !(guardOn v.r o.g) then none
      else if 0x40 ≤ n ∧ n < 0x50 then some (.a, n - 0x40) else if 0x50 ≤ n ∧ n < 0x60 then some (.b, n - 0x50) else none
    | _ => none
/-- The side of a vector slot. -/
def sideOfSlot (slot : Nat) : Side := if slot = 3 then .a else .b
/-- The rows of a masked form that issue after this cycle take the mask as it now stands (05 R119): each such row is done again over the register as
it stood before the form, unless the register has been written since. Loads and stores keep the mask of their issue (log entry 15). -/
def remask (wall : Nat) (m : Side × Nat) (s : State) (j : RowJob) : State :=
  let sd := sideOfSlot j.slot
  let w := encodeSyl j.syl
  if j.slot ≠ 3 ∧ j.slot ≠ 4 then s
  else if m.1 ≠ sd ∨ vMask w ≠ m.2 ∨ m.2 = 0 ∨ vIsMaskOp (vOp w) ∨ (0x60 ≤ vOp w ∧ vOp w < 0x68) then s
  else (List.range j.rows).foldl (fun s r =>
    let old := match sd with
      | .a => j.va
      | .b => j.vb
    let p := phys old (vFieldD w + r)
    if r < j.row ∨ j.due + (r - j.row) ≤ wall ∨ j.skip.contains (sd, p) then s
    else
      let v := setVFile { rowCtx s.cx j with va := j.va, vb := j.vb } sd
        { old with masks := (vfile s.cx sd).masks, ctr := old.ctr + .ofNat 128 (16 * (r * drawsPerRow w)) }
      match semSyl j.syl { v := v, delta := j.delta, bundle := j.bundle, next := s.cx.r.pc, slot := j.slot, row := r }
          { s with cx := rowSet s.cx sd p (rowGet v sd p) } with
      | .ok t => { t with cx := setVFile t.cx sd { vfile t.cx sd with ctr := (vfile s.cx sd).ctr } }
      | .error _ => s) s
/-- The rows of older forms under the mask that a bundle writes. -/
def remaskRows (s0 : State) (v : Ctx) (ps : List Pick) (s : State) : State :=
  match movMask v ps with
  | some m => s0.cx.run.rows.foldl (remask (getCl s0 (ctxCl s0.cid)).wall m) s
  | none => s
/-- The rows still to issue of older V forms, as an issue leaves them: the registers that it writes are no longer theirs. -/
def oldRows (v : Ctx) (ps : List Pick) (l : List RowJob) : List RowJob :=
  let new := (ps.filter fun p => guardOn v.r (guardOf p.syl)).flatMap fun p => (dests v p.syl).filterMap fun d => match d with
    | .v sd n => some (sd, n)
    | _ => none
  l.map fun j => if j.slot < 6 ∧ !new.isEmpty then { j with skip := j.skip ++ new } else j
/-- The commit of an issue: `s0` before it, `s` with the slots' effects. -/
def commit (s0 : State) (v : Ctx) (b : Bun) (mask : BitVec 8) (ps : List Pick) (hot : List (Nat × Nat × List Dst)) (s : State) : State :=
  let c := s0.cid
  let pc := s0.cx.r.pc
  let rpt := s0.cx.ctl.rptidx
  let cl := getCl s0 (ctxCl c)
  let s := remaskRows s0 v ps (movLast v pc b.len ps s)
  let x := s.cx
  let x := { x with
    ctl := { x.ctl with rptidx := if rpt.toNat < hdrRepeat b.hdr then rpt + 1 else 0 }
    prog := { x.prog with starve := 0 }
    run := { x.run with
      state := if x.run.state = .monitor then .monitor else if x.run.hold.isSome then .wait else if x.run.state = .parked then .parked else .run
      last := ownNow s0 c, sb := addPend x.run.sb (newPend v pc b.len hot ps) cl.wall
      rows := oldRows v ps x.run.rows ++ newRows s0 v pc b.len hot ps
      touch := x.run.touch ++ (ps.flatMap fun p => bankUse s0 (issOf v pc b.len p) p.syl), issuedNow := x.run.issuedNow ||| mask
      portUntil := none, itemUntil := 0, itemSlot := 0, waiting := false, ready := false, heldPc := pc, heldRpt := rpt } }
  let s := { s with cx := countBoundary x }
  afterIssue (dualRecords s0 s ps hot) c

/-! ### Trying an issue -/

/-- The outcome of trying the bundle due next; `kept` is one that could issue but that the merge stage keeps back (12 R249). -/
inductive Try
  | idle
  | kept
  | go (s : State)
  | trap (s : State)
  | hold (h : HoldOn) (slot : Nat) (g : BitVec 4) (s : State)

/-- A trap at the bundle due next, nothing of the issue done. -/
def trapTry (s : State) (t : Trap) : Try :=
  .trap (takeTrap (putRun s { s.cx.run with portUntil := none, itemUntil := 0, waiting := false, ready := false
                                            state := if s.cx.run.state = .wait then .run else s.cx.run.state }) s.cid t)
/-- Kernel code that fetches from the monitor's pages (15 R296). -/
def fetchAllowed (x : Ctx) (b : Bun) : Bool := x.mon.active || decide (x.r.pc.toNat + b.len ≤ 0x3C000)
/-- Whether a secondary's matrix syllable may issue beside the primary (12 R249). -/
def arrayFree (s0 s : State) : Bool :=
  let c := s0.cid
  isPrim s0 c ||
    (let p := getCtx s0 (otherSlot c)
     let wall := (getCl s0 (ctxCl c)).wall
     (!(s.cx.run.sb.any fun q => q.item == .array && decide (q.at_ == wall + 4)) || p.run.state == .empty))
/-- Whether the array is taken by the other context, for a slot that needs it. -/
def arrayTaken (s : State) (ps : List Pick) : Bool :=
  !(isPrim s s.cid) && decide ((getCl s (ctxCl s.cid)).wall < readyAt (getCtx s (otherSlot s.cid)).run.sb (· == .array)) &&
    ps.any fun p => (match p.syl with
      | .m o => [2, 3, 4, 9].contains (encodeM o / 2 ^ 56)
      | _ => false)
/-- The hold of an issue: the first condition in the order of 12 R256, the demand pulls, the times until which it lasts; strict code traps on an
undersized stall count (12 R253). -/
def holdTry (s0 s : State) (v : Ctx) (b : Bun) (ps : List Pick) (ahead : List (Nat × Nat)) (extra : List (Nat × HoldOn × Nat)) : Try :=
  let pc := s0.cx.r.pc
  let hs := extra ++ holdsOf v pc b.len ps ahead s
  let wall := (getCl s0 (ctxCl s0.cid)).wall
  let late := hs.filter fun h => h.2.1 == .item
  match late with
  | h :: t =>
    if strictNow s0 s0.cid then trapTry s0 { code := undersized, slot := some (t.foldl (fun m q => min m q.1) h.1) } else rest hs wall pc
  | [] => rest hs wall pc
where
  /-- The state in which the issue is held. -/
  rest (hs : List (Nat × HoldOn × Nat)) (wall : Nat) (pc : W32) : Try :=
    let key := fun (h : Nat × HoldOn × Nat) => 16 * causeNum (causeOf h.2.1) + h.1
    match hs with
    | [] => .idle
    | h0 :: t =>
      let h := t.foldl (fun m q => if key q < key m then q else m) h0
      let s1 := ps.foldl (fun st p => demandUnits st s0.cid p.slot (absentUnits (issOf v pc b.len p) p.syl 801 s)) s0
      let until_ := hs.foldl (fun m q => max m q.2.2) 0
      let port := hs.foldl (fun m q => match q.2.1 with
        | .port n => max m n
        | _ => m) 0
      let x := s1.cx.run
      .hold h.2.1 h.1 (pickGuard ps h.1) (putRun s1 { x with
        itemUntil := max x.itemUntil until_, itemSlot := h.1, portUntil := if port = 0 then x.portUntil else some (wall + port), waiting := waitsOn h.2.1
        state := if waitsOn h.2.1 ∧ x.state = .run then .wait else x.state })
/-- A context issues: its slot runs, nothing holds it (12 R247). -/
def mayIssue (x : Ctx) : Bool :=
  (x.run.state == .run || x.run.state == .wait || x.run.state == .monitor) && !x.prog.builtin && x.run.hold.isNone && x.run.parkedOn.isNone
/-- Cycles from the last issue to the one due next (R32, R36, 05 R111, R117). -/
def dueAfter (x : Ctx) (b : Option Bun) : Nat :=
  if x.ctl.rptidx = 0 then (match b with
    | some b => hdrStall b.hdr
    | none => 0) + x.run.gap + 1 else 1
/-- A `kend` whose guard is true is among the syllables. -/
def endsKernel (v : Ctx) (ps : List Pick) : Bool := ps.any fun p => match p.syl with
  | .l (.kend o) => guardOn v.r o.g
  | _ => false
/-- What holds the issue from an earlier try: an order of writes, a port. -/
def heldUntil (x : Ctx) (wall : Nat) : List (Nat × HoldOn × Nat) :=
  (if wall < x.run.itemUntil then [(x.run.itemSlot, HoldOn.item, x.run.itemUntil)] else []) ++
    (match x.run.portUntil with
     | some t => if wall < t then [(x.run.itemSlot, HoldOn.port (t - wall), 0)] else []
     | none => [])
/-- What a row of a form still to issue sees: of a V form the files as they stood before its issue, with the masks of now; of a copy form the bases
and registers of its issue (R119, 10 R209). -/
def rowIss (x : Ctx) (j : RowJob) : Iss :=
  let v := rowCtx x j
  { v := if j.slot < 6 then { v with va := { j.va with masks := x.va.masks }, vb := { j.vb with masks := x.vb.masks } } else v
    delta := j.delta, bundle := j.bundle, next := x.r.pc, slot := j.slot, row := j.row, args := j.args, time := if j.clustered then some j.due else none }
/-- The clock that times a row. -/
def rowNow (s : State) (c : CtxId) (j : RowJob) : Nat := if j.clustered then (getCl s (ctxCl c)).ctime + j.early else (getCl s (ctxCl c)).wall
/-- Whether a row is due. -/
def rowDue (s : State) (c : CtxId) (j : RowJob) : Bool := decide (j.due ≤ rowNow s c j)
/-- Banks of the rows of older forms that are due in this cycle. -/
def rowBanks (s : State) : List (Nat × Nat) :=
  (s.cx.run.rows.filter (rowDue s s.cid)).flatMap fun j => (banksOf (accesses s (rowIss s.cx j) j.syl)).map (portRank j.slot j.syl, ·)
/-- Banks taken in this cycle before a bundle's slots (R42): by landings, by the deliveries and rows of its own context, and, for a secondary, by
the primary. -/
def banksAhead (s : State) (v : Ctx) (pc : W32) (len : Nat) (ps : List Pick) : List (Nat × Nat) :=
  s.cx.run.touch ++ rowBanks s ++ ((ps.filter fun p => portRank p.slot p.syl == 0).flatMap fun p => bankUse s (issOf v pc len p) p.syl) ++
    (if isPrim s s.cid then [] else (getCtx s (otherSlot s.cid)).run.touch.map fun a => (0, a.2))
/-- The slots that resolved to a syllable. -/
def okPicks (res : List (Nat × Except Byte Pick)) : List Pick :=
  res.filterMap fun p => match p.2 with
    | .ok q => some q
    | .error _ => none
/-- Tries an issue of the issuing context with what its slots resolved to: `free` are the slots open to it, `tm` says whether the header's
template can be used. -/
def tryPicks (s : State) (b : Bun) (tm : Bool) (res : List (Nat × Except Byte Pick)) (free : BitVec 8) : Try :=
  let x := s.cx
  let ps := okPicks res
  let v := prepare x b ps
  let mask := usedMask b res
  if mask &&& ~~~free ≠ 0 then .idle
  else match headerCheck b tm with
    | .error t => trapTry s t
    | .ok () =>
      match slots8.forM (slotCheck v b ((List.range 16).map (cycleReads s (doSwaps x ps) ps)) res) with
      | .error t => trapTry s t
      | .ok () =>
        match dualCheck s v ps with
        | .error t => trapTry s t
        | .ok hot =>
          match if endsKernel v ps then stopDue s s.cid true else none with
          | some t => .trap (landStop s s.cid t)
          | none =>
            if arrayTaken s ps then .idle
            else
              let s1 := { s with cx := v }
              let ahead := banksAhead s v x.r.pc b.len ps
              let extra := heldUntil x (getCl s (ctxCl s.cid)).wall
              if !extra.isEmpty then holdTry s s1 v b ps ahead extra
              else match runParts v x.r.pc b.len hot ps ahead s1 with
                | .error (k, .trap t, _) => trapTry s { t with slot := some (t.slot.getD k) }
                | .error (_, .hold _, _) => holdTry s s1 v b ps ahead []
                | .ok s2 => if arrayFree s s2 then .go (commit s v b mask ps hot s2) else .kept
/-- What the slots of a fetched bundle resolve to. -/
def resolve (c : Ctl) (b : Bun) : List (Nat × Except Byte Pick) :=
  slots8.filterMap fun k => (pick c b ((templateWords c (hdrTemplate b.hdr)).getD []) k).map fun r => (k, r)
/-- Tries an issue of a fetched bundle. -/
def tryBundle (s : State) (b : Bun) (free : BitVec 8) : Try :=
  if fetchAllowed s.cx b then tryPicks s b (templateWords s.cx.ctl (hdrTemplate b.hdr)).isSome (resolve s.cx.ctl b) free
  else trapTry s { code := permission, val := .ofNat 64 (max s.cx.r.pc.toNat 0x3C000), slot := some 7 }
/-- Whether the bundle of the issuing context is due in this cycle, in its own time. -/
def isDue (s : State) (b : Option Bun) : Bool := decide (s.cx.run.last + dueAfter s.cx b ≤ ownNow s s.cid)
/-- A trap that waits for the next issue (10 R219, 12 R258). -/
def waitingTrap (x : Ctx) : Option Trap :=
  if x.mon.active then none
  else match x.run.brakeTrap with
    | some n => some { code := brakeTimeoutCode, val := .ofNat 64 n, slot := some 7 }
    | none => x.run.timing.map fun e => { code := timingFault, val := .ofNat 64 e, slot := some 7 }
/-- What comes before the next issue: a stop that lands, a trap that waits for it. -/
def beforeIssue (s : State) (k : Try) : Try :=
  match stopDue s s.cid false with
  | some t => .trap (landStop s s.cid t)
  | none => match waitingTrap s.cx with
    | some t => trapTry (putRun s { s.cx.run with brakeTrap := none, timing := none }) t
    | none => k
/-- Tries the issue that is due next of the issuing context. -/
def tryIssue (s : State) (free : BitVec 8) : Try :=
  let x := s.cx
  if !(mayIssue x) then .idle
  else match fetchBundle s s.cid x with
    | .error a => if isDue s none then beforeIssue s (trapTry { s with cx := { x with ctl := { x.ctl with rptidx := 0 } } }
        { code := fetchFault, val := .ofNat 64 a, slot := some 7 }) else .idle
    | .ok b => if isDue s (some b) then beforeIssue s (tryBundle s b free) else .idle

/-! ### A bundle of one syllable -/

/-- The bundle that holds one syllable: every other slot quiet, no stall, no repeat, no template, the port lent that the syllable reads. -/
def loneBun (x : Ctx) (y : Syl) : Bun :=
  let k := y.slot.num
  let lend := match lentRead x y with
    | some (.a, _) => 4
    | some (.b, _) => 1
    | none => 0
  { hdr := 2 ^ (31 - k) + (255 - 2 ^ (7 - k)) * 2 ^ 16 + lend, words := [(k, encodeSyl y)], len := 4 + y.slot.bits / 8 }
/-- What its slot resolves to. -/
def lonePick (y : Syl) : Nat × Except Byte Pick :=
  (y.slot.num, if wfSyl y then .ok { slot := y.slot.num, syl := y, record := if y.slot.num = 1 then none else some { word := .ofNat 64 (encodeSyl y), disp := 0 } }
    else .error illegalOpcode)
/-- Tries the issue of a bundle of one syllable by the issuing context. -/
def tryLone (s : State) (y : Syl) (free : BitVec 8) : Try :=
  if !(mayIssue s.cx) then .idle else beforeIssue s (tryPicks s (loneBun s.cx y) true [lonePick y] free)

end Sys2Proof.Machine
end

