-- ==== Sys2Proof/Machine/Rows.lean ====
section
/-! DEFINITION. The later rows of multi-row forms (05 R119, 10 R209), the landings of the exchange network and of the multicast windows
(10 R218, R219, 09 R188), and results that land (05 R95). -/

namespace Sys2Proof.Machine

/-! ### Rows -/

/-- The rows that a slot still has to issue. -/
def findRow (x : Ctx) (slot : Nat) : Option RowJob := x.run.rows.find? fun j => j.slot == slot
/-- Moves a job on to its next row, or ends it: a row timed in cluster time issues one cycle of it after the row before (R209). -/
def nextRow (j : RowJob) (now : Nat) (l : List RowJob) : List RowJob :=
  l.filterMap fun k =>
    if k.slot = j.slot then (if j.row + 1 < j.rows then some { k with row := j.row + 1, due := if j.clustered then j.due + 1 else now + 1 } else none)
    else some k
/-- Marks a slot used and its scratchpad banks accessed in this cycle; a row that finds accesses queued ahead of it brakes its cluster for one cycle
each from the next cycle on (R42). -/
def useSlot (x : Ctx) (wall slot : Nat) (bundle : W32) (banks : List (Nat × Nat)) : Ctx :=
  let n := banks.foldl (fun m b => max m (queued x.run.touch b.1 [b.2])) 0
  { x with run := { x.run with
    issuedNow := x.run.issuedNow ||| BitVec.twoPow 8 (7 - slot), touch := x.run.touch ++ banks
    rowPort := if n = 0 then x.run.rowPort else some (slot, bundle, wall + n) } }
/-- Banks of the row of a job. -/
def jobBanks (s : State) (j : RowJob) : List (Nat × Nat) := bankUse s (rowIss s.cx j) j.syl
/-- The effect of the row of the issuing context's slot that is due: a row of a V form had its effect at the issue, and now takes its read ports and
banks; a row of a copy form makes its transfer. -/
def rowEffect (s : State) (j : RowJob) : Res := if j.slot < 6 then .ok s else semSyl j.syl (rowIss s.cx j) s
/-- Runs the row of a slot of the issuing context: a later row of a copy form that meets a reported failure traps before the next bundle (10 R212), and
a held row waits. -/
def runRow (s : State) (slot : Nat) : State :=
  match findRow s.cx slot with
  | none => s
  | some j =>
    let now := rowNow s s.cid j
    if !(rowDue s s.cid j) then s
    else match rowEffect s j with
      | .error (.hold _) => s
      | .error (.trap t) => if s.cx.mon.active then s else takeTrap s s.cid { t with slot := some slot }
      | .ok s' =>
        let x := useSlot s'.cx (getCl s (ctxCl s.cid)).wall slot j.bundle (jobBanks s j)
        { s' with cx := { x with run := { x.run with rows := nextRow j now x.run.rows } } }
/-- What holds a row that is due. -/
def rowHold (s : State) (c : CtxId) (j : RowJob) : Option HoldOn :=
  if rowDue s c j then
    match rowEffect (focus s c) j with
    | .error (.hold h) => some h
    | _ => none
  else none
/-- Whether the bundle due next is due on a slot of C0 or C1 that has rows to issue. -/
def duesOnRows (s : State) (c : CtxId) : Bool :=
  let x := getCtx s c
  match fetchBundle s c x with
  | .ok b => isDue (focus s c) (some b) && (resolve x.ctl b).any fun p => decide (6 ≤ p.1) && (findRow x p.1).isSome
  | .error _ => false
/-- A context that itself waits for its rows: a `kend`, or a bundle due on a slot of C0 or C1 that has rows to issue. Its rows run on under the
brake, which would never end otherwise, each at the cluster time that R209 gives it (log entry 30); so do those of a context that is being saved. -/
def waitsRows (s : State) (c : CtxId) : Bool := (getCtx s c).run.hold == some .kend || duesOnRows s c
/-- Whether a row may issue under the brake. -/
def rowFree (s : State) (c : CtxId) (j : RowJob) : Bool :=
  !j.clustered || (getCl s (ctxCl c)).brake.isNone || waitsRows s c || (getCtx s c).run.state == .saving
/-- FORM_ROW_ISSUE (R119, 10 R209). -/
def formRow (s : State) (c : CtxId) (slot : BitVec 3) : State :=
  match findRow (getCtx s c) slot.toNat with
  | some j => if rowFree s c j then runRow (focus s c) slot.toNat else s
  | none => s

/-- RESULT_LAND (05 R95, 12 R251): results whose time has come leave the scoreboard. -/
def landResults (s : State) (c : CtxId) : State :=
  modCtx s c fun x => { x with run := { x.run with sb := x.run.sb.filter fun p => decide ((getCl s (ctxCl c)).wall < p.at_) } }

/-! ### Landings -/

/-- Whether a row in the network or a window lands in this cycle. -/
def netDue (k : Cluster) (r : NetRow) : Bool := decide (r.due ≤ k.ctime)
/-- Whether the exchange network moves: not under a brake, but for receive waits (R220). -/
def netMoves (k : Cluster) : Bool := match k.brake with
  | none => true
  | some b => b.rwOnly
/-- Rows of the exchange network that are due arrive (R218). -/
def landSends (s : State) (cl : Nat) : State :=
  let k := getCl s cl
  let due := k.net.filter (netDue k)
  if due.isEmpty || !(netMoves k) then s
  else due.foldl (fun s r => landSend s cl r) (modCl s cl fun k => { k with net := k.net.filter fun r => !(netDue k r) })
/-- The targets of a multicast row. -/
def mcastTargets (r : NetRow) : List Nat := (List.range 8).filter fun k => bitAt r.target k
/-- Units of a target that a multicast row waits for (09 R188, 16 R323). -/
def mcastAbsent (s : State) (cl : Nat) (r : NetRow) : List (CtxId × Nat) :=
  (mcastTargets r).filterMap fun k =>
    match residentOn s (8 * cl + k) r.region with
    | none => none
    | some c => ((scrUnits r.off r.data.length).find? fun u => (getCtx s c).prog.absent.contains u).map fun u => (c, u)
/-- Where the landings of a core count against its scratchpad banks: its primary's slot, whose accesses the secondary's follow, or the target's own. -/
def bankOwner (s : State) (c : CtxId) : CtxId :=
  let p := primOf s c.core.toNat
  if (getCtx s p).run.state = .empty then c else p
/-- A multicast row lands in all its targets at once, before any access of the cycle to the same banks (03 R42); a target without a context of the region, or outside its footprint, receives nothing. -/
def landMcast (s : State) (cl : Nat) (r : NetRow) : State :=
  let ok := (mcastTargets r).map fun k =>
    (residentOn s (8 * cl + k) r.region).filter fun c => (scrUnits r.off r.data.length).all fun u => (getCtx s c).prog.footprint.contains u
  let s := ok.foldl (fun s o => match o with
    | some c =>
      modCtx (modCtx s c fun x => stamp { x with prog := { x.prog with scratch := cellBlit x.prog.scratch r.off r.data } } (getCl s cl).ctime
        (scrUnits r.off r.data.length)) (bankOwner s c) fun x => { x with run := { x.run with
          touch := x.run.touch ++ (banksOf [(ownVa r.off, r.data.length)]).map (0, ·) } }
    | none => s) s
  let s := match findXfer (getCtx s r.src) r.ch r.tid with
    | some t => watchChannel s r.src r.ch t true
    | none => s
  completeXfer s r.src r.ch r.tid (if ok.all (·.isSome) then 0 else permission) []
/-- Number by which rows of one cycle are served: issuing core, channel, slot of the sender. -/
def netOrder (r : NetRow) : Nat := 4 * r.src.core.toNat + (if r.ch = .b then 2 else 0) + (if r.src.sec then 1 else 0)
/-- Multicast rows that are due land (09 R188). -/
def landMcasts (s : State) (cl : Nat) : State :=
  let k := getCl s cl
  if k.brake.isSome || (k.win.filter (netDue k)).isEmpty then s
  else
    let due := sortBy (fun a b => decide (netOrder a ≤ netOrder b)) (k.win.filter (netDue k))
    if due.any fun r => !(mcastAbsent s cl r).isEmpty then s
    else due.foldl (fun s r => landMcast s cl r) (modCl s cl fun k => { k with win := k.win.filter fun r => !(netDue k r) })
/-- Arrivals of this cycle that nothing took are held; while its primary runs kernel code and no receive wait brakes, its next issue traps
(R219). -/
def keepArrivals (s : State) (cl : Nat) : State :=
  (getCl s cl).fresh.foldl (fun s p =>
    let c := primOf s (8 * cl + p.1 / 16)
    let x := getCtx s c
    let s := modCl s cl fun k => { k with recv := tabSet k.recv p.1 p.2 }
    let rw := (getCl s cl).brake.any fun b => b.cause == .receiveWait || b.rwOnly
    if [SlotState.run, .wait, .parked].contains x.run.state && !rw then modCtx s c fun x => { x with run := { x.run with timing := some (p.1 % 16) } } else s)
    (modCl s cl fun k => { k with fresh := [] })

end Sys2Proof.Machine
end

