-- ==== Sys2Proof/Machine/Barrier.lean ====
section
/-! DEFINITION. Barriers (10 R230-R233): arrivals, roots, flips and the leaves that they end. -/

namespace Sys2Proof.Machine

/-- Number of a core among the leaves of a barrier of its level. -/
def leafNum (id : BarId) (c : CtxId) : Nat := if id.level = 1 then c.core.toNat % 8 else if id.level = 2 then c.core.toNat % 32 else c.core.toNat
/-- The place of the root of a context's barrier. -/
def barPlace (id : BarId) (c : CtxId) : Nat := if id.level = 1 then ctxCl c else if id.level = 2 then ctxDie c else 0
/-- A barrier root: in its cluster, in its die, or, for the package, beside the ninth die. -/
def getRoot (s : State) (id : BarId) (place : Nat) : BarRoot :=
  tabGet {} (if id.level = 1 then (getCl s place).bars else if id.level = 2 then (getDie s place).bars else (getDie s 8).bars) id.index.toNat
/-- Replaces a root. -/
def setRoot (s : State) (id : BarId) (place : Nat) (r : BarRoot) : State :=
  if id.level = 1 then modCl s place fun k => { k with bars := tabSet k.bars id.index.toNat r }
  else if id.level = 2 then modDie s place fun d => { d with bars := tabSet d.bars id.index.toNat r }
  else modDie s 8 fun d => { d with bars := tabSet d.bars id.index.toNat r }
/-- Leaves that a descriptor names. -/
def namedLeaves (id : BarId) (d : BitVec 48) : List Nat :=
  let cores := (List.range 8).filter fun k => bitAt d.toNat k
  if id.level = 1 then cores
  else ((List.range 32).filter fun k => bitAt (d.toNat / 2 ^ 16) k).flatMap fun k => cores.map (8 * k + ·)
/-- Whether the transfers issued before an arrival are complete, rows still to issue among them (R231). -/
def arrivalReady (x : Ctx) (l : Leaf) : Bool :=
  [Side.a, Side.b].all (fun ch => (chanOf x ch).xfers.all fun t => decide (l.seq ≤ t.seq)) && x.run.rows.all fun j => decide (j.slot < 6 ∨ l.seq ≤ j.seq)
/-- BARRIER_ARRIVAL_SEND (R231). -/
def sendArrivalOf (s : State) (c : CtxId) (id : BarId) : State :=
  match leafOf (getCtx s c) id with
  | none => s
  | some l =>
    if l.sent || l.flipped || !(arrivalReady (getCtx s c) l) then s
    else
      let r := getRoot s id (barPlace id c)
      let t := if id.level = 1 then (getCl s (ctxCl c)).ctime + 2 else 0
      modCtx (setRoot s id (barPlace id c) { r with inFlight := r.inFlight ++ [(leafNum id c, t, l.desc)] }) c fun x => setLeaf x { l with sent := true }
/-- Resident contexts whose arrival of a phase has been sent and has not flipped, among some leaves. -/
def waitingLeaves (s : State) (id : BarId) (place : Nat) (nums : List Nat) : List CtxId :=
  ((List.range 512).map ctxOfNum).filter fun c =>
    barPlace id c == place && nums.contains (leafNum id c) && ((leafOf (getCtx s c) id).any fun l => l.sent && !l.flipped)
/-- The transfers of an arrival that has not flipped, by its descriptor. -/
def arrivalXfers (x : Ctx) (d : BitVec 48) : List (Side × W32) :=
  [Side.a, Side.b].flatMap fun ch => ((chanOf x ch).xfers.filter fun t => t.phase == .atBarrier && (xarg t 0).setWidth 48 == d).map fun t => (ch, t.tid)
/-- Completes the transfers of an arrival. -/
def finishArrival (s : State) (c : CtxId) (d : BitVec 48) : State :=
  (arrivalXfers (getCtx s c) d).foldl (fun s t => completeXfer s c t.1 t.2 0 []) s
/-- A leaf without its latest arrival: the one before it stands again. -/
def dropLeaf (x : Ctx) (l : Leaf) : Ctx :=
  match l.prev with
  | some p => setLeaf x { l with desc := p.1, phase := p.2, sent := true, flipped := true, prev := none }
  | none => { x with prog := { x.prog with leaves := x.prog.leaves.filter fun m => m.id != l.id } }
/-- An arrival that does not count: its transfer completes with PERMISSION and its leaf is as if it had not arrived (R230). -/
def refuseArrival (s : State) (id : BarId) (place num : Nat) (d : BitVec 48) : State :=
  (waitingLeaves s id place [num]).foldl (fun s c =>
    match leafOf (getCtx s c) id with
    | some l =>
      if l.desc = d then modCtx ((arrivalXfers (getCtx s c) d).foldl (fun s t => finishAt s c t.1 t.2 permission []) s) c fun x => dropLeaf x l else s
    | none => s) s
/-- Whether a saved context holds an arrival of some leaves that was sent and has not flipped (16 R320). -/
def savedWaits (id : BarId) (place : Nat) (nums : List Nat) (v : Saved) : Bool :=
  barPlace id ⟨v.core, false⟩ == place && nums.contains (leafNum id ⟨v.core, false⟩) && v.leaves.any fun l => l.id == id && l.sent && !l.flipped
/-- The participants' horizons become their maximum, those of participants that have been saved too (R233). -/
def mergeHorizons (s : State) (cs : List CtxId) (away : Saved → Bool) : State :=
  let saved := s.regions.flatMap fun r => r.saved.filter away
  let h := saved.foldl (fun h v => clockMax h v.horizon) (cs.foldl (fun h c => clockMax h (getCtx s c).prog.horizon) (match cs, saved with
    | c :: _, _ => (getCtx s c).prog.horizon
    | [], v :: _ => v.horizon
    | [], [] => .replicate 9 0))
  let s := { s with regions := s.regions.map fun r => { r with saved := r.saved.map fun v => if away v then { v with horizon := h } else v } }
  cs.foldl (fun s c => modHorizon s c fun _ => h) s
/-- The flip once the last named arrival is at the root. -/
def maybeFlip (s : State) (id : BarId) (place : Nat) : State :=
  let r := getRoot s id place
  if r.arrived.isEmpty ∨ !((namedLeaves id r.desc).all r.arrived.contains) then s
  else
    let s := mergeHorizons s (waitingLeaves s id place r.arrived) (savedWaits id place r.arrived)
    let next := { r with arrived := [], desc := 0, phase := !r.phase }
    if id.level = 1 then setRoot s id place { next with flips := r.flips ++ [((getCl s place).ctime + 2, r.arrived)] }
    else
      let base := if id.level = 2 then 4 * place else 0
      setRoot s id place { next with
        pend := r.pend ++ ((List.range 32).filter fun k => bitAt (r.desc.toNat / 2 ^ 16) k).map fun k => (base + k, r.arrived) }
/-- Whether an arrival on its way reaches the root now: after 2 cycles of cluster time, or once its whole cluster has arrived (R231). -/
def reachesRoot (s : State) (id : BarId) (place : Nat) (r : BarRoot) (a : Nat × Nat × BitVec 48) : Bool :=
  if id.level = 1 then (getCl s place).brake.isNone && decide (a.2.1 ≤ (getCl s place).ctime)
  else ((List.range 8).filter fun k => bitAt a.2.2.toNat k).all fun k => r.inFlight.any fun b => b.1 == a.1 / 8 * 8 + k
/-- BARRIER_ROOT_ARRIVAL (R231). -/
def rootArrival (s : State) (bar : BarRef) : State :=
  let id := bar.id
  let place := if id.level = 3 then 0 else bar.place.toNat
  let r0 := getRoot s id place
  let go := r0.inFlight.filter (reachesRoot s id place r0)
  let s := setRoot s id place { r0 with inFlight := r0.inFlight.filter fun a => !(reachesRoot s id place r0 a) }
  maybeFlip (go.foldl (fun s a =>
    let r := getRoot s id place
    if r.arrived.isEmpty then setRoot s id place { r with arrived := [a.1], desc := a.2.2 }
    else if r.desc = a.2.2 then setRoot s id place { r with arrived := r.arrived ++ [a.1] }
    else refuseArrival s id place a.1 a.2.2) s) id place
/-- The flip at a leaf: the arrival's transfer completes, a park ends, the next bundle counts from this cycle, and the cycles of the park count as
scheduled ones (R231, R232, 12 R260, 06 R143). -/
def flipLeaf (s : State) (id : BarId) (c : CtxId) : State :=
  match leafOf (getCtx s c) id with
  | none => s
  | some l =>
    let s := modCtx (finishArrival s c l.desc) c fun x => setLeaf x { l with flipped := true, prev := none }
    if (getCtx s c).run.parkedOn = some id then
      modCtx s c fun x =>
        let x := clearMate x id
        { x with
          prog := { x.prog with spin := 0 }
          run := { x.run with parkedOn := none, waiting := false, gap := 0, last := ownNow s c, sched := x.run.sched + (ownNow s c - x.run.last)
                              state := if x.mon.active then .monitor else if x.run.state = .parked then .run else x.run.state } }
    else s
/-- A flip at some leaves. -/
def flipLeaves (s : State) (id : BarId) (cs : List CtxId) : State := cs.foldl (fun s c => flipLeaf s id c) s
/-- The leaves of a cluster that a flip of a die or package barrier ends. -/
def leavesIn (s : State) (id : BarId) (cl : Nat) (nums : List Nat) : List CtxId :=
  (waitingLeaves s id (barPlace id ⟨.ofNat 8 (8 * cl), false⟩) nums).filter fun c => ctxCl c == cl
/-- BARRIER_FLIP_REACH (R231, R232): the flip of a cluster barrier reaches its leaves in its cycle of cluster time; one of a die or package barrier
enters a cluster at its boundary, where it waits in arrival order while the brake is applied (01 R24). -/
def flipReach (s : State) (bar : BarRef) (cl : Nat) : State :=
  let id := bar.id
  let place := if id.level = 3 then 0 else bar.place.toNat
  let r := getRoot s id place
  if id.level = 1 then
    let due := r.flips.filter fun f => decide (f.1 ≤ (getCl s cl).ctime)
    if cl ≠ place ∨ (getCl s cl).brake.isSome ∨ due.isEmpty then s
    else flipLeaves (setRoot s id place { r with flips := r.flips.filter fun f => !(decide (f.1 ≤ (getCl s cl).ctime)) }) id
      (waitingLeaves s id place (due.flatMap (·.2)))
  else
    match r.pend.find? fun p => p.1 == cl with
    | none => s
    | some p =>
      let s := setRoot s id place { r with pend := r.pend.erase p }
      if (getCl s cl).brake.isSome then modCl s cl fun k => { k with boundary := k.boundary ++ [.flip id p.2] }
      else flipLeaves s id (leavesIn s id cl p.2)

end Sys2Proof.Machine
end

