-- ==== Sys2Proof/Machine/Brake.lean ====
section
/-! DEFINITION. The brake (01 R22-R25, 12 R254-R258): the conditions of a cluster, application and release with its record, arrivals held at the
boundary; and the issue of a context's next bundle under it. -/

namespace Sys2Proof.Machine

/-! ### Conditions -/

/-- A condition that stalls a primary (12 R256): context, cause, slot, guard of the stalled syllable, bundle, repetition, transfers awaited; `own`
says that the context waits for rows of its own, which run on (log entry 30). -/
structure Cond where
  ctx : CtxId
  cause : Cause
  slot : Nat
  g : BitVec 4 := 0
  bundle : W32
  rpt : BitVec 4
  awaited : List (CtxId × Side × W32) := []
  own : Bool := false
  deriving DecidableEq, Repr

/-- Transfers of a channel by identifier. -/
def xfersWhere (x : Ctx) (c : CtxId) (ch : Side) (p : Xfer → Bool) : List (CtxId × Side × W32) :=
  ((chanOf x ch).xfers.filter p).map fun t => (c, ch, t.tid)
/-- Transfers that write one of some registers of a file. -/
def writersOf (x : Ctx) (c : CtxId) (ch : Side) (regs : List Nat) : List (CtxId × Side × W32) :=
  xfersWhere x c ch fun t => (cView t.op).outs.any regs.contains
/-- Transfers on which a syllable waits: those of the pending registers it names, those of its full channel, those that an SC operation must follow (10
R205, R208, 09 R187). -/
def awaitedBy (x : Ctx) (c : CtxId) (y : Syl) : List (CtxId × Side × W32) :=
  match y with
  | .s (.cpyFromS o) => if o.file = 2 then writersOf x c .a [o.reg.toNat] else if o.file = 3 then writersOf x c .b [o.reg.toNat] else []
  | .s (.cpyToS o) => if o.file = 2 then writersOf x c .a [o.reg.toNat] else if o.file = 3 then writersOf x c .b [o.reg.toNat] else []
  | .c sd o =>
    writersOf x c sd ((cView o).regs ++ (cView o).outs) ++
      (if (chanOf x sd).xfers.length + (chanOf x sd).fails.length < 64 && !(isSc o) then [] else xfersWhere x c sd fun _ => true)
  | _ => []
/-- Transfers on which the bundle due next waits in a slot. -/
def awaitedAt (s : State) (c : CtxId) (slot : Nat) : List (CtxId × Side × W32) :=
  let x := getCtx s c
  match fetchBundle s c x with
  | .error _ => []
  | .ok b => match resolved (resolve x.ctl b) slot with
    | some (.ok p) => awaitedBy x c p.syl
    | _ => []
/-- Whether a slot's context can stall the cluster (R21): a primary's kernel code that runs, or that is parked with rows of its own to issue. -/
def canStall (s : State) (c : CtxId) : Bool := primKernel s c && [SlotState.run, .wait, .parked].contains (getCtx s c).run.state
/-- Whether a syllable can keep its context waiting after its issue. -/
def holdsOn : Syl → Bool
  | .s (.wdone _) => true
  | .l (.kend _) => true
  | .c _ (.barWait _) => true
  | _ => false
/-- The guard of the syllable that keeps a context waiting, from the bundle that it last issued. -/
def heldGuard (s : State) (c : CtxId) : BitVec 4 :=
  let x := getCtx s c
  match fetchBundle s c { x with r := { x.r with pc := x.run.heldPc } } with
  | .error _ => 0
  | .ok b => ((resolve { x.ctl with rptidx := x.run.heldRpt } b).findSome? fun p => match p.2 with
      | .ok q => if holdsOn q.syl then some (guardOf q.syl) else none
      | .error _ => none).getD 0
/-- The wait of a `wdone` or `kend` that holds a context, from the cycle after its issue on (R22, 05 R109, R118). -/
def holdCond (s : State) (c : CtxId) : Option Cond :=
  let x := getCtx s c
  let cond := fun (slot : Nat) (l : List (CtxId × Side × W32)) =>
    if x.run.last < ownNow s c then
      some { ctx := c, cause := .lateReply, slot := slot, g := heldGuard s c, bundle := x.run.heldPc, rpt := x.run.heldRpt, awaited := l
             own := slot == 1 && !x.run.rows.isEmpty : Cond } else none
  match x.run.hold with
  | some (.wdone ch t) => if tidComplete (chanOf x ch) t then none else cond 0 (xfersWhere x c ch fun u => decide ((t - u.tid).toNat < 2 ^ 31))
  | some .kend => if kendReady s c x then none else cond 1 (xfersWhere x c .a (fun _ => true) ++ xfersWhere x c .b fun _ => true)
  | _ => none
/-- The condition of a held try. -/
def tryCond (s : State) (c : CtxId) (t : Try) : Option Cond :=
  match t with
  | .hold h slot g _ => some { ctx := c, cause := causeOf h, slot := slot, g := g, bundle := (getCtx s c).r.pc, rpt := (getCtx s c).ctl.rptidx
                               awaited := if h = .late ∨ h = .wheel then awaitedAt s c slot else [], own := h == .item && duesOnRows s c }
  | _ => none
/-- Conditions of the rows of a context: a row that is due and held, and a row of a V form that found its scratchpad banks taken (03 R42). -/
def rowConds (s : State) (c : CtxId) : List Cond :=
  (match (getCtx s c).run.rowPort with
   | some p => if (getCl s (ctxCl c)).wall ≤ p.2.2 then [{ ctx := c, cause := .portWait, slot := p.1, bundle := p.2.1, rpt := 0 : Cond }] else []
   | none => []) ++
  ((getCtx s c).run.rows.filter (·.clustered)).filterMap fun j => (rowHold s c j).map fun h =>
    { ctx := c, cause := causeOf h, slot := j.slot, bundle := j.bundle, rpt := 0, awaited := if h = .late then awaitedBy (getCtx s c) c j.syl else [] : Cond }
/-- Conditions of the transfers of a context whose next access or packet is held in a way that brakes (09 R177, R178, R181). -/
def xferConds (s : State) (c : CtxId) : List Cond :=
  [Side.a, Side.b].flatMap fun ch => ((chanOf (getCtx s c) ch).xfers.filter (lateXfer s c ch)).map fun t =>
    { ctx := c, cause := .lateReply, slot := if ch = .a then 6 else 7, g := (cView t.op).g, bundle := t.bundle, rpt := t.rpt, awaited := [(c, ch, t.tid)] : Cond }
/-- Conditions of a primary whose bundle due next is tried by `tr`. -/
def ctxConds (s : State) (c : CtxId) (tr : State → Try) : List Cond :=
  if canStall s c then
    (match holdCond s c with
     | some k => [k]
     | none => (tryCond s c (tr (focus s c))).toList) ++ rowConds s c ++ xferConds s c
  else []
/-- Conditions of multicast rows due to land on absent units (09 R188). -/
def landConds (s : State) (cl : Nat) : List Cond :=
  ((getCl s cl).win.filter (netDue (getCl s cl))).flatMap fun r => (mcastAbsent s cl r).map fun p =>
    { ctx := p.1, cause := .absent, slot := 8, bundle := (getCtx s p.1).r.pc, rpt := (getCtx s p.1).ctl.rptidx : Cond }
/-- The cycle's landings done, as in the first cycle without a brake: what a receive or a read meets then (10 R219, 09 R188). -/
def foreland (s : State) (cl : Nat) : State :=
  match (getCl s cl).brake with
  | none => landMcasts (landSends s cl) cl
  | some b => modCl (landMcasts (landSends (modCl s cl fun k => { k with brake := none }) cl) cl) cl fun k => { k with brake := some b }
/-- The conditions of a cluster, the bundle of `c` tried by `tr`. -/
def conds (s : State) (cl : Nat) (c : CtxId) (tr : State → Try) : List Cond :=
  let f := foreland s cl
  ((List.range 8).flatMap fun k => let p := primOf s (8 * cl + k); ctxConds f p (if p = c then tr else fun s => tryIssue s 0xFF)) ++ landConds s cl

/-! ### What a hold does while it lasts -/

/-- Whether a cause is one of the reasons for which a context waits (12 R249). -/
def waitCause : Cause → Bool
  | .lateReply => true
  | .receiveWait => true
  | .wheelWait => true
  | _ => false
/-- A primary waits on its own account (12 R247, R249). -/
def waitBegins (s : State) (c : CtxId) : State :=
  modCtx s c fun x => { x with run := { x.run with waiting := true, state := if x.run.state = .run then .wait else x.run.state } }
/-- The demand pulls, waits and flags of the held contexts; a landing's pull ranks after every context's touch (16 R322). -/
def holdEffects (s : State) (c : CtxId) (tr : State → Try) (l : List Cond) : State :=
  let s1 := l.foldl (fun s k =>
    let s := if waitCause k.cause then waitBegins s k.ctx else s
    if k.slot = 8 then s
    else match (getCtx s k.ctx).run.hold with
      | some _ => s
      | none => match (if k.ctx = c then tr else fun s => tryIssue s 0xFF) (focus s k.ctx) with
        | .hold _ _ _ t => focus t s.cid
        | _ => s) s
  l.foldl (fun s k =>
    if k.slot = 8 then
      ((getCl s (ctxCl k.ctx)).win.filter (netDue (getCl s (ctxCl k.ctx)))).foldl (fun s r => (mcastAbsent s (ctxCl k.ctx) r).foldl
        (fun s p => if p.1 = k.ctx then askPull s p.1 p.2 (some ((((getCl s (ctxCl p.1)).wall * 4 + 3) * 8 + p.1.core.toNat % 8) * 16)) else s) s) s
    else s) s1
/-- Order of the conditions of one cycle (12 R256). -/
def condKey (k : Cond) : Nat := (causeNum k.cause * 8 + k.ctx.core.toNat % 8) * 16 + k.slot
/-- The condition that the record names. -/
def firstCond : List Cond → Option Cond
  | [] => none
  | k :: t => some (t.foldl (fun m q => if condKey q < condKey m then q else m) k)
/-- Whether every condition is a receive wait (10 R220); a wait of a context for its own rows leaves it at that. -/
def allReceive (l : List Cond) : Bool := let m := l.filter fun k => !k.own; !m.isEmpty && m.all fun k => k.cause == .receiveWait
/-- What the conditions of a cycle say of a brake. -/
def underConds (l : List Cond) (b : Brake) : Brake :=
  { b with rwOnly := allReceive l, waits := l.any fun k => waitCause k.cause, stalled := l.foldl (fun m k => m ||| BitVec.twoPow 8 (k.ctx.core.toNat % 8)) 0 }
/-- BRAKE_APPLY (R22): the conditions of a cluster brake it; a condition that joins makes no record of its own (R256). -/
def applyBrake (s : State) (cl : Nat) (c : CtxId) (tr : State → Try) (l : List Cond) : State :=
  let s := holdEffects s c tr l
  match firstCond l with
  | none => s
  | some k => modCl s cl fun x => { x with brake := some (underConds l (x.brake.getD (brakeOf s k.ctx k.cause k.bundle k.rpt k.slot k.g))) }

/-! ### The landings of a cycle -/

/-- Conditions of a cluster as it stands. -/
def condsNow (s : State) (cl : Nat) : List Cond := conds s cl s.cid fun s => tryIssue s 0xFF
/-- SEND_ARRIVAL (10 R218): the network stands in the first braked cycle too, but for receive waits (R22, 10 R220). -/
def sendArrival (s : State) (cl : Nat) : State :=
  if (getCl s cl).brake.isNone && (fun l : List Cond => !l.isEmpty && !(allReceive l)) (condsNow s cl) then s else landSends s cl
/-- MCAST_LANDING (09 R188): the windows stand in the first braked cycle too (R22). -/
def mcastLanding (s : State) (cl : Nat) : State :=
  if (getCl s cl).brake.isNone && !(condsNow s cl).isEmpty then s else landMcasts s cl

/-! ### The boundary (R24, 12 R255) -/

/-- Lets an arrival enter. -/
def enterOne (s : State) (cl : Nat) : Arrival → State
  | .perform c ch tid => tryComplete s c ch tid
  | .done c ch tid e o => completeXfer s c ch tid e o
  | .flip id l => flipLeaves s id (leavesIn s id cl l)
/-- Lets arrivals enter in order. -/
def enter (s : State) (cl : Nat) (l : List Arrival) : State := l.foldl (fun s a => enterOne s cl a) s
/-- Whether an arrival completes one of some transfers: its own, or those of an arrival at a barrier that flips. -/
def completesOne (s : State) (cl : Nat) (aw : List (CtxId × Side × W32)) : Arrival → Bool
  | .perform c ch tid => aw.contains (c, ch, tid)
  | .done c ch tid _ _ => aw.contains (c, ch, tid)
  | .flip id l => (leavesIn s id cl l).any fun c => match leafOf (getCtx s c) id with
    | some q => (arrivalXfers (getCtx s c) q.desc).any fun t => aw.contains (c, t.1, t.2)
    | none => false
/-- How many arrivals stand up to the last one that is awaited. -/
def upToAwaited (s : State) (cl : Nat) (aw : List (CtxId × Side × W32)) (l : List Arrival) : Nat :=
  l.zipIdx.foldl (fun n p => if completesOne s cl aw p.1 then p.2 + 1 else n) 0
/-- BOUNDARY_ADMIT (12 R255). -/
def boundaryAdmit (s : State) (cl : Nat) : State :=
  let k := getCl s cl
  if k.brake.isNone then s
  else
    let n := upToAwaited s cl ((condsNow s cl).flatMap (·.awaited)) k.boundary
    enter (modCl s cl fun k => { k with boundary := k.boundary.drop n }) cl (k.boundary.take n)
/-- A transfer goes on, in the place that the boundary gives it: while the brake is applied one that uses a scratchpad waits, any other is performed
and its completion waits, in arrival order (R24, 12 R254); those of a context that is being saved enter (16 R320). -/
def arriveOrComplete (s : State) (c : CtxId) (ch : Side) (tid : W32) : State :=
  if !(heldBack s c) then tryComplete s c ch tid
  else match findXfer (getCtx s c) ch tid with
    | none => s
    | some t =>
      let s := carry finishAt false c ch tid carrySteps s
      let t := (findXfer (getCtx s c) ch tid).getD t
      if t.phase != .arrived && usesScr t && couldMove s c ch t && !((getCl s (ctxCl c)).boundary.contains (.perform c ch tid)) then
        modCl s (ctxCl c) fun k => { k with boundary := k.boundary ++ [.perform c ch tid] }
      else s

/-- The brake is let go: one record per application, with the wall cycles lost (R256); what is due lands before any primary issues (09 R188), and
held arrivals enter in order (R24). -/
def letGo (s : State) (cl : Nat) (b : Brake) : State :=
  let k := getCl s cl
  let s := keepRecord (modCl s cl fun k => { k with brake := none, boundary := [] }) cl b.region (devRecord s cl { b with slot := 0 } (k.wall - b.first))
  enter (landMcasts (landSends s cl) cl) cl k.boundary
/-- A save that the watchdog forced is under way: the brake stays applied (12 R258). -/
def forced (s : State) (cl : Nat) : Bool :=
  (ctxsOf s cl).any fun c => (getCtx s c).run.state == .saving && (getCtx s c).prog.saveCause == brakeTimeoutCode
/-- A wait found in an earlier cycle, before this one's try: it has ended unless the try finds it again (12 R247). -/
def clearWait (x : Ctx) : Ctx :=
  if x.run.hold.isSome || x.run.state == .saving then x else { x with run := { x.run with waiting := false, state := if x.run.state = .wait then .run else x.run.state } }
/-- The waits of a cluster's primaries cleared. -/
def clearWaits (s : State) (cl : Nat) : State := (List.range 8).foldl (fun s k => modCtx s (primOf s (8 * cl + k)) clearWait) s
/-- BRAKE_RELEASE (R22): released in the first cycle without a condition; of a receive wait, that of the landing (log entry 21). -/
def brakeRelease (s : State) (cl : Nat) : State :=
  match (getCl s cl).brake with
  | none => s
  | some b =>
    let s := clearWaits s cl
    match condsNow s cl with
    | [] => if forced s cl then s else letGo s cl b
    | l => applyBrake s cl s.cid (fun s => tryIssue s 0xFF) l

/-! ### BUNDLE_ISSUE -/

/-- The end of a wait in `wdone` or `kend`: a failure traps at the bundle that waits, else the context goes on or its run ends (05 R109, R118,
10 R212). -/
def endHold (s : State) (c : CtxId) : State :=
  let x := getCtx s c
  let free := fun (s : State) => modCtx s c fun x =>
    { x with run := { x.run with hold := none, waiting := false, state := if x.mon.active then .monitor else .run } }
  let fail := fun (e : Option Stop) (slot : Nat) (s : State) => match e with
    | some (.trap t) =>
      let s := modCtx (free s) c fun x => dropFailure { x with r := { x.r with pc := x.run.heldPc }, ctl := { x.ctl with rptidx := x.run.heldRpt } } t.dropFail
      takeTrap s c { t with slot := some slot }
    | _ => s
  match x.run.hold with
  | some (.wdone ch t) =>
    if tidComplete (chanOf x ch) t then
      match failureUpTo (chanOf x ch) t with
      | some f => fail (some (failTrap ch f)) 0 s
      | none => free s
    else s
  | some .kend =>
    if kendReady s c x then
      match kendFailure x with
      | some e => fail (some e) 1 s
      | none => endRun s c
    else s
  | _ => s
/-- The slots of a core that its primary leaves to the secondary in this cycle (01 R20, R24, 12 R249). -/
def freeSlots (s : State) (c : CtxId) : BitVec 8 :=
  let p := getCtx s (otherSlot c)
  let k := getCl s (ctxCl c)
  let busy := p.run.rows.foldl (fun m j => m ||| BitVec.twoPow 8 (7 - j.slot)) (0 : BitVec 8)
  let busy := (List.range 8).foldl (fun m i => if k.wall < readyAt p.run.sb (· == .slot i) then m ||| BitVec.twoPow 8 (7 - i) else m) busy
  let open_ : BitVec 8 := if p.run.state = .empty then 0xFF else if p.prog.tenant = (getCtx s c).prog.tenant then ~~~(p.run.issuedNow ||| busy) else 0
  if k.brake.isSome then open_ &&& 0xD8 else open_
/-- Takes the outcome of a try of code that brakes nothing (R21, 12 R253). -/
def settle (s : State) (t : Try) : State :=
  match t with
  | .idle => s
  | .kept => s
  | .go s' => s'
  | .trap s' => s'
  | .hold _ _ _ s' => s'
/-- The issue of context `c`'s bundle, tried by `tr` with the slots open to it: a primary's kernel code stalls the whole cluster with any
condition of its cycle; its monitor stands still under the brake; a secondary takes the slots left to it, and counts as ready where only they keep
it from issuing (12 R250). -/
def issueWith (s : State) (c : CtxId) (tr : State → BitVec 8 → Try) : State :=
  let cl := ctxCl c
  let s := focus (endHold s c) c
  if isPrim s c then
    if (getCl s cl).brake.isSome then s
    else
      let s := modCtx s c clearWait
      match conds s cl c fun s => tr s 0xFF with
      | [] => settle s (tr s 0xFF)
      | l => applyBrake s cl c (fun s => tr s 0xFF) l
  else
    let s := modCtx s c clearWait
    let ready := putRun s { s.cx.run with ready := true }
    match tr s (freeSlots s c) with
    | .idle => match tr s 0xFF with
      | .go _ => ready
      | .kept => ready
      | _ => s
    | .kept => ready
    | t => settle s t
/-- BUNDLE_ISSUE (03 R32). -/
def bundleIssue (s : State) (c : CtxId) : State := issueWith s c tryIssue
/-- The issue of a bundle of one syllable by the context that issues. -/
def issueLone (s : State) (y : Syl) : State := issueWith s s.cid fun s free => tryLone s y free

end Sys2Proof.Machine
end

