-- ==== Sys2Proof/Machine/ExecC.lean ====
section
/-! DEFINITION. The instructions of the slots C0 and C1: each is the issue, by the context in focus, of a bundle that holds the one syllable; its effect
is the `sem` of its name (Sems.lean), its checks, holds, traps and commit are those of every issue (Issue.lean, Brake.lean). -/

namespace Sys2Proof.Machine

/-- COPY_1D (R214). -/
def execCopy1d (sd : Side) (o : CA) (s : State) : Host.Outcome State Fault Refusal := .next (issueLone s (.c sd (.copy1d o)))
/-- COPY_2D (R214). -/
def execCopy2d (sd : Side) (o : CA) (s : State) : Host.Outcome State Fault Refusal := .next (issueLone s (.c sd (.copy2d o)))
/-- COPY_3D (R214). -/
def execCopy3d (sd : Side) (o : CA) (s : State) : Host.Outcome State Fault Refusal := .next (issueLone s (.c sd (.copy3d o)))
/-- GATHER (R215). -/
def execGather (sd : Side) (o : CA) (s : State) : Host.Outcome State Fault Refusal := .next (issueLone s (.c sd (.gather o)))
/-- SCATTER (R215). -/
def execScatter (sd : Side) (o : CA) (s : State) : Host.Outcome State Fault Refusal := .next (issueLone s (.c sd (.scatter o)))
/-- MCAST (R217). -/
def execMcast (sd : Side) (o : CA) (s : State) : Host.Outcome State Fault Refusal := .next (issueLone s (.c sd (.mcast o)))
/-- SEND (R218). -/
def execSend (sd : Side) (o : CA) (s : State) : Host.Outcome State Fault Refusal := .next (issueLone s (.c sd (.send o)))
/-- RECV (R219). -/
def execRecv (sd : Side) (o : CA) (s : State) : Host.Outcome State Fault Refusal := .next (issueLone s (.c sd (.recv o)))
/-- BANK_WADD (R228). -/
def execBankWadd (sd : Side) (o : CA) (s : State) : Host.Outcome State Fault Refusal := .next (issueLone s (.c sd (.bankWadd o)))
/-- BANK_ADD (R228). -/
def execBankAdd (sd : Side) (o : CA) (s : State) : Host.Outcome State Fault Refusal := .next (issueLone s (.c sd (.bankAdd o)))
/-- BANK_MAX (R228). -/
def execBankMax (sd : Side) (o : CA) (s : State) : Host.Outcome State Fault Refusal := .next (issueLone s (.c sd (.bankMax o)))
/-- BANK_MIN (R228). -/
def execBankMin (sd : Side) (o : CA) (s : State) : Host.Outcome State Fault Refusal := .next (issueLone s (.c sd (.bankMin o)))
/-- BAR_ARRIVE (R231). -/
def execBarArrive (sd : Side) (o : CA) (s : State) : Host.Outcome State Fault Refusal := .next (issueLone s (.c sd (.barArrive o)))
/-- BAR_WAIT (R232). -/
def execBarWait (sd : Side) (o : CA) (s : State) : Host.Outcome State Fault Refusal := .next (issueLone s (.c sd (.barWait o)))
/-- SFENCE (R234). -/
def execSfence (sd : Side) (o : CA) (s : State) : Host.Outcome State Fault Refusal := .next (issueLone s (.c sd (.sfence o)))
/-- SRST (R235). -/
def execSrst (sd : Side) (o : CA) (s : State) : Host.Outcome State Fault Refusal := .next (issueLone s (.c sd (.srst o)))
/-- COPY_1D_CS (R214). -/
def execCopy1dCs (sd : Side) (o : CS) (s : State) : Host.Outcome State Fault Refusal := .next (issueLone s (.c sd (.copy1dCs o)))
/-- COPY_2D_CS (R214). -/
def execCopy2dCs (sd : Side) (o : CS) (s : State) : Host.Outcome State Fault Refusal := .next (issueLone s (.c sd (.copy2dCs o)))
/-- COPY_3D_CS (R214). -/
def execCopy3dCs (sd : Side) (o : CS) (s : State) : Host.Outcome State Fault Refusal := .next (issueLone s (.c sd (.copy3dCs o)))
/-- GATHER_CS (R215). -/
def execGatherCs (sd : Side) (o : CS) (s : State) : Host.Outcome State Fault Refusal := .next (issueLone s (.c sd (.gatherCs o)))
/-- SCATTER_CS (R215). -/
def execScatterCs (sd : Side) (o : CS) (s : State) : Host.Outcome State Fault Refusal := .next (issueLone s (.c sd (.scatterCs o)))
/-- ST32 (R222). -/
def execSt32 (sd : Side) (o : CS) (s : State) : Host.Outcome State Fault Refusal := .next (issueLone s (.c sd (.st32 o)))
/-- ST64 (R222). -/
def execSt64 (sd : Side) (o : CS) (s : State) : Host.Outcome State Fault Refusal := .next (issueLone s (.c sd (.st64 o)))
/-- LD64 (R222). -/
def execLd64 (sd : Side) (o : CS) (s : State) : Host.Outcome State Fault Refusal := .next (issueLone s (.c sd (.ld64 o)))
/-- ATOM_ADD (R223). -/
def execAtomAdd (sd : Side) (o : CS) (s : State) : Host.Outcome State Fault Refusal := .next (issueLone s (.c sd (.atomAdd o)))
/-- ATOM_AND (R223). -/
def execAtomAnd (sd : Side) (o : CS) (s : State) : Host.Outcome State Fault Refusal := .next (issueLone s (.c sd (.atomAnd o)))
/-- ATOM_OR (R223). -/
def execAtomOr (sd : Side) (o : CS) (s : State) : Host.Outcome State Fault Refusal := .next (issueLone s (.c sd (.atomOr o)))
/-- ATOM_XOR (R223). -/
def execAtomXor (sd : Side) (o : CS) (s : State) : Host.Outcome State Fault Refusal := .next (issueLone s (.c sd (.atomXor o)))
/-- ATOM_MAX (R223). -/
def execAtomMax (sd : Side) (o : CS) (s : State) : Host.Outcome State Fault Refusal := .next (issueLone s (.c sd (.atomMax o)))
/-- ATOM_MIN (R223). -/
def execAtomMin (sd : Side) (o : CS) (s : State) : Host.Outcome State Fault Refusal := .next (issueLone s (.c sd (.atomMin o)))
/-- ATOM_SWAP (R223). -/
def execAtomSwap (sd : Side) (o : CS) (s : State) : Host.Outcome State Fault Refusal := .next (issueLone s (.c sd (.atomSwap o)))
/-- ATOM_CAS (R223). -/
def execAtomCas (sd : Side) (o : CS) (s : State) : Host.Outcome State Fault Refusal := .next (issueLone s (.c sd (.atomCas o)))
/-- MSA_CAS4 (R225). -/
def execMsaCas4 (sd : Side) (o : CS) (s : State) : Host.Outcome State Fault Refusal := .next (issueLone s (.c sd (.msaCas4 o)))
/-- MSA_ENQ (R226). -/
def execMsaEnq (sd : Side) (o : CS) (s : State) : Host.Outcome State Fault Refusal := .next (issueLone s (.c sd (.msaEnq o)))
/-- MSA_DEQ (R226). -/
def execMsaDeq (sd : Side) (o : CS) (s : State) : Host.Outcome State Fault Refusal := .next (issueLone s (.c sd (.msaDeq o)))
/-- MSA_CHASE (R227). -/
def execMsaChase (sd : Side) (o : CS) (s : State) : Host.Outcome State Fault Refusal := .next (issueLone s (.c sd (.msaChase o)))
/-- SC_LD64 (R236). -/
def execScLd64 (sd : Side) (o : CS) (s : State) : Host.Outcome State Fault Refusal := .next (issueLone s (.c sd (.scLd64 o)))
/-- SC_ST64 (R236). -/
def execScSt64 (sd : Side) (o : CS) (s : State) : Host.Outcome State Fault Refusal := .next (issueLone s (.c sd (.scSt64 o)))
/-- SC_SWAP (R236). -/
def execScSwap (sd : Side) (o : CS) (s : State) : Host.Outcome State Fault Refusal := .next (issueLone s (.c sd (.scSwap o)))
/-- SC_ADD (R236). -/
def execScAdd (sd : Side) (o : CS) (s : State) : Host.Outcome State Fault Refusal := .next (issueLone s (.c sd (.scAdd o)))

end Sys2Proof.Machine
end

