-- ==== Sys2Proof/Machine/Shake.lean ====
section
/-! DEFINITION. SHAKE256 (FIPS 202), which the spec names for measurements (15 R311), the bolter (18 R347) and SPDM. -/

namespace Sys2Proof.Machine

/-- A lane of the state of 5 × 5 lanes, numbered x + 5y. -/
def kLane (a : List W64) (i : Nat) : W64 := (a[i]?).getD 0
/-- The lanes that ρ rotates, in the order of its walk from (1, 0) by (x, y) ↦ (y, 2x + 3y), each with the triangular number of its step. -/
def kWalk : Nat → Nat → Nat → Nat → List (Nat × Nat)
  | 0, _, _, _ => []
  | n + 1, t, x, y => (x + 5 * y, (t + 1) * (t + 2) / 2 % 64) :: kWalk n (t + 1) y ((2 * x + 3 * y) % 5)
/-- How far ρ rotates lane `i`: the walk never meets lane 0. -/
def kRot (i : Nat) : Nat := ((kWalk 24 0 1 0).lookup i).getD 0
/-- `n` outputs of the shift register of x⁸ + x⁶ + x⁵ + x⁴ + 1 from `r`. -/
def kBits : Nat → Nat → List Bool
  | 0, _ => []
  | n + 1, r => r.testBit 0 :: kBits n (if r < 128 then 2 * r else (2 * r) ^^^ 0x171)
/-- The constant of a round: seven outputs of the register, output `j` at bit 2^j - 1. -/
def kConst (out : List Bool) : W64 := .ofNat 64 (out.zipIdx.foldl (fun v p => if p.1 then v + 2 ^ (2 ^ p.2 - 1) else v) 0)
/-- The constants of the rounds. -/
def kRounds : List W64 := (List.range 24).map fun r => kConst (((kBits 168 1).drop (7 * r)).take 7)
/-- The parity of the column of lane `x`. -/
def kColumn (a : List W64) (x : Nat) : W64 := (List.range 5).foldl (fun p y => p ^^^ kLane a (x % 5 + 5 * y)) 0
/-- θ on lane `i`: the parities of the column before it and, rotated, of the column after it. -/
def kMixed (a : List W64) (i : Nat) : W64 := kLane a i ^^^ kColumn a (i + 4) ^^^ (kColumn a (i + 1)).rotateLeft 1
/-- θ, ρ and π: the lane at (x, y) comes, mixed and rotated, from (x + 3y, x). -/
def kMoved (a : List W64) : List W64 :=
  let spot := fun (j : Nat) => (j % 5 + 3 * (j / 5)) % 5 + 5 * (j % 5)
  (List.range 25).map fun j => (kMixed a (spot j)).rotateLeft (kRot (spot j))
/-- χ on lane `i`, whose row begins at lane `i - i % 5`. -/
def kCross (a : List W64) (i : Nat) : W64 :=
  let along := fun (n : Nat) => kLane a (i - i % 5 + (i + n) % 5)
  along 0 ^^^ (along 2 &&& ~~~along 1)
/-- One round, whose constant enters lane 0. -/
def kRoundOf (a : List W64) (rc : W64) : List W64 :=
  let m := kMoved a
  (kCross m 0 ^^^ rc) :: (List.range 24).map fun i => kCross m (i + 1)
/-- The permutation. -/
def keccakF (a : List W64) : List W64 := kRounds.foldl kRoundOf a
/-- The little-endian lanes of bytes. -/
def lanesOfBytes : Nat → List Byte → List W64
  | 0, _ => []
  | n + 1, l => .ofNat 64 (leNat (l.take 8)) :: lanesOfBytes n (l.drop 8)
/-- Absorbs a block of 136 bytes. -/
def absorb (a : List W64) (block : List Byte) : List W64 :=
  keccakF (((List.range 25).map fun i => kLane a i ^^^ kLane (lanesOfBytes 17 block) i))
/-- Absorbs padded bytes block by block. -/
def absorbAll : Nat → List W64 → List Byte → List W64
  | 0, a, _ => a
  | n + 1, a, l => absorbAll n (absorb a (l.take 136)) (l.drop 136)
/-- The padding of SHAKE256: suffix 1111, then 1, zeros, 1, to a multiple of 136 bytes. -/
def shakePad (l : List Byte) : List Byte :=
  let k := 136 - l.length % 136
  if k = 1 then l ++ [0x9F] else l ++ (0x1F :: List.replicate (k - 2) 0) ++ [0x80]
/-- The first `n` bytes, at most 136, of SHAKE256. -/
def shake256 (n : Nat) (l : List Byte) : List Byte :=
  ((absorbAll (l.length / 136 + 1) (List.replicate 25 0) (shakePad l)).flatMap fun w => leBytes 8 w.toNat).take n
/-- A digest of 512 bits. -/
def digest512 (l : List Byte) : BitVec 512 := .ofNat 512 (leNat (shake256 64 l))

end Sys2Proof.Machine
end

