-- ==== Sys2Proof/Machine/Trace.lean ====
section
/-! DEFINITION. The trace (18 R336-R346): appending to a region's buffer, clock segments, samples, waiter records, stops asked for. -/

namespace Sys2Proof.Machine

/-! ### Trace buffers (R336, R337) -/

def effTrbase (s : State) (id : W32) : Nat := eff s id 19 0x70 8
def effTracequota (s : State) (id : W32) : Nat := eff s id 7 0x28 4
/-- The size of a buffer in records. -/
def trCap (s : State) (id : W32) : Nat := effTracequota s id * 128 - 2
/-- A record is dropped and counted (R337). -/
def dropRecord (s : State) (region : W32) (telemetry : Bool) : State :=
  let s := modRegion s region fun r => { r with tbLost := r.tbLost + 1 }
  if telemetry then { s with fw := { s.fw with dropped := tabSet s.fw.dropped region.toNat (tabGet 0 s.fw.dropped region.toNat + 1) } } else s
/-- Writes a header field of the buffer, if the buffer can be written. -/
def trHeader (s : State) (region : W32) (off v : Nat) : State :=
  match writeVa s region (effTrbase s region + off) (leBytes 8 v) with
  | .ok s => s
  | .error _ => s
/-- Appends a record to the trace buffer of a region (R337). -/
def appendRecord (s : State) (region : W32) (rec : BitVec 256) : State :=
  match findRegion s region with
  | none => s
  | some r =>
    if effTracequota s region = 0 then dropRecord s region true
    else match readVa s region (effTrbase s region + 8) 8 with
      | .error _ => dropRecord s region true
      | .ok rd =>
        let cap := trCap s region
        if cap ≤ (r.tbWrite + 2 ^ 64 - leNat rd) % 2 ^ 64 then
          trHeader (dropRecord s region false) region 0x10 (r.tbLost + 1)
        else match writeVa s region (effTrbase s region + 64 + 32 * (r.tbWrite % cap)) (leBytes 32 rec.toNat) with
          | .error _ => dropRecord s region true
          | .ok s =>
            let s := modRegion s region fun r => { r with tbWrite := r.tbWrite + 1 }
            trHeader (trHeader s region 0 (r.tbWrite + 1)) region 0x10 r.tbLost
/-- Opens a region's buffer: the header's counts at 0 and its capacity (R336). -/
def openBuffer (s : State) (region : W32) : State :=
  if effTracequota s region = 0 then s
  else (match writeVa s region (effTrbase s region) (leBytes 24 0 ++ leBytes 8 (trCap s region)) with
    | .ok s => s
    | .error _ => s)
/-- TRACE_DRAIN (R337): a cluster's oldest record goes to its region's buffer. -/
def drainTrace (s : State) (cl : Nat) : State :=
  match (getCl s cl).trace with
  | [] => s
  | (r, rec) :: t => appendRecord (modCl s cl fun k => { k with trace := t }) r rec

/-! ### Clock segments (R339) -/

/-- The tick of a cluster's cycle in its segment. -/
def segTickNow (s : State) (k : Cluster) : Nat := if k.started then k.segTick + 10 * (k.wall - k.segCycle) / max 1 k.ratio.toNat else tick s
/-- Regions whose work a cluster may run. -/
def clusterRegions (s : State) (cl : Nat) : List W32 := (s.regions.filter fun r => r.id != 0 && bitAt (effClusters s r.id) cl).map (·.id)
/-- A segment record of a cluster. -/
def segRecord (k : Cluster) (cl reason : Nat) : Nat :=
  packFields [(3, 1), (reason, 1), (cl / 4 + 16 * (cl % 4), 2), (k.ratio.toNat, 1), (0, 3), (k.segTick, 8), (k.segCycle, 8)]
/-- A new clock segment begins at the present cycle, with a record for every region of the cluster. -/
def newSegment (s : State) (cl reason : Nat) (ratio : BitVec 5) : State :=
  let k := getCl s cl
  let k := { k with ratio := ratio, segTick := tick s, segCycle := k.wall, segReason := reason, started := true }
  (clusterRegions s cl).foldl (fun s r => keepRecord s cl r (segRecord k cl reason)) (modCl s cl fun _ => k)
/-- SEGMENT_ROLLOVER (R339): tr.delta would pass 2^31. -/
def segRollover (s : State) (cl : Nat) : State := if 2 ^ 31 ≤ trDelta s cl then newSegment s cl 3 (getCl s cl).ratio else s

/-! ### Samples (R341) -/

/-- Code of a slot state. -/
def stateCode : SlotState → Nat
  | .empty => 0 | .loading => 1 | .run => 2 | .parked => 3 | .wait => 4 | .monitor => 5 | .saving => 6
/-- A sample record of a context. -/
def sampleRecord (s : State) (c : CtxId) : Nat :=
  let x := getCtx s c
  let wh := trWhere s c + (if (getCl s (ctxCl c)).brake.isSome then 1024 else 0)
  packFields [(2, 1), (stateCode x.run.state, 1), (wh, 2), (trBundle x.r.pc x.ctl.rptidx.toNat 0, 4), (trLoop x.r, 1), (x.run.issuedNow.toNat, 1), (0, 2),
    (trIter x.r, 4), (trDelta s (ctxCl c), 4), (x.prog.region.toNat, 4), (x.prog.serial.toNat, 4), (x.run.cyc, 4)]
/-- Whether the present wall cycle is a sample point of a region. -/
def sampleAt (s : State) (cl : Nat) (region : W32) : Bool :=
  match findRegion s region with
  | some r => r.sample != 0 && (getCl s cl).wall % 2 ^ r.sample == 0
  | none => false
/-- SAMPLE_POINT (R341). -/
def samplePoint (s : State) (cl : Nat) : State :=
  (ctxsOf s cl).foldl (fun s c =>
    let x := getCtx s c
    if x.run.state != .empty && sampleAt s cl x.prog.region then keepRecord s cl x.prog.region (sampleRecord s c) else s) s

/-! ### Waiters (R346, 12 R249, R263) -/

/-- What a context itself waits for: kind and object. -/
def ownWait (s : State) (c : CtxId) : Nat × Nat :=
  let x := getCtx s c
  let at_ := fun (ch : Side) (t : W32) => (if ch = .b then 2 ^ 32 else 0) + t.toNat
  match x.run.parkedOn, x.run.hold with
  | some id, _ => (1, ((leafOf x id).map fun l => l.desc.toNat).getD 0)
  | none, some (.wdone ch t) => (2, at_ ch t)
  | none, some .kend =>
    if !x.con.c0.xfers.isEmpty then (2, at_ .a (chanDone x.con.c0)) else if !x.con.c1.xfers.isEmpty then (2, at_ .b (chanDone x.con.c1)) else (2, 2 ^ 33)
  | none, _ =>
    match tryIssue (focus s c) 0xFF with
    | .hold (.recv e) .. => (7, e)
    | .hold .wheel .. => (6, ((List.range 1024).map (fun i => (wheel s + i) % 1024)).find? (fun p => positionOwner s p == some c.core.toNat) |>.getD 0)
    | .hold .late slot _ _ =>
      let sd : Side := if slot = 7 then .b else .a
      match awaitedAt s c slot with
      | (_, ch, t) :: _ => if (slot = 6 ∨ slot = 7) ∧ 64 ≤ (chanOf x sd).xfers.length then (4, at_ sd (chanDone (chanOf x sd))) else (3, at_ ch t)
      | [] => channelRead
    | .hold (.horizon va) .. => (5, va)
    | _ => channelRead
where
  /-- The read of a transfer of the context that is held for a replica's horizon, with its address. -/
  channelRead : Nat × Nat :=
    let x := getCtx s c
    let held := fun (t : Xfer) =>
      ((if t.segs.isEmpty then [(0, t.y.toNat, 1)] else t.segs).flatMap fun g => ctxPieces s c g.2.1 g.2.2).findSome? fun p => match locate s c p.1 p.2 {} with
        | .ok { place := .main pa, .. } => if canRead s c pa then none else some p.1
        | _ => none
    match ((x.con.c0.xfers.filter (lateXfer s c .a)) ++ x.con.c1.xfers.filter (lateXfer s c .b)).findSome? held with
    | some a => (5, a)
    | none => (0, 0)
/-- What a context waits for; a primary that is braked by another core's condition waits for what that core waits for. -/
def waitObject (s : State) (c : CtxId) : Nat × Nat :=
  match ownWait s c, (getCl s (ctxCl c)).brake with
  | (0, _), some b => ownWait s (primOf s (8 * ctxCl c + b.core))
  | w, _ => w
/-- A waiter record. -/
def waiterRecord (s : State) (c : CtxId) (saved : Bool) : Nat :=
  let x := getCtx s c
  let (k, o) := waitObject s c
  let held := x.run.hold.isSome || x.run.parkedOn.isSome
  let g := if held then heldGuard s c else (match tryIssue (focus s c) 0xFF with
    | .hold _ _ g _ => g
    | _ => 0)
  packFields [(6, 1), (k, 1), (trWhere s c + (if saved then 1024 else 0), 2),
    (trBundle (if held then x.run.heldPc else x.r.pc) (if held then x.run.heldRpt else x.ctl.rptidx).toNat 0, 4), (trLoop x.r, 1), ((stageOf g).toNat, 1), (0, 2), (trIter x.r, 4),
    (o, 8), (x.prog.region.toNat, 4), (x.prog.serial.toNat, 4)]

/-! ### Stops and watches (R342, R345, 13 R292) -/

/-- STOP_LANDING: a pending stop lands where it may. -/
def stopLanding (s : State) (c : CtxId) : State :=
  let x := getCtx s c
  if mayIssue x && isDue (focus s c) none then
    match stopDue s c false with
    | some t => landStop s c t
    | none => s
  else s
/-- DEBUGGER_STOP_REQUEST: an attached debugger asks for a stop. -/
def debuggerStop (s : State) (c : CtxId) (code : BitVec 14) : State :=
  let x := getCtx s c
  if x.mon.dbg && x.run.state != .empty then modCtx s c fun x => { x with run := { x.run with dstop := some code } } else s
/-- DEBUGGER_ATTACH: mstatus.dbg of the region's contexts, resident and to come. -/
def debuggerAttach (s : State) (region : W32) (on : Bool) : State :=
  let s := modRegion s region fun r => { r with dbg := on }
  (List.range 512).foldl (fun s n =>
    let c := ctxOfNum n
    let x := getCtx s c
    if x.run.state != .empty && x.prog.region == region then modCtx s c fun x => { x with mon := { x.mon with dbg := on } } else s) s
/-- WATCH_CHANNEL_MATCH: the channel performs or sends the first watched write of a transfer. -/
def watchMatch (s : State) (c : CtxId) (ch : Side) (tid : W32) : State :=
  match findXfer (getCtx s c) ch tid with
  | some t => if canComplete s c ch tid || (!t.pkts.isEmpty && kindWrites (cView t.op).kind) then watchChannel s c ch t (canComplete s c ch tid) else s
  | none => s

end Sys2Proof.Machine
end

