-- ==== Sys2Proof/Machine/Firmware.lean ====
section
/-! DEFINITION. What the firmware complex does for the rest of the package: telemetry (19 R361), measurements (15 R311), keys (15 R307), alarms
(15 R312, R313), frames of main memory. -/

namespace Sys2Proof.Machine

/-- Changes the firmware's state. -/
def modFw (s : State) (f : Firm → Firm) : State := { s with fw := f s.fw }

/-! ### Telemetry (R361) -/

/-- Sends a record: type, length in bytes, tick, sequence number of the type, content. -/
def sendTelemetry (s : State) (ty : Nat) (body : List Byte) : State :=
  let q := cellGet s.fw.telSeq ty
  modFw s fun f => { f with
    telSeq := cellSet f.telSeq ty (q + 1)
    telemetry := f.telemetry ++ [(.ofNat 16 ty, leBytes 2 ty ++ leBytes 2 (16 + body.length) ++ leBytes 8 (tick s) ++ leBytes 4 q.toNat ++ body)] }
/-- The bank, its version, the rollback counter and the update step, as record 0x0601 gives them. -/
def bankRecord (s : State) (stepNo : Nat) : State :=
  let f := s.fw
  sendTelemetry s 0x0601 (leBytes 1 (b2n f.activeBank) ++ leBytes 8 (if f.activeBank then f.ver1 else f.ver0).toNat ++ leBytes 8 f.rollback.toNat ++ leBytes 1 stepNo)

/-! ### Measurements (R311) -/

/-- A measurement register. -/
def measure (s : State) (r : Nat) : BitVec 512 := tabGet 0 s.fw.meas r
/-- Extends a register with a digest. -/
def extend (s : State) (r : Nat) (d : BitVec 512) : State :=
  modFw s fun f => { f with meas := tabSet f.meas r (digest512 (leBytes 64 (tabGet 0 f.meas r).toNat ++ leBytes 64 d.toNat)) }

/-! ### Keys (R307) -/

/-- Fills a key slot with a fresh key. -/
def fillKey (s : State) (slot tenant : Nat) : State :=
  modFw s fun f => { f with keys := tabSet f.keys slot (Config.freshKey f.keyFills), keyFills := f.keyFills + 1, keyTenant := cellSet f.keyTenant slot (.ofNat 16 tenant) }
/-- Erases a key slot. -/
def eraseKey (s : State) (slot : Nat) : State :=
  modFw s fun f => { f with keys := f.keys.filter fun p => p.1 != slot, keyTenant := cellSet f.keyTenant slot 0 }

/-! ### Alarms (R312, R313) -/

/-- An alarm of class 1 tamper, 2 integrity, 3 privileged violation, with its source: keys erased, clocks and all firmware cores but security (4)
and telemetry (5) stopped, ports stopped, a record logged and reported; the package is locked. -/
def alarm (s : State) (cls src : Nat) : State :=
  let s := { s with clusters := s.clusters.map fun p => (p.1, { p.2 with started := false }), fabric := { s.fabric with planes := 0 } }
  let s := modFw s fun f => { f with
    keys := [], keyTenant := [], pairKeys := [], stopped := 0xCF, locked := true, rings := f.rings.map fun p => (p.1, { p.2 with enable := false })
    alarms := f.alarms ++ [(.ofNat 8 cls, .ofNat 8 src, tick s)] }
  sendTelemetry s 0x0501 (leBytes 1 cls ++ leBytes 1 src ++ leBytes 8 (tick s))

/-! ### Frames -/

/-- Notes what a dealt frame is: 0 firmware memory, 1 a region's, 2 a region's that the application cores' tables may map too (15 R297, R302). -/
def setFrame (s : State) (base size kind : Nat) : State :=
  modFw s fun f => { f with frames := (f.frames.filter fun p => p.1 != base) ++ [(base, size, kind)] }
/-- Takes `size` bytes, aligned on their size, below those that the firmware already holds at the top of a die's 64 GB stack (01 R4, R17; log entry
31). -/
def takeFrame (s : State) (die size kind : Nat) : Option (Nat × State) :=
  let top := 64 * 10 ^ 9
  let free := top - (cellGet s.fw.alloc die).toNat
  if size = 0 ∨ free < size then none
  else
    let base := (free / size - 1) * size
    some (die * 2 ^ 36 + base, setFrame (modFw s fun f => { f with alloc := cellSet f.alloc die (.ofNat 64 (top - base)) }) (die * 2 ^ 36 + base) size kind)

end Sys2Proof.Machine
end

