-- ==== Sys2Proof/Machine/Sync.lean ====
section
/-! DEFINITION. The slot wheel's operations (09 R187), replicated writes (09 R176), releases (09 R179) and the steps by
which transfers complete. -/

namespace Sys2Proof.Machine

/-! ### Transfers -/

/-- TRANSFER_COMPLETE and REPLICA_READ_SERVE (10 R206, 09 R177). -/
def transferStep (s : State) (c : CtxId) (ch : Side) (tid : W32) : State := arriveOrComplete s c ch tid
/-- RELEASE_WRITE_SEND (09 R179): the last write of a release, once nothing it covers is outstanding. -/
def releaseStep (s : State) (c : CtxId) (ch : Side) (tid : W32) : State :=
  match findXfer (getCtx s c) ch tid with
  | some t => if releases t.op && !(releaseBlocked s c (getCtx s c) ch t) then transferStep s c ch tid else s
  | none => s
/-- The effect of an SC operation on its word (10 R236). -/
def scEffect (s : State) (c : CtxId) (t : Xfer) (k : Nat) : Except RStop (State × List (Nat × W64)) :=
  match k with
  | 0 => do
    let (w, d) ← wordAt s c t.x.toNat 8 { r := true }
    .ok (noteTouch s c [d.place], [(0, .ofNat 64 w)])
  | 1 => do
    let (_, d) ← wordAt s c t.x.toNat 8 { w := true }
    let s ← writeSite s c d (leBytes 8 (xarg t 1).toNat)
    .ok (s, [])
  | _ => do
    let r ← rmw s c t.x.toNat needRWA fun w => some (if k = 2 then xarg t 1 else w + xarg t 1)
    .ok (r.2, [(0, r.1)])
/-- SC_PERFORM (09 R187): 96 positions after its key; what it releases was performed before it took the key (log entry 99). -/
def scStep (s : State) (c : CtxId) (ch : Side) (tid : W32) : State :=
  match findXfer (getCtx s c) ch tid with
  | none => s
  | some t =>
    match (cView t.op).kind, t.phase with
    | .sc k, .timed at_ =>
      if s.now < at_ then s
      else match scEffect s c t k with
        | .ok (s1, o) => finishAt (watchChannel s1 c ch t true) c ch tid 0 o
        | .error (.status e) => finishAt s c ch tid e []
        | .error (.wait _) => s
    | _, _ => s

/-! ### Replicated writes (09 R176) -/

/-- Whether a forwarded write can be applied at a die: it follows the writes its clock names, and the earlier ones to its page are applied. -/
def canApply (s : State) (w : RepWrite) (older : List RepWrite) : Bool :=
  let v := (getDie s w.dst).applied
  let at_ := fun (v : Clock) (j : Nat) => (v[j]?).getD 0
  ((List.range 9).all fun j => if j = w.die then at_ w.clock j == at_ v j + 1 else wsle (at_ w.clock j) (at_ v j)) &&
    !(older.any fun o => o.dst == w.dst && o.pa / 65536 == w.pa / 65536)
/-- The first write of a list that can be applied at a die, with the rest. -/
def takeApply (s : State) (die : Nat) : List RepWrite → List RepWrite → Option (RepWrite × List RepWrite)
  | _, [] => none
  | older, w :: t => if w.dst = die ∧ canApply s w older.reverse then some (w, older.reverse ++ t) else takeApply s die (w :: older) t
/-- REPLICA_WRITE_APPLY (09 R176). -/
def applyReplica (s : State) (die : Nat) : State :=
  match takeApply s die [] s.repWrites with
  | none => s
  | some (w, rest) =>
    modDie { s with repWrites := rest } die fun d =>
      { d with
        clock := clockMax d.clock w.clock, applied := clockMax d.applied w.clock
        replicas := if bitAt (replicaMask s w.pa) die then tabSet d.replicas (w.pa / 65536) (cellBlit (tabGet [] d.replicas (w.pa / 65536)) (w.pa % 65536) w.bytes)
          else d.replicas }

end Sys2Proof.Machine
end

