-- ==== Sys2Proof/Machine/Ecc.lean ====
section
/-! DEFINITION. Reads that meet an uncorrectable error of a memory (10 R210, 15 R314): when one does is outside the model, which takes it from the
operand of the step (log entry 90). -/

namespace Sys2Proof.Machine

/-- The telemetry record of an error: memory, address, region (19 R361). -/
def eccRecord (s : State) (e : EccHit) (region : W32) : State := sendTelemetry s 0x0202 (leBytes 1 e.memory.toNat ++ leBytes 8 e.addr.toNat ++ leBytes 4 region.toNat)

/-- Whether a transfer reads memory of this package. -/
def readsHere (t : Xfer) : Bool :=
  match (cView t.op).kind with
  | .copy _ | .gather | .scatter | .bank _ | .load | .atom _ | .cas4 | .enq | .deq | .chase => true
  | _ => false
/-- Whether a transfer's next step performs its reads: nothing that it needs from other packages is outstanding. -/
def readsNow (s : State) (c : CtxId) (ch : Side) (t : Xfer) : Bool :=
  readsHere t && t.planned && t.status == 0 && (t.phase == .running || t.phase == .packetsOut) && !(heldBack s c && usesScr t) &&
    (match xferStep s c ch t with
     | .wait _ => false
     | .more _ => t.phase == .running && movesRuns (cView t.op).kind && (sourceAsks s c t).isEmpty
     | .done _ e _ => e == 0)
/-- What a failing transfer leaves: a copy and a bank operation some of their effects, any other nothing (R211). -/
def eccEffect (s : State) (c : CtxId) (t : Xfer) : State :=
  match (cView t.op).kind with
  | .bank k => match bankFold s c t k (some s.free) { s with free := s.free + 1 } with
    | .ok r => r.1
    | .error _ => s
  | _ => if movesRuns (cView t.op).kind then (match copyPieces s c t with
    | .ok l => copySome s c (goodPieces l)
    | .error _ => s)
    else s
/-- A transfer whose next step would perform it meets the error: it completes with status ECC_UNCORRECTED, what it has in other packages stands. -/
def eccTransfer (s : State) (c : CtxId) (ch : Side) (tid : W32) (e : EccHit) : State :=
  match findXfer (getCtx s c) ch tid with
  | none => s
  | some t =>
    if readsNow s c ch t then eccRecord (finishAt (eccEffect s c t) c ch tid eccUncorrected []) e (getCtx s c).prog.region else s
/-- TRANSFER_COMPLETE (10 R206, 09 R177), or a completion that finds the error. -/
def transferOrEcc (s : State) (c : CtxId) (ch : Side) (tid : W32) (e : Option EccHit) : State :=
  match e with
  | none => transferStep s c ch tid
  | some e => eccTransfer s c ch tid e

/-- A try whose issue meets the error in one of its slots: it traps there. -/
def eccTry (slot : BitVec 3) (e : EccHit) (s : State) (free : BitVec 8) : Try :=
  match tryIssue s free with
  | .go t => if t.cx.run.issuedNow.getLsbD (7 - slot.toNat) then trapTry (eccRecord s e s.cx.prog.region) { code := eccUncorrected, val := e.addr, slot := some slot.toNat } else .go t
  | t => t
/-- BUNDLE_ISSUE (03 R32), or an issue that meets the error. -/
def issueOrEcc (s : State) (c : CtxId) (e : Option (BitVec 3 × EccHit)) : State :=
  match e with
  | none => bundleIssue s c
  | some p => issueWith s c (eccTry p.1 p.2)

end Sys2Proof.Machine
end

