-- ==== Sys2Proof/Machine/ExecCluster.lean ====
section
/-! DEFINITION. The steps of a cluster: issues, rows, landings, the brake, transfers, barriers, the wheel, trace records. -/

namespace Sys2Proof.Machine

/-- BUNDLE_ISSUE (R32). -/
def execBundleIssue (k : IssueIn) (s : State) : Host.Outcome State Fault Refusal := .next (issueOrEcc s k.c k.ecc)
/-- BRAKE_RELEASE (R22). -/
def execBrakeRelease (cl : ClId) (s : State) : Host.Outcome State Fault Refusal := .next (brakeRelease s cl.toNat)
/-- BOUNDARY_ADMIT (R255). -/
def execBoundaryAdmit (cl : ClId) (s : State) : Host.Outcome State Fault Refusal := .next (boundaryAdmit s cl.toNat)
/-- FORM_ROW_ISSUE (R119). -/
def execFormRowIssue (c : CtxId) (slot : BitVec 3) (s : State) : Host.Outcome State Fault Refusal := .next (formRow s c slot)
/-- RESULT_LAND (R95). -/
def execResultLand (c : CtxId) (s : State) : Host.Outcome State Fault Refusal := .next (landResults s c)
/-- TRANSFER_COMPLETE (R206). -/
def execTransferComplete (c : CtxId) (ch : Side) (t : XferIn) (s : State) : Host.Outcome State Fault Refusal :=
  .next (transferOrEcc s c ch t.tid t.ecc)
/-- RELEASE_WRITE_SEND (R179). -/
def execReleaseWriteSend (c : CtxId) (ch : Side) (tid : BitVec 32) (s : State) : Host.Outcome State Fault Refusal := .next (releaseStep s c ch tid)
/-- SEND_ARRIVAL (R218). -/
def execSendArrival (cl : ClId) (s : State) : Host.Outcome State Fault Refusal := .next (Sys2Proof.Machine.sendArrival s cl.toNat)
/-- MCAST_LANDING (R188). -/
def execMcastLanding (cl : ClId) (s : State) : Host.Outcome State Fault Refusal := .next (mcastLanding s cl.toNat)
/-- BARRIER_ARRIVAL_SEND (R231). -/
def execBarrierArrivalSend (c : CtxId) (bar : BarId) (s : State) : Host.Outcome State Fault Refusal := .next (sendArrivalOf s c bar)
/-- BARRIER_ROOT_ARRIVAL (R231). -/
def execBarrierRootArrival (bar : BarRef) (s : State) : Host.Outcome State Fault Refusal := .next (rootArrival s bar)
/-- BARRIER_FLIP_REACH (R232). -/
def execBarrierFlipReach (bar : BarRef) (cl : ClId) (s : State) : Host.Outcome State Fault Refusal := .next (flipReach s bar cl.toNat)
/-- SC_PERFORM (R187). -/
def execScPerform (c : CtxId) (ch : Side) (tid : BitVec 32) (s : State) : Host.Outcome State Fault Refusal := .next (scStep s c ch tid)
/-- REPLICA_WRITE_APPLY (R176). -/
def execReplicaWriteApply (die : BitVec 4) (s : State) : Host.Outcome State Fault Refusal := .next (applyReplica s die.toNat)
/-- REPLICA_READ_SERVE (R177). -/
def execReplicaReadServe (c : CtxId) (ch : Side) (tid : BitVec 32) (s : State) : Host.Outcome State Fault Refusal := .next (transferStep s c ch tid)
/-- STOP_LANDING (R342). -/
def execStopLanding (c : CtxId) (s : State) : Host.Outcome State Fault Refusal := .next (stopLanding s c)
/-- DEBUGGER_STOP_REQUEST (R342). -/
def execDebuggerStopRequest (c : CtxId) (code : BitVec 14) (s : State) : Host.Outcome State Fault Refusal := .next (debuggerStop s c code)
/-- DEBUGGER_ATTACH (R292). -/
def execDebuggerAttach (region : BitVec 32) (on : Bool) (s : State) : Host.Outcome State Fault Refusal := .next (debuggerAttach s region on)
/-- WATCH_CHANNEL_MATCH (R345). -/
def execWatchChannelMatch (c : CtxId) (ch : Side) (tid : BitVec 32) (s : State) : Host.Outcome State Fault Refusal := .next (watchMatch s c ch tid)
/-- SAMPLE_POINT (R341). -/
def execSamplePoint (cl : ClId) (s : State) : Host.Outcome State Fault Refusal := .next (samplePoint s cl.toNat)
/-- SEGMENT_ROLLOVER (R339). -/
def execSegmentRollover (cl : ClId) (s : State) : Host.Outcome State Fault Refusal := .next (segRollover s cl.toNat)
/-- TRACE_DRAIN (R337). -/
def execTraceDrain (cl : ClId) (s : State) : Host.Outcome State Fault Refusal := .next (drainTrace s cl.toNat)

end Sys2Proof.Machine
end

