-- ==== Sys2Proof/Machine/Gateway.lean ====
section
/-! DEFINITION. The fabric's gateways (09 R181-R186, 10 R235, 11 R237, 15 R305-R309): packets that arrive, acknowledgements, resends, resyncs, pair
keys; replication and migration of pages (09 R176, R190); page walks (15 R303). -/

namespace Sys2Proof.Machine

/-! ### What an arriving packet does (R182, R306) -/

/-- The rights that a packet needs, and the bytes that it covers. -/
def bodyNeed : PktBody → Need
  | .write _ => { w := true }
  | .read _ _ => { r := true }
  | .chase _ _ => { r := true, a := true }
  | _ => needRWA
/-- Bytes from its offset that a packet accesses. -/
def bodyLen : PktBody → Nat
  | .write l => l.length
  | .read n _ => n.toNat
  | .atom _ _ _ => 8
  | .cas4 _ _ => 32
  | .enq _ => 64
  | .deq => 64
  | .chase _ _ => 8
  | .barrier _ => 0
  | .rows _ _ _ _ => 0
/-- The alignment of a near-data operation's word. -/
def bodyAligned : PktBody → Nat → Bool
  | .atom _ _ _, a => a % 8 == 0
  | .cas4 _ _, a => a % 32 == 0
  | .enq _, a => a % 64 == 0
  | .deq, a => a % 64 == 0
  | _, _ => true
/-- Runs an operation as a party of a region at the home die of its word: a borrowed context slot of that die stands for the party, with the
die's own clock as horizon, and is put back. -/
def asParty {α : Type} (s : State) (region : W32) (tenant : BitVec 16) (die : Nat) (f : State → CtxId → Except RStop (State × α)) : Except RStop (State × α) :=
  let c := mkCtx (32 * (die % 8)) true
  let old := getCtx s c
  let party : Ctx := { prog := { region := region, tenant := tenant, horizon := (getDie s die).clock } }
  match f (setCtx s c party) c with
  | .ok r => .ok (setCtx r.1 c old, r.2)
  | .error e => .error e
/-- Bytes to write at sites of single bytes, as runs at adjacent places that end at each multiple of 8, so that an aligned word is one write (09 R175). -/
def siteRuns : List (Site × Option Byte) → List (Site × List Byte)
  | [] => []
  | (_, none) :: l => siteRuns l
  | (t, some b) :: l => match siteRuns l with
    | (u, bs) :: r => if nextTo t.place u.place then (t, b :: bs) :: r else (t, [b]) :: (u, bs) :: r
    | [] => [(t, [b])]
where
  /-- Whether a place follows another in one aligned word. -/
  nextTo : Place → Place → Bool
    | .main a, .main b => b == a + 1 && b % 8 != 0
    | .dsm d a, .dsm e b => d == e && b == a + 1 && b % 8 != 0
    | .scr c a, .scr k b => c == k && b == a + 1 && b % 8 != 0
    | _, _ => false
/-- Writes the bytes that a packet gives at consecutive sites, once the replicated pages among them take the writes. -/
def writeBytes (s : State) (c : CtxId) (sites : List Site) (l : List (Option Byte)) : Except RStop State :=
  let runs := siteRuns (sites.zip l)
  let n := (runs.filter fun p => replicated s p.1).length
  if n ≠ 0 ∧ !(canRepWrite s (dieOf s c) n) then .error (.wait true)
  else .ok (runs.foldl (fun s p => putSite s c { p.1 with va := none } p.2) s)
/-- Performs a packet's operation: the state and the reply; the status of a refusal (R306) or of the operation, which performs nothing. -/
def performBody (s : State) (p : Packet) : Except RStop (State × List Byte) := do
  let off := p.off.toNat
  let n := bodyLen p.body
  let need := bodyNeed p.body
  let site := fun (i : Nat) => match locateExport s p.region p.tenant.toNat (off + i) 1 need with
    | .ok t => Except.ok t
    | .error e => Except.error (RStop.status e)
  if off / 2 ^ 40 ≠ (off + n - 1) / 2 ^ 40 ∨ !(bodyAligned p.body off) then .error (.status permission)
  else do
    let sites ← (List.range n).mapM site
    let va := exportVa s p.region off
    let die := match sites with
      | { place := .main pa, .. } :: _ => paDie pa
      | { place := .dsm d _, .. } :: _ => d
      | _ => 0
    asParty s p.region p.tenant die fun s c => do
      match p.body with
      | .write l => do
        let s ← writeBytes s c sites l
        .ok (s, [])
      | .read _ f =>
        if sites.any fun t => f.any (· != t.fmt) then .error (.status formatMismatch)
        else .ok (s, sites.flatMap fun t => match t.place with
          | .main pa => readPa s pa 1
          | q => readPlace s die 0 q 1)
      | .atom k v e => do
        let r ← rmw s c va needRWA fun w => some (if k = 7 then (if w = v then e else w) else atomNew k.toNat w v 0)
        .ok (r.2, leBytes 8 r.1.toNat)
      | .cas4 m regs => do
        let r ← cas4 s c va m.toNat (fun i => (regs[i]?).getD 0) (fun i => (regs[4 + i]?).getD 0)
        let at_ := fun i => ((r.2.find? fun q => q.1 == i).map (·.2)).getD 0
        .ok (r.1, (List.range 5).flatMap fun i => leBytes 8 (at_ i).toNat)
      | .enq l => do
        let r ← enqueue s c va l
        .ok (r.1, leBytes 8 r.2.toNat)
      | .deq => do
        let r ← dequeue s c va
        .ok (r.1, leBytes 8 r.2.1.toNat ++ (r.2.2.getD (List.replicate 64 0)))
      | .chase ctl key => do
        let r ← chase s c (bits ctl.toNat 12 8) (bits ctl.toNat 4 8) key (bits ctl.toNat 0 4 + 1) va 0 []
        .ok (s, leBytes 8 (2 ^ 8 * r.1 + r.2.1) ++ leBytes 8 r.2.2.1)
      | .barrier _ => .ok (s, [])
      | .rows _ _ _ _ => .ok (s, [])
/-- Whether a packet is for the package tile sequencer. -/
def forSequencer : PktBody → Bool
  | .barrier _ => true
  | .rows _ _ _ _ => true
  | _ => false
/-- The package tile sequencer keeps what another package's has sent to a region (13 R275). -/
def hear (s : State) (p : Packet) : State := { s with fabric := { s.fabric with heard := s.fabric.heard ++ [(p.src, p.region, p.body)] } }
/-- The commit of a packet: the state, its status and its reply; none while a replicated page cannot take its writes (09 R178). -/
def commitPacket (s : State) (p : Packet) : Option (State × Byte × List Byte) :=
  if forSequencer p.body then
    some (if (findRegion s p.region).isSome ∧ effTenant s p.region = p.tenant.toNat then (hear s p, 0, []) else (s, permission, []))
  else match performBody s p with
  | .ok r => some (r.1, 0, r.2)
  | .error (.status e) => some (s, e, [])
  | .error (.wait _) => none

/-! ### The millrace (R182, R183) -/

/-- The state kept for a source and stream; none is a fresh one. -/
def millOf (s : State) (src : BitVec 12) (tag : W64) (stream : BitVec 4) : MillRace :=
  (s.fabric.mill.find? fun m => m.src == src && m.tag == tag && m.stream == stream).getD { src := src, tag := tag, stream := stream }
/-- Replaces it. -/
def setMill (s : State) (m : MillRace) : State :=
  { s with fabric := { s.fabric with mill := m :: s.fabric.mill.filter fun k => !(k.src == m.src && k.tag == m.tag && k.stream == m.stream) } }
/-- Sends an acknowledgement on any plane that is up (R237). -/
def sendAck (s : State) (m : MillRace) (resync : Bool) : State :=
  emit s m.src (planeFrom s.fabric.planes 0)
    (.ack m.src { peer := s.fw.fab.setWidth 12, tag := m.tag, stream := m.stream, x := m.x, map := m.map, resync := resync, results := m.results })
/-- Keeps the result of a committed packet beside those of the last 64 numbers. -/
def keepResult (m : MillRace) (seq : W32) (e : Byte) (l : List Byte) : MillRace :=
  { m with results := m.results.filter (fun r => decide ((seq - r.1).toNat < 64 ∨ 2 ^ 31 ≤ (seq - r.1).toNat)) ++ [(seq, e, l)] }
/-- A packet whose tag fails is dropped; the sixteenth on one pair within 2^20 ticks raises an alarm (15 R309). -/
def tagFailure (s : State) (src : BitVec 12) : State :=
  let l := (s.fw.tagFails ++ [(src.toNat, tick s)]).filter fun p => decide (tick s ≤ p.2 + 2 ^ 20)
  let s := modFw s fun f => { f with tagFails := l }
  if 16 ≤ (l.filter fun p => p.1 == src.toNat).length then alarm s 3 src.toNat else s
/-- Commits the window's packets that are next. -/
def drainWindow : Nat → State → MillRace → State × MillRace
  | 0, s, m => (s, m)
  | fuel + 1, s, m =>
    match m.window.find? fun p => p.seq == m.x with
    | none => (s, m)
    | some p =>
      match commitPacket s p with
      | none => (s, m)
      | some r => drainWindow fuel r.1 (keepResult { m with x := m.x + 1, window := m.window.filter fun q => q.seq != p.seq } p.seq r.2.1 r.2.2)
/-- STREAM_PACKET_ARRIVE (R182): one acknowledgement for all that an arrival commits; a packet that cannot be committed yet is not taken. -/
def streamPacket (s : State) (p : Packet) : State :=
  if p.stream = 0 ∨ s.fabric.planes = 0 then s
  else if !p.tagOk then tagFailure s p.src
  else
    let m := millOf s p.src p.tag p.stream
    let d := (p.seq - m.x).toNat
    if 2 ^ 31 ≤ d then sendAck (setMill s m) m false
    else if 64 ≤ d then s
    else if 0 < d then (if m.window.any fun q => q.seq == p.seq then s else setMill s { m with window := m.window ++ [p] })
    else
      let r := drainWindow 65 s { m with window := p :: m.window.filter fun q => q.seq != p.seq }
      if r.2.x = m.x then s else sendAck (setMill r.1 r.2) r.2 false
/-- x advances over every committed number (R183). -/
def slideMap : Nat → MillRace → MillRace
  | 0, m => m
  | fuel + 1, m => if m.map.getLsbD 0 then slideMap fuel { m with x := m.x + 1, map := m.map >>> 1 } else m
/-- STREAM0_PACKET_ARRIVE (R183). -/
def stream0Packet (s : State) (p : Packet) : State :=
  if p.stream ≠ 0 ∨ s.fabric.planes = 0 then s
  else if !p.tagOk then tagFailure s p.src
  else
    let m := millOf s p.src p.tag 0
    let d := (p.seq - m.x).toNat
    if 2 ^ 31 ≤ d ∨ (d < 64 ∧ m.map.getLsbD d) then sendAck s m false
    else if 64 ≤ d then s
    else match commitPacket s p with
      | none => s
      | some r =>
        let m := slideMap 65 (keepResult { m with map := setBit m.map d true } p.seq r.2.1 r.2.2)
        sendAck (setMill r.1 m) m false
/-- RESYNC_RECEIVE (10 R235): held packets below n are discarded and n is expected next; the resync is acknowledged. -/
def resyncReceive (s : State) (r : Resync) : State :=
  let m := millOf s r.src r.tag r.stream
  let m := { m with x := r.n, window := m.window.filter fun p => decide ((p.seq - r.n).toNat < 2 ^ 31) }
  sendAck (setMill s m) m true

/-! ### The source gateway (R184, R237) -/

/-- Whether an acknowledgement frees a held packet. -/
def acked (a : Ack) (h : HeldPkt) : Bool :=
  h.key.dst == a.peer && h.key.tag == a.tag && h.key.stream == a.stream &&
    (if h.isResync then a.resync && a.x == h.key.seq
     else
      let d := (a.x - h.key.seq).toNat
      decide (1 ≤ d ∧ d ≤ 2 ^ 31) || (a.stream == 0 && decide ((h.key.seq - a.x).toNat < 64) && a.map.getLsbD (h.key.seq - a.x).toNat))
/-- A packet of the package tile sequencer fails. -/
def seqFail (s : State) (h : HeldPkt) (e : Byte) : State :=
  if h.key.tag = s.fabric.seqCon.tag then { s with fabric := { s.fabric with seqFails := s.fabric.seqFails ++ [(h.key, e)] } } else s
/-- What an acknowledgement says of a packet: its status and its reply. -/
def resultOf (a : Ack) (h : HeldPkt) : Option (Byte × List Byte) := if h.isResync then none else (a.results.find? fun r => r.1 == h.key.seq).map (·.2)
/-- A packet of a transfer is settled: its reply is kept, its failure is the transfer's status. -/
def settlePacket (s : State) (a : Ack) (h : HeldPkt) : State :=
  let r := (resultOf a h).getD (0, [])
  match h.owner.2 with
  | none => if r.1 ≠ 0 then seqFail s h r.1 else s
  | some (ch, tid) => match findXfer (getCtx s h.owner.1) ch tid with
    | none => s
    | some t => putXfer s h.owner.1 ch { t with
        pkts := t.pkts.filter (· != h.key), reply := if r.2.isEmpty then t.reply else t.reply ++ [(h.key, r.2)], status := if t.status = 0 then r.1 else t.status }
/-- The end of an `srst`: every resync is acknowledged and the mark is cleared (10 R235). -/
def endReset (s : State) (c : CtxId) (ch : Side) (tid : W32) : State :=
  match findXfer (getCtx s c) ch tid with
  | some t =>
    if (cView t.op).kind = .reset ∧ t.phase = .packetsOut ∧ t.pkts.isEmpty then
      let s := modCtx s c fun x => { x with con := { x.con with broken := setBit x.con.broken (bits (xarg t 0).toNat 0 4) false } }
      finishAt s c ch tid t.status []
    else s
  | none => s
/-- Lets every transfer of a context go on that an open window or an answer lets go on. -/
def kickAll (s : State) (c : CtxId) : State :=
  [Side.a, Side.b].foldl (fun s ch => ((chanOf (getCtx s c) ch).xfers.map (·.tid)).foldl (fun s t => endReset (kick s c ch t) c ch t) s) s
/-- ACK_RECEIVE (R237). -/
def ackReceive (s : State) (a : Ack) : State :=
  let go := s.fabric.held.filter (acked a)
  let s := { s with fabric := { s.fabric with held := s.fabric.held.filter fun h => !(acked a h) } }
  let s := go.foldl (fun s h => settlePacket s a h) s
  pumpHoist (((go.map (·.owner.1)).eraseDups).foldl (fun s c => kickAll s c) s)
/-- Sends a held packet on a plane and starts its timer afresh. -/
def sendAgain (s : State) (h : HeldPkt) (plane : Nat) (count : Bool) : State :=
  let h' := { h with plane := plane, expires := tick s + 8000, resends := if count then h.resends + 1 else h.resends }
  emit { s with fabric := { s.fabric with held := s.fabric.held.map fun k => if k.key = h.key ∧ k.isResync = h.isResync then h' else k } } h.key.dst plane (outOf h' plane)
/-- A transfer fails with REMOTE_NACK: nothing more of it is sent and its stream is broken (R184); an `srst` leaves the mark set (10 R235). -/
def nack (s : State) (h : HeldPkt) : State :=
  match h.owner.2 with
  | none => seqFail { s with fabric := { s.fabric with held := s.fabric.held.filter fun k => !(k.key == h.key && k.isResync == h.isResync) } } h remoteNack
  | some (ch, tid) =>
    let s := { s with fabric := { s.fabric with held := s.fabric.held.filter fun k => k.owner != h.owner } }
    let s := if h.isResync then s else breakStream s h.owner.1 h.key.stream
    kickAll (finishAt s h.owner.1 ch tid remoteNack []) h.owner.1
/-- PACKET_RESEND_TIMEOUT (R184). -/
def resendTimeout (s : State) (k : PktKey) : State :=
  match s.fabric.held.find? fun h => h.key == k && decide (h.expires ≤ tick s) with
  | none => s
  | some h => if 16 ≤ h.resends then nack s h else sendAgain s h (planeFrom s.fabric.planes ((h.plane + 1) % 8)) true
/-- PLANE_FAIL (R184): its unacknowledged packets take the round-robin positions of new ones. -/
def planeFail (s : State) (plane : BitVec 3) : State :=
  let s := { s with fabric := { s.fabric with planes := setBit s.fabric.planes plane.toNat false } }
  let s := (s.fabric.held.filter fun h => h.plane == plane.toNat).foldl (fun s h =>
    let p := planeFrom s.fabric.planes s.fabric.nextPlane
    sendAgain { s with fabric := { s.fabric with nextPlane := (p + 1) % 8 } } h p false) s
  sendTelemetry s 0x0301 (leBytes 1 s.fabric.planes.toNat ++ leBytes 4 (s.fabric.held.foldl (fun n h => n + h.resends) 0) ++ leBytes 4 s.fw.tagFails.length)

/-! ### Stream reset at the source (10 R235) -/

/-- Whether every packet of a stream is acknowledged or its transfer has failed: none is held or waits to be sent, and no earlier transfer of it is
under way. -/
def streamSettled (s : State) (c : CtxId) (t : Xfer) (n : Nat) : Bool :=
  let x := getCtx s c
  !(s.fabric.held.any fun h => h.key.tag == x.con.tag && h.key.stream.toNat == n && h.owner.1 == c) &&
    [Side.a, Side.b].all fun ch => (chanOf x ch).xfers.all fun u => (cView u.op).stream.toNat != n || (u.queue.isEmpty && !(decide (u.seq < t.seq) && u.phase != .arrived))
/-- STREAM_RESYNC: a resync goes to each destination that packets of the stream went to since the last reset; a die of the package takes it at
once. -/
def streamResync (s : State) (c : CtxId) (ch : Side) (tid : W32) : State :=
  match findXfer (getCtx s c) ch tid with
  | none => s
  | some t =>
    let n := bits (xarg t 0).toNat 0 4
    if (cView t.op).kind ≠ .reset ∨ t.phase ≠ .fenced ∨ !(streamSettled s c t n) then s
    else
      let x := getCtx s c
      let go := x.con.ctrs.filter fun k => k.stream.toNat == n && k.sent
      let far := go.filter fun k => decide (k.dst < 4096)
      let keys := far.map fun k => ({ dst := .ofNat 12 k.dst, tag := x.con.tag, stream := .ofNat 4 n, seq := k.next } : PktKey)
      let s := putXfer s c ch { t with phase := .packetsOut, pkts := keys }
      let s := modCtx s c fun x => { x with con := { x.con with ctrs := x.con.ctrs.map fun k => if k.stream.toNat = n then { k with sent := false } else k } }
      let s := keys.foldl (fun s k => sendNew s k x.prog.tenant 0 0 (.write []) (c, some (ch, tid)) true) s
      endReset s c ch tid

/-! ### Pair keys (15 R309), peers (15 R305) -/

/-- PAIR_REKEY: the key of a pair, which covers every plane, is replaced and its counters start again. -/
def pairRekey (s : State) (peer : BitVec 12) (_plane : BitVec 3) : State :=
  modFw s fun f => { f with
    pairKeys := tabSet f.pairKeys peer.toNat (Config.freshKey f.keyFills), keyFills := f.keyFills + 1
    pairCtr := f.pairCtr.filter fun p => p.1 / 8 != peer.toNat }
/-- PEER_WITHDRAW: peer.enabled of a populated entry is cleared, or set again; or the fabric-management core learns whether the entry's package holds a
region of a tenant, so that the peer is inside the tenant's partition (09 R185, R305). -/
def peerWithdraw (s : State) (region : W32) (peer : BitVec 12) (holds : Option Bool) : State :=
  let a := effPeertable s region + 8 * peer.toNat
  let e := leNat (readPa s a 8)
  if effPeertable s region = 0 ∨ !(bitAt e 0) then s
  else match holds with
    | none => writePa s a (leBytes 8 (if bitAt e 1 then e - 2 else e + 2))
    | some b =>
      let k := (BitVec.ofNat 12 (bits e 4 12), BitVec.ofNat 16 (effTenant s region))
      let l := s.fabric.apart.filter (· != k)
      { s with fabric := { s.fabric with apart := if b then l else k :: l } }

/-! ### Pages (09 R176, R190, 15 R303) -/

/-- The physical address of the leaf entry of an address, with the entry and its level. -/
def leafAt (m : Memory) (va : Nat) : Nat → Nat → Option (Nat × Nat × Nat)
  | 0, _ => none
  | fuel + 1, t =>
    let a := t + 8 * ptIndex fuel va
    let e := leNat (cellRead m a 8)
    if !(bitAt e 0) then none else if bitAt e 1 then some (a, e, fuel) else if fuel = 0 then none else leafAt m va fuel (bits e 8 31 * 256)
/-- The page of an address: leaf entry's address, entry, frame, size. -/
def pageOf (s : State) (region : W32) (va : Nat) : Option (Nat × Nat × Nat × Nat) :=
  if effPtroot s region = 0 then none
  else match leafAt s.mem va 5 (effPtroot s region) with
    | some (a, e, lvl) => match translate s region (va / pageSize lvl * pageSize lvl) {} with
      | .ok t => some (a, e, t.pa, t.size)
      | .error _ => none
    | none => none
/-- PAGE_MIGRATION_START (R190): a frame of the target die takes the page's bytes, and every later write reaches both. -/
def migrationStart (s : State) (region : W32) (va : W64) (die : BitVec 3) : State :=
  match pageOf s region va.toNat with
  | none => s
  | some (_, e, pa, size) =>
    if s.migrations.any (fun g => g.old == pa) ∨ replicaMask s pa ≠ 0 then s
    else match takeFrame s die.toNat size (1 + b2n (bitAt e 6)) with
      | none => s
      | some (new, s) =>
        { s with
          mem := cellBlit s.mem new (cellRead s.mem pa size)
          migrations := s.migrations ++ [{ va := .ofNat 64 (va.toNat / size * size), region := region, old := pa, new := new, size := size }] }
/-- The transfers of every context name the dies that their addresses lead to now: a request goes to the new agent in its stream's order (R190, R202). -/
def retarget (s : State) : State :=
  (residents s fun _ _ => true).foldl (fun s c => [Side.a, Side.b].foldl (fun s ch => modCtx s c fun x =>
    setChan x ch { chanOf x ch with xfers := (chanOf x ch).xfers.map fun t => if t.planned then { t with dests := (packetDsts s c t).eraseDups } else t }) s) s
/-- MIGRATION_CUTOVER (R190): the translation leads to the new frame from now on; duplicate state is the package's own and needs no move. -/
def migrationCutover (s : State) (page : W64) : State :=
  match s.migrations.find? fun g => g.va == page with
  | none => s
  | some g =>
    let s := { s with migrations := s.migrations.filter fun h => h != g }
    match pageOf s g.region g.va.toNat with
    | some (a, e, pa, _) => if pa = g.old then retarget (writePa s a (leBytes 8 (e - bits e 16 23 * 2 ^ 16 + g.new / 2 ^ 16 * 2 ^ 16))) else s
    | none => s
/-- PAGE_REPLICATION (R176): each named die holds a copy of the page. -/
def replicate (s : State) (region : W32) (va : W64) (dies : BitVec 8) : State :=
  match pageOf s region va.toNat with
  | none => s
  | some (_, _, pa, size) =>
    if dies = 0 ∨ replicaMask s pa ≠ 0 ∨ s.migrations.any (fun g => g.old == pa) then s
    else
      let frames := (List.range (size / 65536)).map (pa / 65536 + ·)
      let s := { s with repPages := frames.foldl (fun c f => cellSet c f dies) s.repPages }
      ((List.range 8).filter fun d => dies.getLsbD d).foldl (fun s d => modDie s d fun x =>
        { x with replicas := frames.foldl (fun t f => tabSet t f ((s.mem.filter fun p => p.1 / 65536 == f).map fun p => (p.1 % 65536, p.2))) x.replicas }) s
/-- Whether a walk meets an entry that is in use and malformed. -/
def malformed (m : Memory) (va : Nat) : Nat → Nat → Bool
  | 0, _ => false
  | fuel + 1, t =>
    let e := leNat (cellRead m (t + 8 * ptIndex fuel va) 8)
    if !(bitAt e 0) then false
    else if bitAt e 1 then
      decide (2 < fuel ∨ bits e 62 2 ≠ 0 ∨ bits e 39 13 ≠ 0 ∨ e / 2 ^ 16 % 2 ^ 23 * 2 ^ 16 % pageSize fuel ≠ 0) || bitAt e 7
    else if bits e 39 25 ≠ 0 ∨ bits e 2 6 ≠ 0 ∨ fuel = 0 then true
    else malformed m va fuel (bits e 8 31 * 256)
/-- PAGE_WALK_DONE (15 R303): accesses walk the tables themselves; a malformed entry sends an error record to the memory-management core. -/
def pageWalk (s : State) (region : W32) (va : W64) : State :=
  if effPtroot s region ≠ 0 ∧ malformed s.mem va.toNat 5 (effPtroot s region) then modFw s fun f => { f with walkErrs := f.walkErrs ++ [(region, va)] } else s

end Sys2Proof.Machine
end

