-- ==== Sys2Proof/Machine/ExecFabric.lean ====
section
/-! DEFINITION. The steps of the package fabric and of paging. -/

namespace Sys2Proof.Machine

/-- STREAM_PACKET_ARRIVE (R182). -/
def execStreamPacketArrive (p : Packet) (s : State) : Host.Outcome State Fault Refusal := .next (streamPacket s p)
/-- STREAM0_PACKET_ARRIVE (R183). -/
def execStream0PacketArrive (p : Packet) (s : State) : Host.Outcome State Fault Refusal := .next (stream0Packet s p)
/-- ACK_RECEIVE (R237). -/
def execAckReceive (a : Ack) (s : State) : Host.Outcome State Fault Refusal := .next (ackReceive s a)
/-- PACKET_RESEND_TIMEOUT (R184). -/
def execPacketResendTimeout (k : PktKey) (s : State) : Host.Outcome State Fault Refusal := .next (resendTimeout s k)
/-- PLANE_FAIL (R184). -/
def execPlaneFail (plane : BitVec 3) (s : State) : Host.Outcome State Fault Refusal := .next (planeFail s plane)
/-- STREAM_RESYNC (R235). -/
def execStreamResync (c : CtxId) (ch : Side) (tid : BitVec 32) (s : State) : Host.Outcome State Fault Refusal := .next (streamResync s c ch tid)
/-- RESYNC_RECEIVE (R235). -/
def execResyncReceive (r : Resync) (s : State) : Host.Outcome State Fault Refusal := .next (resyncReceive s r)
/-- PAIR_REKEY (R309). -/
def execPairRekey (peer : BitVec 12) (plane : BitVec 3) (s : State) : Host.Outcome State Fault Refusal := .next (pairRekey s peer plane)
/-- MIGRATION_CUTOVER (R190). -/
def execMigrationCutover (page : BitVec 64) (s : State) : Host.Outcome State Fault Refusal := .next (migrationCutover s page)
/-- PAGE_WALK_DONE (R303). -/
def execPageWalkDone (region : BitVec 32) (va : BitVec 64) (s : State) : Host.Outcome State Fault Refusal := .next (pageWalk s region va)
/-- PEER_WITHDRAW (R305). -/
def execPeerWithdraw (region : BitVec 32) (p : PeerIn) (s : State) : Host.Outcome State Fault Refusal :=
  .next (peerWithdraw s region p.peer p.holds)
/-- PAGE_MIGRATION_START (R190). -/
def execPageMigrationStart (region : BitVec 32) (va : BitVec 64) (die : BitVec 3) (s : State) : Host.Outcome State Fault Refusal := .next (migrationStart s region va die)
/-- PAGE_REPLICATION (R176). -/
def execPageReplication (region : BitVec 32) (va : BitVec 64) (dies : BitVec 8) (s : State) : Host.Outcome State Fault Refusal := .next (replicate s region va dies)

end Sys2Proof.Machine
end

