-- ==== Sys2Proof/Machine/HostAccess.lean ====
section
/-! DEFINITION. Accesses of the application cores and of the command core to main memory as parties of die 8 (09 R180), the structures that the
firmware owns (15 R297). -/

namespace Sys2Proof.Machine

/-! ### What an access may reach (R297, R302) -/

/-- Whether two ranges of bytes meet. -/
def meet (a n b m : Nat) : Bool := decide (a < b + m ∧ b < a + n)
/-- Whether some bytes lie in firmware memory: the frames of page tables, control blocks, the root tables and peer tables of the regions. -/
def firmwareMem (s : State) (pa n : Nat) : Bool :=
  let v := asInstalled s
  (s.fw.frames.any fun f => f.2.2 == 0 && meet pa n f.1 f.2.1) ||
    s.regions.any fun r =>
      (r.id != 0 && meet pa n r.addr.toNat 256) || (effPtroot v r.id != 0 && meet pa n (effPtroot v r.id) 32768) ||
        (effPeertable v r.id != 0 && meet pa n (effPeertable v r.id) 32768)
/-- Whether some bytes lie in a frame of a region that the application cores' tables may not map, or beyond a stack (01 R17). -/
def hostClosed (s : State) (pa n : Nat) : Bool :=
  (s.fw.frames.any fun f => f.2.2 == 1 && meet pa n f.1 f.2.1) || decide (64 * 10 ^ 9 < pa % 2 ^ 36 + n)
/-- The application cores' space, taken as physical (log entry 43). -/
def appPa (a : Nat) : Nat := a % 2 ^ 39

/-! ### Accesses (R180) -/

/-- The state with the host die's party in a context's place; its horizon is that of all the application cores and the command core (log entry 103). -/
def asApp (s : State) : State := setCtx s sequencer { prog := { host := true, horizon := s.fw.appH } }
/-- The state after the party's access, with the contexts back. -/
def fromApp (s t : State) : State :=
  let h := (getCtx t sequencer).prog.horizon
  modFw { t with cx := s.cx, others := s.others } fun f => { f with appH := h }
/-- Whether the party's access to some bytes can be performed now: a read waits for the clock (R177), a write of a replicated page for the lag (R178). -/
def appReady (s : State) (a n : Nat) (write : Bool) : Bool :=
  (pieces (appPa a) n).all fun p => if write then replicaMask s p.1 == 0 || canRepWrite s 8 1 else canRead (asApp s) sequencer p.1
/-- A store: to firmware memory it is not performed and raises the alarm of a privileged violation (R297, R312); to a frame that the tables may not map
it does nothing; else it is a write by a party of die 8, which carries its horizon. The command core's own records do not wait for a lagging die (log
entry 103). -/
def appStore (s : State) (a : Nat) (l : List Byte) : State :=
  let pa := appPa a
  if firmwareMem s pa l.length then alarm s 3 1
  else if hostClosed s pa l.length then s
  else fromApp s ((pieces pa l.length).foldl (fun t p => writeMain t sequencer p.1 ((l.drop (p.1 - pa)).take p.2)) (asApp s))
/-- The bytes of a load, which reads the primaries: none from firmware memory or a frame that the tables may not map. -/
def appBytes (s : State) (a n : Nat) : List Byte :=
  if firmwareMem s (appPa a) n || hostClosed s (appPa a) n then [] else readPa s (appPa a) n
/-- The clocks that a load's reply carries reach the party's horizon (R177). -/
def appSeen (s : State) (a n : Nat) : State :=
  fromApp s ((pieces (appPa a) n).foldl (fun t p => readReply t sequencer (paDie p.1)) (asApp s))
/-- A load that can be performed; the value is kept where an observer of the application cores finds it. -/
def appLoad (s : State) (a n : Nat) : State :=
  if (appBytes s a n).isEmpty then modFw s fun f => { f with appRead := [] }
  else if appReady s a n false then modFw (appSeen s a n) fun f => { f with appRead := appBytes s a n }
  else s

end Sys2Proof.Machine
end

