-- ==== Sys2Proof/Machine/Image.lean ====
section
/-! DEFINITION. A context image (16 R318): the core head in its save form, header, directory, units, and their reading back. -/

namespace Sys2Proof.Machine

/-- A field of an image: offset, bytes. -/
abbrev Field := Nat × List Byte
/-- A little-endian field. -/
def fld (off n v : Nat) : Field := (off, leBytes n v)
/-- Fields of one width after one another. -/
def flds (off n : Nat) (l : List Nat) : List Field := l.zipIdx.map fun p => fld (off + n * p.2) n p.1
/-- The bytes [base, base + n) that some fields give, 0 elsewhere. -/
def fieldBytes (l : List Field) (base n : Nat) : List Byte := cellRead (l.foldl (fun m f => cellBlit m f.1 f.2) ([] : Cells 8)) base n

/-! ### The core head -/

/-- A loop register (R318). -/
def loopBytes (l : Loop) : List Byte :=
  leBytes 4 l.count.toNat ++ leBytes 4 l.stages.toNat ++ leBytes 4 l.iter ++ leBytes 4 l.passes ++ leBytes 4 l.start.toNat ++
    leBytes 4 (b2n l.active + 2 * b2n l.exit) ++ leBytes 8 0
/-- Reads a loop register: the passes are those of its count and stages, whose 32 low bits the image holds (log entry 10). -/
def loopOf (l : List Byte) : Loop :=
  let w (k : Nat) : Nat := leNat ((l.drop (4 * k)).take 4)
  let full := if 1 ≤ w 0 then w 0 + w 1 - 1 else 1
  { count := .ofNat 32 (w 0), stages := .ofNat 32 (w 1), iter := w 2, passes := if full % 2 ^ 32 = w 3 then full else w 3, start := .ofNat 32 (w 4), active := bitAt (w 5) 0, exit := bitAt (w 5) 1 }
/-- The slots that hold a sticky record, in the order of R318. -/
def stickySlots : List Nat := [0, 2, 3, 4, 5, 6, 7]
/-- Sticky records and their full bits. -/
def stickyFields (off bitsOff more : Nat) (v : Vector (Option Sticky) 8) : List Field :=
  (stickySlots.zipIdx.flatMap fun p => match (v[p.1]?).getD none with
    | some r => [fld (off + 16 * p.2) 8 r.word.toNat, fld (off + 16 * p.2 + 8) 8 r.disp.toNat]
    | none => []) ++
  [fld bitsOff 8 (more + ((List.range 8).foldl (fun n k => n + b2n ((v[k]?).getD none).isSome * 2 ^ k) 0))]
/-- Reads sticky records. -/
def stickyOf (rd : Nat → Nat → Nat) (off bitsOff : Nat) : Vector (Option Sticky) 8 :=
  .ofFn fun k => match (stickySlots.zipIdx.find? fun p => p.1 == k.val) with
    | some p => if bitAt (rd bitsOff 8) k.val then some { word := .ofNat 64 (rd (off + 16 * p.2) 8), disp := .ofNat 64 (rd (off + 16 * p.2 + 8) 8) } else none
    | none => none
/-- The held edge: raw elements, scale bytes, format code, filled bit (the layout within the field is the model's, log entry 33). -/
def heldFields (h : Held) : List Field :=
  [(0x1E00, rowBytes h.raw 256), (0x1F00, rowBytes h.scale 128), fld 0x1F80 1 h.code.toNat, fld 0x1F81 1 (b2n h.filled)]
/-- A failure list: identifier, status, valid (log entry 33). -/
def failFields (off : Nat) (l : List (W32 × Byte)) : List Field :=
  (l.zipIdx.filter fun p => decide (p.2 < 64)).map fun p => (off + 16 * p.2, leBytes 4 p.1.1.toNat ++ [p.1.2, 1])
/-- Stream entries: destination, next number, stream, sent, broken (log entry 33). -/
def streamFields (x : Conts) : List Field :=
  x.ctrs.zipIdx.map fun p =>
    (0x3000 + 16 * p.2, leBytes 4 p.1.dst ++ leBytes 4 p.1.next.toNat ++ [p.1.stream.setWidth 8, .ofNat 8 (b2n p.1.sent + 2 * b2n (x.broken.getLsbD p.1.stream.toNat))])
/-- A barrier leaf. -/
def leafWord (l : Leaf) : Nat := l.desc.toNat + 2 ^ 48 * b2n l.sent + 2 ^ 49 * b2n l.phase + 2 ^ 50 * b2n l.flipped + 2 ^ 63
/-- Registers, control state, forms, masks and counters. -/
def headFields1 (x : Ctx) : List Field :=
  flds 0x1000 8 ((List.range 64).map fun k => (sGet x.r k).toNat) ++ flds 0x1200 8 ((List.range 32).map fun k => (cellGet x.r.d k).toNat) ++
    flds 0x1300 8 ((List.range 32).map fun k => (cellGet x.r.e k).toNat) ++
  [fld 0x1400 8 (x.r.pc.toNat % 2 ^ 18), fld 0x1408 8 ((x.r.g ||| 1).toNat + 256 * x.r.q.toNat)] ++
  (x.r.loops.toList.zipIdx.map fun p => (0x1410 + 32 * p.2, loopBytes p.1)) ++
  flds 0x1490 8 ((List.range 8).map fun k => (cellGet x.r.b k).toNat + 2 ^ 32 * (cellGet x.r.bstep k).toNat) ++
  flds 0x14D0 8 (x.r.rstack.map (·.toNat)) ++ [fld 0x1510 8 x.r.rstack.length, fld 0x1518 8 (vrotWord x.va).toNat, fld 0x1520 8 (vrotWord x.vb).toNat] ++
  flds 0x1600 8 (x.ctl.forms.toList.map (·.toNat)) ++ stickyFields 0x1740 0x17B0 0 x.ctl.sticky ++ [fld 0x17B8 8 x.ctl.rptidx.toNat] ++
  flds 0x1800 8 ((List.range 16).map fun k => (maskGet x .a k).toNat) ++ flds 0x1880 8 ((List.range 16).map fun k => (maskGet x .b k).toNat) ++
  flds 0x1900 8 [x.sys.fflags.toNat, (accstWord x.m).toNat, x.sys.pthresh.toNat, (dictbaseWord x.ctl).toNat, x.va.key.toNat % 2 ^ 64, x.va.key.toNat / 2 ^ 64,
    x.va.ctr.toNat % 2 ^ 64, x.va.ctr.toNat / 2 ^ 64, x.vb.key.toNat % 2 ^ 64, x.vb.key.toNat / 2 ^ 64, x.vb.ctr.toNat % 2 ^ 64, x.vb.ctr.toNat / 2 ^ 64,
    x.m.mpa.toNat, x.m.mpb.toNat, x.m.mpd.toNat, x.sys.sfsel.toNat, x.prog.starve, x.prog.spin, x.m.t0.beats, x.m.t1.beats, x.run.cyc]
/-- Latches, tags, held edge, ordering state, failure lists, monitor, barrier leaves, stream counters. -/
def headFields2 (x : Ctx) : List Field :=
  (x.m.latch.toList.zipIdx.map fun p => (0x1A00 + 128 * p.2, rowBytes p.1 128)) ++ [(0x1C00, cellRead x.sys.tags 0 512)] ++ heldFields x.m.held ++
  flds 0x2200 4 (x.prog.horizon.toList.map (·.toNat)) ++
  flds 0x2228 8 [x.con.c0.tid.toNat, (chanDone x.con.c0).toNat, x.con.c1.tid.toNat, (chanDone x.con.c1).toNat, x.con.tag.toNat,
    b2n x.prog.starved + 2 * b2n x.prog.strict + 4 * b2n x.prog.kind01 + 8 * b2n x.prog.yielded] ++
  failFields 0x2400 x.con.c0.fails ++ failFields 0x2800 x.con.c1.fails ++
  flds 0x2C00 8 ([x.mon.mcause.toNat, x.mon.mepc.toNat, x.mon.mrpt.toNat, x.mon.mtval.toNat, b2n x.mon.dbg + 2 * b2n x.mon.esc, 0x3C000] ++
    x.mon.mscratch.toList.map (·.toNat) ++ x.mon.wpaddr.toList.map (·.toNat) ++ x.mon.wpmask.toList.map (·.toNat) ++ [x.mon.ctxCode.toNat + 256 * b2n x.mon.ctxBusy] ++
    x.mon.watch.toList.flatMap fun w => [w.addr.toNat, w.mask.toNat, b2n w.armed]) ++
  flds 0x2D18 8 (x.mon.bank.toList.map (·.toNat)) ++ stickyFields 0x2D98 0x2E08 (2 ^ 63 * b2n x.mon.active) x.mon.bankSticky ++
  flds 0x2E80 8 ((x.prog.leaves.reverse.take 48).map leafWord) ++ streamFields x.con
/-- The core head in its save form, bytes 0x1000 to 0xFFFF of the image. -/
def headBytes (x : Ctx) : List Byte := fieldBytes (headFields1 x ++ headFields2 x) 0x1000 0xF000

/-! ### Header, directory, units -/

/-- Units of a footprint in recency order: most recent stamp first, ties by ascending number. -/
def recencyList (x : Ctx) : List Nat :=
  let key (u : Nat) : Nat := (cellGet x.prog.recency u).toNat
  sortBy (fun a b => decide (key b < key a ∨ (key a = key b ∧ a ≤ b))) ((List.range 800).filter x.prog.footprint.contains)
/-- Offset of a unit in an image and its size (R318). -/
def unitSpan (u : Nat) : Nat × Nat := if u < 768 then (0x10000 + 4096 * u, 4096) else (0x310000 + 32768 * (u - 768), 32768)
/-- The bytes of a unit in its image layout. -/
def unitBytes (x : Ctx) (u : Nat) : List Byte :=
  if u < 512 then cellRead x.prog.scratch (4096 * u) 4096
  else if u < 768 then
    let sd : Side := if u < 640 then .a else .b
    (List.range 16).flatMap fun k => rowBytes (rowGet x sd (16 * ((u - 512) % 128) + k)) 256
  else (List.range 8).flatMap fun k => rowBytes (accGet x ((u - 768) / 16) (8 * ((u - 768) % 16) + k)) 4096
/-- A context with a unit's bytes. -/
def putUnit (x : Ctx) (u : Nat) (l : List Byte) : Ctx :=
  if u < 512 then { x with prog := { x.prog with scratch := cellBlit x.prog.scratch (4096 * u) (l.take 4096) } }
  else if u < 768 then
    let sd : Side := if u < 640 then .a else .b
    (List.range 16).foldl (fun x k => rowSet x sd (16 * ((u - 512) % 128) + k) (.ofNat 2048 (leNat ((l.drop (256 * k)).take 256)))) x
  else (List.range 8).foldl (fun x k => accSet x ((u - 768) / 16) (8 * ((u - 768) % 16) + k) (.ofNat 32768 (leNat ((l.drop (4096 * k)).take 4096)))) x
/-- Whether an image may be restored only at its position: it holds an arrival that has not flipped (R320). -/
def positionBound (x : Ctx) : Bool := x.prog.leaves.any fun l => !l.flipped
/-- Header fields but the digest (R318). -/
def headerFields (s : State) (c : CtxId) (x : Ctx) (cause : Byte) (group : W64) : List Field :=
  [fld 0 4 0x4B514349, fld 4 2 1, fld 6 1 (b2n (isPrim s c) + 2 * b2n (group != 0) + 12 * b2n (positionBound x)),
   fld 7 1 (c.core.toNat % 8 + 8 * (ctxCl c % 4) + 32 * ctxDie c), fld 8 2 x.prog.tenant.toNat, fld 0x0A 1 cause.toNat, fld 0x0C 4 x.prog.region.toNat, fld 0x10 8 group.toNat,
   fld 0x18 8 (tick s), fld 0x20 4 x.prog.serial.toNat, fld 0x24 4 x.prog.kernel.toNat, fld 0x28 4 x.con.ctrs.length, fld 0x2C 4 x.prog.footprint.length]
/-- The first 0x1_0000 bytes of the image of a context: header with digest, directory with every footprint unit pending, recency list, core head. -/
def imageStart (s : State) (c : CtxId) (x : Ctx) (cause : Byte) (group : W64) : List Byte :=
  let hd := fieldBytes (headerFields s c x cause group) 0 0x30
  let head := headBytes x
  let dir := (List.range 800).map fun u => if x.prog.footprint.contains u then (1 : Byte) else 0
  let rec_ := recencyList x
  let list := (rec_ ++ List.replicate (800 - rec_.length) 0xFFFF).flatMap (leBytes 2)
  hd ++ shake256 16 (hd ++ head) ++ List.replicate 0x40 0 ++ dir ++ list ++ List.replicate 0x620 0 ++ head

/-! ### Reading an image back -/

/-- An image as read: a field by offset and width. -/
def imgField (l : List Byte) (off n : Nat) : Nat := leNat ((l.drop off).take n)
/-- Registers of a channel as restored: nothing incomplete, failures as listed. -/
def chanOfImage (rd : Nat → Nat → Nat) (off fails : Nat) : Chan :=
  { tid := .ofNat 32 (rd off 8)
    fails := ((List.range 64).filter fun k => rd (fails + 16 * k + 5) 1 == 1).map fun k => (.ofNat 32 (rd (fails + 16 * k) 4), .ofNat 8 (rd (fails + 16 * k + 4) 1)) }
/-- A vector file's masks, rotation and generator as restored. -/
def fileOfImage (rd : Nat → Nat → Nat) (masks rot gen : Nat) : VFile :=
  { masks := ((List.range 16).map fun k => (k, BitVec.ofNat 64 (rd (masks + 8 * k) 8)))
    base := .ofNat 11 (rd rot 8 % 2 ^ 11), rot := .ofNat 11 (rd rot 8 / 2 ^ 16), key := .ofNat 128 (rd gen 16), ctr := .ofNat 128 (rd (gen + 16) 16) }
/-- A tile as restored. -/
def tileOfImage (rd : Nat → Nat → Nat) (k : Nat) : Tile :=
  let w := rd 0x1908 8
  { mode := .ofNat 2 (bits w (6 + 2 * k) 2), anchor := .ofNat 11 (bits w (16 + 16 * k) 11), lost := bitAt w (1 + 4 * k), sat := bitAt w (4 * k), beats := rd (0x1990 + 8 * k) 8 }
/-- Barrier leaves as restored; each has no transfer left. -/
def leavesOfImage (rd : Nat → Nat → Nat) : List Leaf :=
  (((List.range 48).map fun k => rd (0x2E80 + 8 * k) 8).filter fun w => bitAt w 63).reverse.map fun w =>
    { id := ⟨.ofNat 2 (bits w 12 2), .ofNat 4 (bits w 8 4)⟩, desc := .ofNat 48 w, sent := bitAt w 48, phase := bitAt w 49, flipped := bitAt w 50, tid := 0, ch := .a, seq := 0 }
/-- Stream counters as restored. -/
def ctrsOfImage (rd : Nat → Nat → Nat) (n : Nat) : List StreamCtr :=
  (List.range n).map fun k =>
    { dst := rd (0x3000 + 16 * k) 4, next := .ofNat 32 (rd (0x3004 + 16 * k) 4), stream := .ofNat 4 (rd (0x3008 + 16 * k) 1), sent := bitAt (rd (0x3009 + 16 * k) 1) 0 }
/-- Streams whose broken mark is restored. -/
def brokenOfImage (rd : Nat → Nat → Nat) (n : Nat) : BitVec 16 :=
  (List.range n).foldl (fun b k => if bitAt (rd (0x3009 + 16 * k) 1) 1 then setBit b (rd (0x3008 + 16 * k) 1) true else b) 0
/-- The core head that an image holds; %imap and the template store are rebuilt, %rowprog is clear (R318). -/
def headOf (l : List Byte) : Ctx :=
  let rd (off n : Nat) : Nat := imgField l off n
  let w64 (off : Nat) : W64 := .ofNat 64 (rd off 8)
  let regs : Regs := {
    s := cellBlit [] 0 ((List.range 64).map fun k => w64 (0x1000 + 8 * k)), d := cellBlit [] 0 ((List.range 32).map fun k => w64 (0x1200 + 8 * k))
    e := cellBlit [] 0 ((List.range 32).map fun k => w64 (0x1300 + 8 * k)), pc := .ofNat 32 (rd 0x1400 8 % 2 ^ 18), g := .ofNat 8 (rd 0x1408 1), q := .ofNat 8 (rd 0x1409 1)
    loops := .ofFn fun k => loopOf ((l.drop (0x1410 + 32 * k.val)).take 32)
    b := cellBlit [] 0 ((List.range 8).map fun k => BitVec.ofNat 32 (rd (0x1490 + 8 * k) 4)), bstep := cellBlit [] 0 ((List.range 8).map fun k => BitVec.ofNat 32 (rd (0x1494 + 8 * k) 4))
    rstack := (List.range (min 8 (rd 0x1510 8))).map fun k => BitVec.ofNat 32 (rd (0x14D0 + 8 * k) 8 % 2 ^ 18) }
  let mat : Mat := {
    t0 := tileOfImage rd 0, t1 := tileOfImage rd 1, mpa := w64 0x1960, mpb := w64 0x1968, mpd := w64 0x1970
    held := { filled := bitAt (rd 0x1F81 1) 0, code := .ofNat 6 (rd 0x1F80 1), raw := .ofNat 2048 (rd 0x1E00 256), scale := .ofNat 1024 (rd 0x1F00 128) }
    latch := .ofFn fun k => .ofNat 1024 (rd (0x1A00 + 128 * k.val) 128) }
  let flags := rd 0x2250 8
  let mon : Mon := {
    mcause := .ofNat 13 (rd 0x2C00 8), mepc := .ofNat 18 (rd 0x2C08 8), mrpt := .ofNat 4 (rd 0x2C10 8), mtval := w64 0x2C18, dbg := bitAt (rd 0x2C20 8) 0, esc := bitAt (rd 0x2C20 8) 1
    mscratch := .ofFn fun k => w64 (0x2C30 + 8 * k.val), wpaddr := .ofFn fun k => w64 (0x2C70 + 8 * k.val), wpmask := .ofFn fun k => w64 (0x2C90 + 8 * k.val)
    ctxCode := .ofNat 8 (rd 0x2CB0 1), ctxBusy := bitAt (rd 0x2CB0 8) 8
    watch := .ofFn fun k => { addr := w64 (0x2CB8 + 24 * k.val), mask := w64 (0x2CC0 + 24 * k.val), armed := bitAt (rd (0x2CC8 + 24 * k.val) 8) 0 }
    bank := .ofFn fun k => w64 (0x2D18 + 8 * k.val), bankSticky := stickyOf rd 0x2D98 0x2E08, active := bitAt (rd 0x2E08 8) 63 }
  { r := regs, va := fileOfImage rd 0x1800 0x1518 0x1920, vb := fileOfImage rd 0x1880 0x1520 0x1940, m := mat, mon := mon
    ctl := { forms := .ofFn fun k => w64 (0x1600 + 8 * k.val), sticky := stickyOf rd 0x1740 0x17B0, rptidx := .ofNat 4 (rd 0x17B8 8), dictLoaded := bitAt (rd 0x1918 8) 63
             dictOff := .ofNat 12 (rd 0x1918 8 / 64) }
    sys := { fflags := .ofNat 5 (rd 0x1900 8), pthresh := .ofNat 32 (rd 0x1910 8), sfsel := .ofNat 9 (rd 0x1978 8), tags := cellBlit [] 0 ((l.drop 0x1C00).take 512) }
    con := { c0 := chanOfImage rd 0x2228 0x2400, c1 := chanOfImage rd 0x2238 0x2800, tag := w64 0x2248, ctrs := ctrsOfImage rd (rd 0x28 4), broken := brokenOfImage rd (rd 0x28 4) }
    run := { cyc := rd 0x19A0 8 }
    prog := { region := .ofNat 32 (rd 0x0C 4), tenant := .ofNat 16 (rd 8 2), kernel := .ofNat 16 (rd 0x24 2), serial := .ofNat 32 (rd 0x20 4), starve := rd 0x1980 8, spin := rd 0x1988 8
              horizon := .ofFn fun k => .ofNat 24 (rd (0x2200 + 4 * k.val) 4), starved := bitAt flags 0, strict := bitAt flags 1, kind01 := bitAt flags 2, yielded := bitAt flags 3
              leaves := leavesOfImage rd } }

/-! ### Checks of a restore (R322) -/

/-- Step 1 of R322 on the first 0x1_0000 bytes: mark, version, tenant, kernel, digest, directory against the footprint. -/
def imageChecks (s : State) (region : W32) (l : List Byte) : Bool :=
  let foot := match findKernel s region (.ofNat 16 (imgField l 0x24 2)) with
    | some k => some k.footprint
    | none => none
  imgField l 0 4 == 0x4B514349 && imgField l 4 2 == 1 && imgField l 8 2 == effTenant s region &&
    (match foot with
     | some f => (List.range 800).all fun u => (imgField l (0x80 + u) 1 % 4 != 0) == f.contains u
     | none => false) &&
    imgField l 0x30 16 == leNat (shake256 16 (l.take 0x30 ++ (l.drop 0x1000).take 0xF000))

end Sys2Proof.Machine
end

