-- ==== Sys2Proof/Machine/Domain.lean ====
section
/-! DEFINITION. Fault reports (13 R280), completion records (19 R359), core dumps (16 R327-R329), and the stop of a fault domain (12 R244). -/

namespace Sys2Proof.Machine

/-! ### Reports -/

/-- fr.where of a core; a cluster or die gives the higher fields only. -/
def whereCore (core : Nat) : Nat := core / 32 + 16 * (core / 8 % 4) + 64 * (core % 8)
/-- fr.where of an entry's place. -/
def whereOf (e : EntryId) : Nat :=
  let p := e.place.toNat
  if e.level = 0 then whereCore p else if e.level = 1 then p / 4 + 16 * (p % 4) else if e.level = 2 then p else 0
/-- A fault report (R280). -/
def faultReport (word : BitVec 128) (cause : Byte) (level where_ : Nat) (serial : W32) (detail : Nat) : BitVec 256 :=
  .ofNat 256 (packFields [(word.toNat, 16), (cause.toNat, 1), (level % 16, 1), (where_, 2), (serial.toNat, 4), (detail, 8)])
/-- A record for the firmware error core. -/
def errorRecord (s : State) (rep : BitVec 256) : State := modFw s fun f => { f with errLog := f.errLog ++ [rep] }

/-! ### Completion (R358, R359) -/

/-- A completion record. -/
def completionRecord (result op : Nat) (serial : W32) (index : W64) (count : Nat) (reports : List (BitVec 256)) : List Byte :=
  let r := reports.take 5
  leBytes 1 result ++ leBytes 1 r.length ++ leBytes 1 op ++ [0] ++ leBytes 4 serial.toNat ++ leBytes 8 index.toNat ++ leBytes 8 count ++ leBytes 7 0 ++ [1] ++
    r.flatMap (fun x => leBytes 32 x.toNat) ++ leBytes (32 * (5 - r.length)) 0
/-- Writes a completion record, unless the packet asks for none, as a release (R180, R359). -/
def complete (s : State) (cpl : W64) (l : List Byte) : State := if cpl = 0 then s else appStore s cpl.toNat l
/-- Ends a SUBMIT packet with its record. -/
def packetRecord (s : State) (p : Packet2) (result : Nat) (reports : List (BitVec 256)) : State :=
  complete s p.cpl (completionRecord result 1 (p.first.getD 0) p.index ((List.range 64).countP fun k => p.committed.getLsbD k) reports)
/-- Replaces a packet. -/
def setPacket (s : State) (p : Packet2) : State := { s with packets := s.packets.map fun q => if q.key = p.key then p else q }
/-- A packet. -/
def findPacket (s : State) (k : Nat) : Option Packet2 := s.packets.find? fun p => p.key == k
/-- A word of a packet faults: the packet is complete, entries that depend on the word are not accepted (R358). -/
def failWord (s : State) (k j : Nat) (reports : List (BitVec 256)) : State :=
  match findPacket s k with
  | none => s
  | some p =>
    let s := if p.finished then s else packetRecord s p 1 reports
    setPacket s { p with failed := setBit p.failed j true, finished := true, reports := reports }
/-- A word of a packet commits; the last one completes the packet. -/
def commitWord (s : State) (k j : Nat) : State :=
  match findPacket s k with
  | none => s
  | some p =>
    let p := { p with committed := setBit p.committed j true }
    let all := (List.range p.words.length).all fun i => p.committed.getLsbD i
    let s := setPacket s { p with finished := p.finished || all }
    if all && !p.finished then packetRecord s p 0 [] else s

/-! ### Core dumps (R327-R329) -/

/-- Writes bytes of a buffer in a region's space up to the first byte that fails, whose offset it gives. -/
def writeUpTo (s : State) (region : W32) (base off : Nat) (l : List Byte) : State × Option Nat :=
  (pieces (base + off) l.length).foldl (fun (acc : State × Option Nat) p =>
    match acc.2 with
    | some _ => acc
    | none => match writeVa acc.1 region p.1 ((l.drop (p.1 - (base + off))).take p.2) with
      | .ok s => (s, none)
      | .error _ => (acc.1, some (p.1 - base))) (s, none)
/-- The section of a unit. -/
def unitType (u : Nat) : Nat := if u < 512 then 3 else if u < 640 then 4 else if u < 768 then 5 else 6
/-- Sections of a dump: type, unit, image address, data. -/
def dumpSections (x : Ctx) : List (Nat × Nat × Nat × List Byte) :=
  let map := (List.range 800).map fun u => if !(x.prog.footprint.contains u) then (0 : Byte) else if x.prog.absent.contains u then 2 else 1
  [(1, 0, 0, (headBytes x).take 1024), (2, 0, x.prog.image.toNat, map)] ++
    ((recencyList x).filter fun u => !(x.prog.absent.contains u)).map fun u => (unitType u, u, 0, unitBytes x u)
/-- The header of a dump. -/
def dumpHeader (s : State) (region : W32) (rep : BitVec 256) (flags required written faultoff sections : Nat) : List Byte :=
  leBytes 4 0x4B514450 ++ leBytes 2 1 ++ leBytes 2 flags ++ leBytes 8 required ++ leBytes 8 written ++ leBytes 8 faultoff ++ leBytes 8 (tick s) ++ leBytes 4 region.toNat ++
    leBytes 4 sections ++ leBytes 16 0 ++ leBytes 32 rep.toNat ++ leBytes 32 0
/-- Where a dump stands: state, bytes written, sections written, offset of a fault. -/
abbrev DumpAt := State × Nat × Nat × Option Nat
/-- Writes one section if it fits; after a fault nothing more. -/
def dumpSection (region : W32) (base size : Nat) (d : DumpAt) (sec : Nat × Nat × Nat × List Byte) : DumpAt :=
  let (s, off, n, f) := d
  let l := leBytes 1 sec.1 ++ [0] ++ leBytes 2 sec.2.1 ++ leBytes 4 sec.2.2.2.length ++ leBytes 8 sec.2.2.1 ++ sec.2.2.2
  if f.isSome || decide (size < off + l.length) then d
  else match writeUpTo s region base off l with
    | (s, none) => (s, off + l.length, n + 1, none)
    | (s, some k) => (s, off, n, some k)
/-- Dumps a stopped context into its region's dump buffer. -/
def dump (s : State) (c : CtxId) (rep : BitVec 256) : State :=
  let x := getCtx s c
  match findRegion s x.prog.region with
  | none => s
  | some r =>
    let size := r.dumpLen.toNat
    if r.dump = 0 then s
    else if size < 128 then errorRecord s (.ofNat 256 (packFields [(0, 8), (0, 8), (0, 8)]))
    else
      let secs := dumpSections x
      let required := secs.foldl (fun n t => n + 16 + t.2.2.2.length) 128
      let flag := b2n (decide (size < required))
      let base := r.dump.toNat
      match writeUpTo s r.id base 0 (dumpHeader s r.id rep flag required 0 0 0) with
      | (s, some _) => errorRecord s (.ofNat 256 (packFields [(0, 8), (2, 8), (0, 8)]))
      | (s, none) =>
        let (s, written, n, f) := secs.foldl (dumpSection r.id base size) (s, 128, 0, none)
        let s := (writeUpTo s r.id base 0 (dumpHeader s r.id rep (flag + 2 * b2n f.isSome) required written (f.getD 0) n)).1
        if f.isSome then errorRecord s (.ofNat 256 (packFields [(f.getD 0, 8), (2, 8), (written, 8)])) else s

/-! ### Stops -/

/-- Issued transfers run to completion, their statuses discarded: those that nothing outside holds up are performed (R324; log entry 34). -/
def runOut (s : State) (c : CtxId) : State :=
  let go (ch : Side) (s : State) : State := (chanOf (getCtx s c) ch).xfers.foldl (fun s t => tryComplete s c ch t.tid) s
  go .b (go .a s)
/-- A slot becomes EMPTY and its units are freed: pulls for it are abandoned, an EMPTY primary slot is a kernel boundary. -/
def clearSlot (s : State) (c : CtxId) : State :=
  let prim := isPrim s c
  let s := modCore s c.core.toNat fun k => { k with vacant := k.vacant || prim }
  let s := modCl s (ctxCl c) fun k => { k with hoist := k.hoist.filter fun j => !(j.kind == 0 && j.ctx == c) }
  setCtx s c {}
/-- Stops a resident context. -/
def stopContext (s : State) (c : CtxId) (rep : BitVec 256) : State := clearSlot (runOut (dump s c rep) c) c
/-- Whether a region belongs to the fault domain `dom` (R244). -/
def inDomain (s : State) (dom r : W32) : Bool := r != 0 && faultDomain s r (s.regions.length + 1) == dom
/-- The stop of a fault domain: every resident context and every tile word of it ends, each top-level word with its report, or with the reports
given for it, and every packet of it with a record; nothing is replayed (R244, 13 R279, 19 R358); the reports go to the firmware error core. -/
def domainStop (s : State) (region : W32) (cause : Byte) (where_ detail : Nat) (given : List (EntryId × List (BitVec 256))) : State :=
  let dom := faultDomain s region (s.regions.length + 1)
  let main := faultReport 0 cause 3 where_ 0 detail
  let tops := s.seqs.filter fun p => p.1.level == 3 && inDomain s dom p.1.region
  let s := (residents s fun _ x => inDomain s dom x.prog.region).foldl (fun s c =>
    let x := getCtx s c
    let word := match x.prog.entry with
      | some e => ((getEntry s e).work.map (·.word)).getD 0
      | none => 0
    stopContext s c (faultReport word cause 0 (whereCore c.core.toNat) x.prog.serial detail)) s
  let s := tops.foldl (fun s p =>
    let reps := match given.find? fun g => g.1 == p.1 with
      | some g => g.2
      | none => [faultReport ((p.2.work.map (·.word)).getD 0) cause 3 where_ ((p.2.work.map (·.serial)).getD 0) detail]
    let s := reps.foldl errorRecord s
    match p.2.packet with
    | some (k, j) => failWord s k j reps
    | none => s) s
  let s := if tops.isEmpty then errorRecord s main else s
  let s := (s.packets.filter fun p => inDomain s dom p.region && !p.finished).foldl (fun s p => packetRecord s p 1 [main]) s
  let regs := s.regions.map fun r => if inDomain s dom r.id then { r with saved := [], timer := 0 } else r
  { s with
    seqs := s.seqs.filter (fun p => !(inDomain s dom p.1.region))
    packets := s.packets.filter (fun p => !(inDomain s dom p.region))
    regions := regs }

end Sys2Proof.Machine
end

