-- ==== Sys2Proof/Machine/TileShape.lean ====
section
/-! DEFINITION. Tile words: their fields (13 R265-R268), operands by opcode (R273), call blocks (R283) and the checks of CHECK (R271). -/

namespace Sys2Proof.Machine

/-! ### Fields (R265, R267, R268) -/

def twOp (w : BitVec 128) : Nat := bits w.toNat 120 8
def twLevel (w : BitVec 128) : Nat := bits w.toNat 116 4
def twFmt (w : BitVec 128) : Nat := bits w.toNat 112 4
def twAcq (w : BitVec 128) : Nat := bits w.toNat 109 3
def twRel (w : BitVec 128) : Nat := bits w.toNat 106 3
def twStream (w : BitVec 128) : Nat := bits w.toNat 102 4
def twReplay (w : BitVec 128) : Bool := bitAt w.toNat 101
def twSd (w : BitVec 128) : Bool := bitAt w.toNat 100
def twShape (w : BitVec 128) : Nat := bits w.toNat 64 32
def twDesc (w : BitVec 128) : Nat := bits w.toNat 0 64
/-- The word of an opcode with the fields of a step. -/
def wordOfIn (op : Nat) (t : TileIn) : BitVec 128 :=
  (BitVec.ofNat 8 op) ++ t.level ++ t.fmt ++ t.acq ++ t.rel ++ t.stream ++ t.replay ++ t.sd ++ t.rsv ++ t.shape ++ t.desc
/-- The blocks read in CHECK: 64 bytes of operand descriptor, 32 of shape block, 384 of call block. -/
def blk (b : List Byte) (off n : Nat) : Nat := leNat ((b.drop off).take n)
/-- An extent. -/
def ext (w : BitVec 128) (b : List Byte) (k : Nat) : Nat :=
  if twSd w then blk b (64 + 4 * k) 4 else if k = 0 then bits (twShape w) 0 16 + 1 else if k = 1 then bits (twShape w) 16 16 + 1 else 1
/-- Parameter bytes. -/
def prm (b : List Byte) (off n : Nat) : Nat := blk b (80 + off) n
def odBase (b : List Byte) (n : Nat) : Nat := blk b (8 * n) 8
def odPitch1 (b : List Byte) (n : Nat) : Nat := blk b (0x20 + 4 * n) 4
def odPitch2 (b : List Byte) (n : Nat) : Nat := blk b (0x30 + 4 * n) 4
/-- The anchor of a word. -/
def anchorOf (b : List Byte) : Int := signed 16 (prm b 2 2)

/-! ### Elements -/

/-- Bytes of an element; 0 for Q4 and Q8, whose records hold 32. -/
def codeSize (code : Nat) : Nat :=
  if [0x01, 0x02, 0x13, 0x14, 0x1C].contains code then 1 else if [0x03, 0x04, 0x11, 0x12, 0x1D].contains code then 2
  else if [0x05, 0x06, 0x10].contains code then 4 else if [0x07, 0x08].contains code then 8 else if code = 0x20 ∨ code = 0x21 then 32 else 0
/-- Q4 and Q8. -/
def isQ (code : Nat) : Bool := code == 0x18 || code == 0x19
/-- Bytes of a block record (04 R68). -/
def recSize (code : Nat) : Nat := if code = 0x18 then 17 else 33
/-- Rows and columns of a block of a geometry. -/
def geomDims (g : Nat) : Nat × Nat := if g = 1 then (1, 32) else if g = 2 then (4, 8) else if g = 3 then (8, 4) else (1, 32)
/-- The element format that tw.fmt names (R266); `pair` for the wide phasor pair of a split phasor word (R274). -/
def fmtCode (fmt : Nat) (pair : Bool) : Nat :=
  if fmt = 4 ∧ pair then 0x21 else ([0x10, 0x12, 0x11, 0x13, 0x20, 0x05, 0x06, 0x07, 0x08, 0x1D, 0x18, 0x19][fmt]?).getD 0
/-- The floating format of a code. -/
def codeFloat (code : Nat) : Option Fmt :=
  if code = 0x10 then some fp32 else if code = 0x11 then some fp16 else if code = 0x12 then some bf16 else if code = 0x13 then some e4m3 else if code = 0x14 then some e5m2 else none
/-- Signed integer codes are odd. -/
def codeInt (code raw : Nat) : Int := if code % 2 = 1 then signed (8 * codeSize code) raw else (raw : Int)

/-! ### Elementwise operations (R273) -/

/-- A vector operation applied to each element: operands, formats of them and of the result, whether it rounds, and its rule on the rounding
mode, the drawn bits and the elements. -/
structure ElemOp where
  arity : Nat
  ins : List Nat
  outs : List Nat
  rounds : Bool
  f : Nat → Nat → Nat → Nat → Nat
/-- One operand. -/
def un (i o : Nat) (f : Nat → Nat → Nat → Nat × BitVec 5) : Option ElemOp := some ⟨1, [i], [o], true, fun rm u x _ => (f rm u x).1⟩
/-- Two operands of one format. -/
def bi (i : Nat) (f : Nat → Nat → Nat → Nat → Nat × BitVec 5) : Option ElemOp := some ⟨2, [i], [i], true, fun rm u x y => (f rm u x y).1⟩
/-- Two operands, nothing rounded. -/
def bx (is : List Nat) (f : Nat → Nat → Nat) : Option ElemOp := some ⟨2, is, is, false, fun _ _ x y => f x y⟩
/-- Integer formats of 32 bits, which `.i32` matches (04 R67). -/
def i32 : List Nat := [5, 6]
/-- The conversions that `tw.convert` admits (05 R128). -/
def convOp (op : Nat) : Option ElemOp :=
  match op with
  | 0x43 => some ⟨1, i32, [0x10], true, fun rm u x _ => (ffromI32 rm u x).1⟩
  | 0x44 => some ⟨1, [0x10], i32, true, fun rm u x _ => (ftoI32 rm u x).1⟩
  | 0x45 => some ⟨1, [0x12], [0x10], false, fun _ _ x _ => (fput fp32 0 0 (fdec bf16 x)).1⟩
  | 0x46 => un 0x10 0x12 fun rm u x => fput bf16 rm u (fdec fp32 x)
  | 0x47 => some ⟨1, [0x11], [0x10], false, fun _ _ x _ => (fput fp32 0 0 (fdec fp16 x)).1⟩
  | 0x48 => un 0x10 0x11 fun rm u x => fput fp16 rm u (fdec fp32 x)
  | 0x49 => some ⟨1, [0x13], [0x10], false, fun _ _ x _ => (fput fp32 0 0 (fdec e4m3 x)).1⟩
  | 0x4A => un 0x10 0x13 fun rm u x => fput e4m3 rm u (fdec fp32 x)
  | 0x4B => some ⟨1, [0x14], [0x10], false, fun _ _ x _ => (fput fp32 0 0 (fdec e5m2 x)).1⟩
  | 0x4C => un 0x10 0x14 fun rm u x => fput e5m2 rm u (fdec fp32 x)
  | _ => none
/-- A compare of two elements: 1 or 0 as an integer element (log entry 36). -/
def cmpElem (is : List Nat) (p : Nat → Nat → Bool) : Option ElemOp := some ⟨2, is, i32, false, fun _ _ x y => b2n (p x y)⟩
/-- The operations that `tw.unary` and `tw.binary` admit by opcode (R61): those that give an element from an element (log entry 36). -/
def elemOp (op : Nat) : Option ElemOp :=
  match op with
  | 0x0A => cmpElem [0x10] (feq fp32)
  | 0x0B => cmpElem [0x10] (flt fp32)
  | 0x0C => cmpElem [0x10] (fle fp32)
  | 0x0D => cmpElem [0x10] fun x y => fisNan fp32 x || fisNan fp32 y
  | 0x26 => cmpElem [0x12] (feq bf16)
  | 0x27 => cmpElem [0x12] (flt bf16)
  | 0x40 => cmpElem i32 fun x y => x == y
  | 0x41 => cmpElem i32 fun x y => decide (signed 32 x < signed 32 y)
  | 0x42 => cmpElem i32 fun x y => decide (x < y)
  | 0x6A => cmpElem [0x1D] fun _ _ => false
  | 0x6F => some ⟨1, [0x1C], [0x1D], false, fun _ _ x _ => phTo16 x⟩
  | 0x00 => bi 0x10 (fadd fp32)
  | 0x01 => bi 0x10 (fsub fp32)
  | 0x02 => bi 0x10 (fmul fp32)
  | 0x06 => bx [0x10] (fmin2 fp32)
  | 0x07 => bx [0x10] (fmax2 fp32)
  | 0x08 => some ⟨1, [0x10], [0x10], false, fun _ _ x _ => if fisNan fp32 x then fp32.nan else x % 2 ^ 31⟩
  | 0x09 => some ⟨1, [0x10], [0x10], false, fun _ _ x _ => if fisNan fp32 x then fp32.nan else (x + 2 ^ 31) % 2 ^ 32⟩
  | 0x0F => some ⟨1, [0x10], i32, false, fun _ _ x _ => fclass x⟩
  | 0x10 => un 0x10 0x10 (special fp32 .recip)
  | 0x11 => un 0x10 0x10 (special fp32 .rsqrt)
  | 0x12 => un 0x10 0x10 (special fp32 .sqrt)
  | 0x13 => un 0x10 0x10 (special fp32 .exp2)
  | 0x14 => un 0x10 0x10 (special fp32 .log2)
  | 0x15 => un 0x10 0x10 (special fp32 .sinpi)
  | 0x16 => un 0x10 0x10 (special fp32 .cospi)
  | 0x18 => un 0x12 0x12 (special bf16 .recip)
  | 0x19 => un 0x12 0x12 (special bf16 .rsqrt)
  | 0x1A => un 0x12 0x12 (special bf16 .sqrt)
  | 0x1B => un 0x12 0x12 (special bf16 .exp2)
  | 0x1C => un 0x12 0x12 (special bf16 .log2)
  | 0x1D => un 0x12 0x12 (special bf16 .sinpi)
  | 0x1E => un 0x12 0x12 (special bf16 .cospi)
  | 0x20 => bi 0x12 (fadd bf16)
  | 0x21 => bi 0x12 (fsub bf16)
  | 0x22 => bi 0x12 (fmul bf16)
  | 0x24 => bx [0x12] (fmin2 bf16)
  | 0x25 => bx [0x12] (fmax2 bf16)
  | 0x28 => bi 0x11 (fadd fp16)
  | 0x29 => bi 0x11 (fsub fp16)
  | 0x2A => bi 0x11 (fmul fp16)
  | 0x30 => bx i32 fun x y => x + y
  | 0x31 => bx i32 fun x y => x + 2 ^ 32 - y
  | 0x32 => bx i32 fun x y => x * y
  | 0x33 => bx i32 fun x y => wrap32 (signed 32 x * signed 32 y / 2 ^ 32)
  | 0x34 => bx i32 fun x y => sat32 (signed 32 x + signed 32 y)
  | 0x35 => bx i32 fun x y => sat32 (signed 32 x - signed 32 y)
  | 0x36 => bx i32 fun x y => wrap32 (min (signed 32 x) (signed 32 y))
  | 0x37 => bx i32 fun x y => wrap32 (max (signed 32 x) (signed 32 y))
  | 0x38 => bx [6] min
  | 0x39 => bx [6] max
  | 0x3A => bx i32 (· &&& ·)
  | 0x3B => bx i32 (· ||| ·)
  | 0x3C => bx i32 (· ^^^ ·)
  | 0x3D => bx i32 fun x y => x * 2 ^ (y % 32)
  | 0x3E => bx i32 fun x y => x / 2 ^ (y % 32)
  | 0x3F => bx i32 fun x y => wrap32 (signed 32 x / 2 ^ (y % 32))
  | 0x68 => bx [0x1D] (phMul 15)
  | 0x69 => bx [0x1C] (phMul 7)
  | 0x6B => some ⟨1, [0x1D], [5], false, fun _ _ x _ => phSc 0 x⟩
  | _ => convOp op
/-- The elementwise operation of a word. -/
def opOfWord (w : BitVec 128) (b : List Byte) : Option ElemOp :=
  match twOp w with
  | 0x03 => (elemOp (prm b 0 1)).filter fun e => e.arity == 1
  | 0x04 => (elemOp (prm b 0 1)).filter fun e => e.arity == 2
  | 0x12 => convOp (prm b 0 1)
  | _ => none

/-! ### Operands by opcode (R273) -/

/-- An operand: its number, whether it is written and read, the formats it may have, its extents. -/
structure Opnd where
  idx : Nat
  wr : Bool := false
  rd : Bool := true
  codes : List Nat
  d : Nat × Nat × Nat × Nat
  deriving Repr

/-- Rows of an operand: dimensions 1 to 3 folded. -/
def Opnd.rows (o : Opnd) : Nat := o.d.2.1 * o.d.2.2.1 * o.d.2.2.2
/-- Rows of a word's shape. -/
def rowsOfWord (w : BitVec 128) (b : List Byte) : Nat := ext w b 1 * ext w b 2 * ext w b 3
/-- Integer formats of tw.fmt. -/
def intCodes : List Nat := [5, 6, 7, 8]
/-- Formats that a sum or an extreme takes (R82 on x × 1). -/
def reduceCodes (code : Nat) : List Nat := if intCodes.contains code then [code] else [0x10, 0x11, 0x12, 0x13, 0x14]
/-- The operands of a word. -/
def operands (w : BitVec 128) (b : List Byte) : List Opnd :=
  let e (k : Nat) : Nat := ext w b k
  let all := (e 0, e 1, e 2, e 3)
  let oc := fmtCode (twFmt w) false
  let out (d : Nat × Nat × Nat × Nat) : Opnd := { idx := 0, wr := true, rd := false, codes := [oc], d := d }
  let mm (cs : List Nat) : List Opnd :=
    [out (e 0, e 1, 1, 1), { idx := 1, codes := cs, d := (e 2, e 1, 1, 1) }, { idx := 2, codes := cs, d := (e 2, e 0, 1, 1) }]
  let list : Opnd := { idx := 2, codes := [6], d := (e 1, 1, 1, 1) }
  match twOp w with
  | 0x01 => mm ((List.range 0x22).filter fun c => modeAccepts (if prm b 0 1 = 1 then 1 else 0) c)
  | 0x02 => mm [0x1C]
  | 0x03 => [out all, { idx := 1, codes := ((opOfWord w b).map (·.ins)).getD [], d := all }]
  | 0x04 => [out all, { idx := 1, codes := ((opOfWord w b).map (·.ins)).getD [], d := all }, { idx := 2, codes := ((opOfWord w b).map (·.ins)).getD [], d := all }]
  | 0x05 => [out (1, e 1, e 2, e 3), { idx := 1, codes := reduceCodes oc, d := all }]
  | 0x06 => [out (e 1, e 0, 1, 1), { idx := 1, codes := [oc], d := all }]
  | 0x07 => [out all, { idx := 1, codes := [oc], d := (e 0, prm b 4 4, 1, 1) }, list]
  | 0x08 => [{ out (e 0, prm b 4 4, 1, 1) with rd := true }, { idx := 1, codes := [oc], d := all }, list]
  | 0x09 => [out all, { idx := 1, codes := [oc], d := all }]
  | 0x0A => [out (1, e 1, e 2, e 3), { idx := 1, codes := [0x1D], d := all }]
  | 0x0E => [out all, { idx := 1, codes := [oc], d := all }]
  | 0x0F => [out all]
  | 0x10 => [out all, { idx := 1, codes := [0x10], d := all }]
  | 0x11 => [out all, { idx := 1, codes := [0x18, 0x19], d := all }]
  | 0x12 => [out all, { idx := 1, codes := ((opOfWord w b).map (·.ins)).getD [], d := all }]
  | 0x13 => [out all]
  | 0x14 => [{ out all with rd := true }, { idx := 1, codes := [0x20], d := all }]
  | 0x15 => [out all, { idx := 1, codes := [if prm b 0 1 = 2 then 0x21 else 0x20], d := all }]
  | 0x16 => [{ idx := 0, wr := true, rd := false, codes := [], d := (1, 1, 1, 1) }]
  | 0x17 => [{ idx := 1, codes := [], d := (1, 1, 1, 1) }]
  | _ => []

/-! ### Where elements lie (R268, 04 R68) -/

/-- The first byte of a folded row. -/
def rowAddr (b : List Byte) (o : Opnd) (row : Nat) : Nat :=
  let i1 := row % o.d.2.1
  let i2 := row / o.d.2.1 % o.d.2.2.1
  let i3 := row / (o.d.2.1 * o.d.2.2.1)
  (odBase b o.idx + i3 * odPitch2 b o.idx * o.d.2.2.1 + i2 * odPitch2 b o.idx + i1 * odPitch1 b o.idx) % 2 ^ 64
/-- The address of record `r` of a block-scaled operand on pages of `page` bytes. -/
def recAddr (b : List Byte) (o : Opnd) (code page r : Nat) : Nat :=
  let per := page / recSize code
  odBase b o.idx + r / per * page + r % per * recSize code
/-- Records of a block-scaled operand. -/
def recCount (o : Opnd) (geom : Nat) : Nat := let g := geomDims geom; o.rows / g.1 * (o.d.1 / g.2)
/-- Byte ranges of an operand, in row or record order. -/
def rangesOf (b : List Byte) (o : Opnd) (fmt : Byte) (page : Nat) : List (Nat × Nat) :=
  let code := fmt.toNat / 4
  if o.codes.isEmpty then [(odBase b o.idx, 8)]
  else if isQ code then (List.range (recCount o (fmt.toNat % 4))).map fun r => (recAddr b o code page r, recSize code)
  else (List.range o.rows).map fun r => (rowAddr b o r, o.d.1 * codeSize code)

/-! ### Sites of a region's operands -/

/-- The state with a party of a region that holds no scratchpad, as the package's sequencer on the host die accesses memory (R271, 01 R13, R15). -/
def asSequencer (s : State) (region : W32) : State :=
  setCtx s sequencer { prog := { region := region, tenant := .ofNat 16 (effTenant s region), host := true, horizon := (getDie s 8).clock } }
/-- Where bytes of an operand lie: no scratchpad (R18) and no die of the issuer's own. -/
def opSite (s : State) (region : W32) (va n : Nat) (need : Need) : Except Byte Site :=
  if bits va 60 4 = 0xA ∨ (bits va 60 4 = 0xB ∧ bits va 32 4 = 15) then .error pageFault
  else match locate (asSequencer s region) sequencer va n need with
    | .ok t => .ok t
    | .error e => .error (if e = peerFault then permission else e)
/-- Reads bytes of an operand; those of another package are free. -/
def opRead (s : State) (region : W32) (va n : Nat) : Except Byte (List Byte) :=
  (piecesOf s region va n).foldlM (fun acc p => do
    let t ← opSite s region p.1 p.2 { r := true }
    match t.place with
    | .main pa => .ok (acc ++ readPa s pa p.2)
    | q => .ok (acc ++ readPlace s 8 s.free q p.2)) []
/-- The format byte and page size of an operand's first byte. -/
def opFmt (s : State) (region : W32) (va : Nat) : Option (Byte × Nat × Bool) :=
  match opSite s region va 1 {} with
  | .ok t => some (t.fmt, t.size, match t.place with
    | .peer .. => true
    | _ => false)
  | .error _ => none
/-- The format byte and page size that an operand is read by: those of its first page; for bytes of another package, whose pages are not the
machine's, and for bytes that lie nowhere the first legal code, blocks 1 × 32 (log entry 101). -/
def opndFmt (s : State) (region : W32) (b : List Byte) (o : Opnd) : Byte × Nat :=
  match opFmt s region (odBase b o.idx) with
  | some (f, p, false) => (f, p)
  | _ => let c := (o.codes[0]?).getD 0; (.ofNat 8 (4 * c + if isQ c then 1 else 0), 65536)

/-! ### CHECK (R271) -/

/-- Levels that an opcode allows among those of a ring. -/
def levelOk (op level : Nat) : Bool := if op = 0x09 then level == 4 else if op = 0x0C ∨ op = 0x0D ∨ op = 0x18 then level == 3 || level == 4 else level == 3
/-- Whether tw.fmt is legal for an opcode: a format in which the opcode's effect gives every element (log entry 101). -/
def fmtOk (w : BitVec 128) (b : List Byte) : Bool :=
  let f := twFmt w
  match twOp w with
  | 0x01 => decide (f ≤ 4)
  | 0x02 => f == 9 || f == 0
  | 0x03 => decide (f ≤ 11) && ((opOfWord w b).any fun e => e.outs.contains (fmtCode f false))
  | 0x04 => decide (f ≤ 11) && ((opOfWord w b).any fun e => e.outs.contains (fmtCode f false))
  | 0x12 => decide (f ≤ 11) && ((opOfWord w b).any fun e => e.outs.contains (fmtCode f false))
  | 0x05 => if prm b 0 1 = 0 then decide (f ≤ 8) else decide (f ≤ 3 ∨ (5 ≤ f ∧ f ≤ 8))
  | 0x06 => decide (f ≤ 9)
  | 0x07 => decide (f ≤ 11)
  | 0x08 => decide (4 ≤ f ∧ f ≤ 8)
  | 0x09 => decide (4 ≤ f ∧ f ≤ 8)
  | 0x0A => f == 9 || f == 0
  | 0x0E => decide (f ≤ 11)
  | 0x0F => decide (f ≤ 9)
  | 0x10 => f == 10 || f == 11
  | 0x11 => f == 0
  | 0x13 => f == 6
  | 0x14 => f == 4
  | 0x15 => if prm b 0 1 = 2 then f == 9 || f == 0 else decide (f ≤ 4)
  | _ => f == 12
/-- Bytes of sb.param that an opcode uses. -/
def paramMask (op : Nat) : List Nat :=
  match op with
  | 0x01 => [0, 2, 3]
  | 0x02 => [0, 2, 3]
  | 0x03 => [0, 1]
  | 0x04 => [0, 1]
  | 0x12 => [0, 1]
  | 0x05 => [0, 2, 3]
  | 0x0A => [0, 2, 3]
  | 0x07 => [4, 5, 6, 7]
  | 0x08 => [4, 5, 6, 7]
  | 0x0C => [0]
  | 0x0D => [0, 1]
  | 0x0F => [8, 9, 10, 11, 12, 13, 14, 15]
  | 0x10 => [0]
  | 0x11 => [0]
  | 0x15 => [0, 2, 3, 4, 5, 6, 7]
  | 0x16 => [8, 9, 10, 11, 12, 13, 14, 15]
  | 0x17 => [8, 9, 10, 11, 12, 13, 14, 15]
  | _ => []
/-- Limits of the parameters. -/
def paramOk (w : BitVec 128) (b : List Byte) : Bool :=
  let p := prm b 0 1
  let anchor := decide (-1024 ≤ anchorOf b ∧ anchorOf b ≤ 1023)
  ((List.range 16).all fun k => (paramMask (twOp w)).contains k || prm b k 1 == 0) &&
  match twOp w with
  | 0x01 => decide (p ≤ 1) && anchor
  | 0x02 => decide (p ≤ 1) && anchor
  | 0x05 => decide (p ≤ 2) && anchor
  | 0x0A => decide (p ≤ 2) && anchor
  | 0x15 => decide (p ≤ 2) && anchor
  | 0x0C => decide (p ≤ 15)
  | 0x10 => decide (p ≤ 3) && !(twFmt w == 11 && p == 3)
  | 0x11 => decide (p ≤ 3)
  | 0x03 => modeOk
  | 0x04 => modeOk
  | 0x12 => modeOk
  | _ => true
where
  /-- A rounding mode of R54: nearest-even for an operation that does not round. -/
  modeOk : Bool := decide (prm b 1 1 ≤ 4) && ((opOfWord w b).any fun e => e.rounds || prm b 1 1 == 0)
/-- Limits of the extents: at least 1, unused ones 1, K and the axis of a sum of floats at most 2^25 (04 R81), blocks of 32. -/
def extOk (w : BitVec 128) (b : List Byte) : Bool :=
  let e (k : Nat) : Nat := ext w b k
  let used : Nat := match twOp w with
    | 0x01 => 3
    | 0x02 => 3
    | 0x05 => 4
    | 0x0A => 4
    | 0x0E => 4
    | 0x0F => 4
    | 0x10 => 4
    | 0x11 => 4
    | 0x0C => 0
    | 0x0D => 0
    | 0x16 => 0
    | 0x17 => 0
    | 0x18 => 0
    | _ => 2
  ((List.range 4).all fun k => decide (1 ≤ e k) && (decide (k < used) || e k == 1)) &&
    match twOp w with
    | 0x01 => decide (e 2 ≤ 2 ^ 25)
    | 0x02 => decide (e 2 ≤ 2 ^ 25)
    | 0x05 => decide (e 0 ≤ 2 ^ 25) || prm b 0 1 != 0 || decide (5 ≤ twFmt w)
    | 0x10 => e 0 % 32 == 0
    | 0x11 => e 0 % 32 == 0
    | _ => true
/-- Bases and pitches of unused operands are 0; a word of `tw.signal` and `tw.wait` is aligned. -/
def odOk (w : BitVec 128) (b : List Byte) : Bool :=
  let ops := operands w b
  ((List.range 4).all fun k => (ops.any fun o => o.idx == k) || (odBase b k == 0 && odPitch1 b k == 0 && odPitch2 b k == 0)) &&
    ops.all fun o => !o.codes.isEmpty || (odBase b o.idx % 8 == 0 && odPitch1 b o.idx == 0 && odPitch2 b o.idx == 0)
/-- A format that an operand may have: a legal code with its geometry; for block records extents that are whole blocks, a base at a page's start, where
the records begin, and no pitches; blocks of one row where rows are quantized or gathered (R67, R68, R268). -/
def opndFmtOk (b : List Byte) (o : Opnd) (op : Nat) (f : Byte) (page : Nat) : Bool :=
  let code := f.toNat / 4
  let g := f.toNat % 4
  o.codes.isEmpty ||
    (o.codes.contains code &&
      (if isQ code then
        g != 0 && o.d.2.1 % (geomDims g).1 == 0 && o.d.1 % (geomDims g).2 == 0 && odBase b o.idx % page == 0 && odPitch1 b o.idx == 0 && odPitch2 b o.idx == 0 &&
          ((op != 0x10 && op != 0x07) || g == 1)
      else g == 0))
/-- The first error of a list of checks. -/
def firstError (l : List (Option (Byte × Nat))) : Option (Byte × Nat) := l.findSome? id
/-- The first scale byte of a Q8 operand with the reserved type 11 (04 R77). -/
def reservedScale (s : State) (region : W32) (b : List Byte) (o : Opnd) (page : Nat) : Option Nat :=
  ((rangesOf b o 0x65 page).map fun r => r.1 + 32).find? fun a => match opRead s region a 1 with
    | .ok [x] => x.toNat / 64 == 3
    | _ => false
/-- A range that does not carry its operand's format byte, or a Q8 block of a reserved type that a decoding word reads. -/
def fmtError (s : State) (region : W32) (b : List Byte) (op : Nat) (o : Opnd) : Option (Byte × Nat) :=
  let (f, page) := opndFmt s region b o
  if !(opndFmtOk b o op f page) then some (formatMismatch, odBase b o.idx)
  else if o.codes.isEmpty then none
  else if (op == 0x01 || op == 0x11) && f.toNat / 4 == 0x19 && o.rd && (reservedScale s region b o page).isSome then
    (reservedScale s region b o page).map fun a => (formatMismatch, a)
  else (rangesOf b o f page).findSome? fun r => (piecesOf s region r.1 r.2).findSome? fun p => match opFmt s region p.1 with
    | some (g, _, false) => if g = f then none else some (formatMismatch, p.1)
    | _ => none
/-- A range that cannot be accessed as its operand is. -/
def rightError (s : State) (region : W32) (b : List Byte) (o : Opnd) : Option (Byte × Nat) :=
  let (f, page) := opndFmt s region b o
  (rangesOf b o f page).findSome? fun r => (piecesOf s region r.1 r.2).findSome? fun p =>
    match opSite s region p.1 p.2 { r := o.rd, w := o.wr } with
    | .ok _ => none
    | .error e => some (e, p.1)
/-- Every region from a region up to region 0, itself first. -/
def regionPath (s : State) : Nat → W32 → List Region
  | 0, _ => []
  | n + 1, id => match findRegion s id with
    | none => []
    | some r => r :: (match r.parent with
      | some p => regionPath s n p
      | none => [])
/-- Frames of 64 KiB charged against a region: those of itself and of every region beneath it (R243). -/
def framesOf (s : State) (id : W32) : Nat :=
  (s.regions.filter fun r => (regionPath s (s.regions.length + 1) r.id).any fun p => p.id == id).foldl (fun n r => n + r.mapped) 0
/-- Whether `n` more frames stay within every quota on the path (R243). -/
def quotaAdmits (s : State) (region : W32) (n : Nat) : Bool :=
  (regionPath s (s.regions.length + 1) region).all fun r => decide (framesOf s r.id + n ≤ eff s r.id 6 0x20 8)
/-- Bytes that a word stages. -/
def stagedBytes (s : State) (region : W32) (w : BitVec 128) (b : List Byte) : Nat :=
  ((operands w b).filter (·.rd)).foldl (fun n o => (rangesOf b o (opndFmt s region b o).1 (opndFmt s region b o).2).foldl (fun n r => n + r.2) n) 0

/-! ### Call blocks (R283) -/

/-- An entry of a call block: base, bytes per row, rows, pitch, group stride, format byte. -/
structure CallEntry where
  tile : Nat
  base : Nat
  per : Nat
  rows : Nat
  pitch : Nat
  stride : Nat
  fmt : Byte
  out : Bool
  deriving DecidableEq, Repr
/-- The entries of the declared inputs and outputs of a kernel. -/
def callEntries (k : Kernel) (b : List Byte) : List CallEntry :=
  ((k.tiles.zipIdx.filter fun t => decide (t.1.kind < 2)).zipIdx).map fun t =>
    let at_ := 96 + 0x80 + 32 * t.2
    { tile := t.1.2, base := blk b at_ 8, per := blk b (at_ + 8) 4, rows := blk b (at_ + 12) 4, pitch := blk b (at_ + 16) 4, stride := blk b (at_ + 20) 4
      fmt := .ofNat 8 (blk b (at_ + 24) 1), out := t.1.1.kind == 1 }
/-- The rows of an entry for one core. -/
def entryRows (e : CallEntry) (pos : Nat) : List (Nat × Nat) := (List.range e.rows).map fun r => ((e.base + pos * e.stride + r * e.pitch) % 2 ^ 64, e.per)
/-- Cores of a call. -/
def callCores (k : Kernel) : List Nat := if k.group then List.range 8 else [0]
/-- The registered kernel that a word names. -/
def callKernel (s : State) (region : W32) (w : BitVec 128) : Option Kernel := findKernel s region (.ofNat 16 (twShape w / 2 ^ 16))
/-- A call that its word or its descriptor makes ill-formed. -/
def callShape (s : State) (region : W32) (w : BitVec 128) (b : List Byte) : Bool :=
  (callKernel s region w).isNone || twSd w || twShape w % 2 ^ 16 != 0 || blk b 8 56 != 0
/-- A call that its call block makes ill-formed. -/
def callForm (s : State) (region : W32) (w : BitVec 128) (b : List Byte) : Bool :=
  match callKernel s region w with
  | none => true
  | some k =>
    bits (blk b (96 + 0x78) 8) 40 24 != 0 ||
      (callEntries k b).any fun e =>
        let c := e.base / 2 ^ 60
        blk b (96 + 0x80 + 32 * (((callEntries k b).findIdx? (· == e)).getD 0) + 25) 7 != 0 ||
          decide (((k.tiles[e.tile]?).map (·.size)).getD 0 < e.rows * e.per) || !(decide (c < 8) || c == 0xB || c == 0xC)
/-- The bytes of the entries of a call, checked for their format bytes. -/
def callFmtError (s : State) (region : W32) (k : Kernel) (b : List Byte) : Option (Byte × Nat) :=
  (callEntries k b).findSome? fun e => (callCores k).findSome? fun pos => (entryRows e pos).findSome? fun r => (piecesOf s region r.1 r.2).findSome? fun p =>
    match opFmt s region p.1 with
    | some (g, _, false) => if g = e.fmt ∨ p.1 / 2 ^ 60 = 0xB then none else some (formatMismatch, p.1)
    | _ => none
/-- The bytes of the entries of a call, checked for their rights. -/
def callRightError (s : State) (region : W32) (k : Kernel) (b : List Byte) : Option (Byte × Nat) :=
  (callEntries k b).findSome? fun e => (callCores k).findSome? fun pos => (entryRows e pos).findSome? fun r => (piecesOf s region r.1 r.2).findSome? fun p =>
    match opSite s region p.1 p.2 { r := !e.out, w := e.out } with
    | .ok _ => none
    | .error e => some (e, p.1)

/-- Bytes that a call stages. -/
def callBytes (k : Kernel) (b : List Byte) : Nat := ((callEntries k b).filter fun e => !e.out).foldl (fun n e => n + (callCores k).length * (e.rows * e.per)) 0

/-! ### The check -/

/-- The blocks of a word: descriptor, shape block (zeros without one), call block (zeros without one). -/
def readBlocks (s : State) (region : W32) (w : BitVec 128) : Except (Byte × Nat) (List Byte) :=
  if twDesc w % 64 ≠ 0 then .error (misaligned, twDesc w)
  else match readVa s region (twDesc w) 64 with
    | .error e => .error (e, twDesc w)
    | .ok od => match if twSd w && twOp w != 0x0B then readVa s region ((twDesc w + twShape w) % 2 ^ 64) 32 else .ok (List.replicate 32 0) with
      | .error e => .error (e, (twDesc w + twShape w) % 2 ^ 64)
      | .ok sb => .ok (od ++ sb)
/-- The fields that every opcode has (third row of R271). -/
def fieldsOk (w : BitVec 128) (b : List Byte) : Bool :=
  levelOk (twOp w) (twLevel w) && bits w.toNat 96 4 == 0 && decide (twAcq w ≤ 5) && decide (twRel w ≤ 5) && decide (twFmt w ≤ 12) && fmtOk w b
/-- CHECK of a top-level word: the blocks read, or the fault and its detail. -/
def checkWord (s : State) (region : W32) (w : BitVec 128) : Except (Byte × Nat) (List Byte) := do
  let b ← readBlocks s region w
  if twOp w = 0 ∨ 0x19 ≤ twOp w then .error (illegalOpcode, 0)
  else if !(fieldsOk w b) then .error (illegalForm, 0)
  else if twOp w = 0x0B then
    if callShape s region w b then .error (illegalForm, 0)
    else match readVa s region (odBase b 0) 384 with
    | .error e => .error (e, odBase b 0)
    | .ok cb =>
      let b := b ++ cb
      match callKernel s region w with
      | none => .error (illegalForm, 0)
      | some k =>
        if callForm s region w b then .error (illegalForm, 0)
        else match firstError [callFmtError s region k b, callRightError s region k b] with
          | some e => .error e
          | none => if quotaAdmits s region ((callBytes k b + 65535) / 65536) then .ok b else .error (permission, 0)
  else if (twSd w && twShape w % 32 != 0) || !(extOk w b) || !(paramOk w b) || !(odOk w b) then .error (illegalForm, 0)
  else
    let ops := operands w b
    let geom := if twOp w = 0x0E ∧ ((ops.map fun o => (opndFmt s region b o).1).eraseDups).length ≠ 1 then some (formatMismatch, odBase b 1) else none
    match firstError ((ops.map (fmtError s region b (twOp w))) ++ [geom] ++ ops.map (rightError s region b)) with
    | some e => .error e
    | none =>
      if quotaAdmits s region ((stagedBytes s region w b + 65535) / 65536) then .ok (b ++ List.replicate 384 0) else .error (permission, 0)
/-- The hull of each operand: lowest byte, byte after the highest, written (R270). -/
def hulls (s : State) (region : W32) (w : BitVec 128) (b : List Byte) : List (Nat × Nat × Bool) :=
  let hull (l : List (Nat × Nat)) (wr : Bool) : List (Nat × Nat × Bool) :=
    match l with
    | [] => []
    | r :: t => [(t.foldl (fun m q => min m q.1) r.1, t.foldl (fun m q => max m (q.1 + q.2)) (r.1 + r.2), wr)]
  if twOp w = 0x0B then
    match callKernel s region w with
    | some k => (callEntries k b).flatMap fun e => hull ((callCores k).flatMap (entryRows e)) e.out
    | none => []
  else (operands w b).flatMap fun o => hull (rangesOf b o (opndFmt s region b o).1 (opndFmt s region b o).2) o.wr

end Sys2Proof.Machine
end

