-- ==== Sys2Proof/Machine/TileMath.lean ====
section
/-! DEFINITION. The effect of the tile opcodes on staged operands (13 R273): what a core's built-in kernel gives for one unit (R274, R284). -/

namespace Sys2Proof.Machine

/-! ### Staged operands -/

/-- A staged operand: its format byte, its columns, its bytes row after row, or record after record. -/
structure Ten where
  fmt : Byte
  cols : Nat
  bytes : List Byte
/-- The format code. -/
def Ten.code (t : Ten) : Nat := t.fmt.toNat / 4
/-- The raw bits of an element. -/
def Ten.raw (t : Ten) (row col : Nat) : Nat :=
  let n := codeSize t.code
  leNat ((t.bytes.drop ((row * t.cols + col) * n)).take n)
/-- Record and place in it of an element of a block-scaled operand (04 R68). -/
def Ten.recAt (t : Ten) (row col : Nat) : Nat × Nat :=
  let g := geomDims (t.fmt.toNat % 4)
  (row / g.1 * (t.cols / g.2) + col / g.2, row % g.1 * g.2 + col % g.2)
/-- The bytes of a record. -/
def Ten.recBytes (t : Ten) (r : Nat) : List Byte := (t.bytes.drop (r * recSize t.code)).take (recSize t.code)
/-- The value of an element. -/
def Ten.val (t : Ten) (row col : Nat) : FV :=
  if isQ t.code then
    let (r, j) := t.recAt row col
    let rec_ := t.recBytes r
    let at_ (k : Nat) : Nat := ((rec_[k]?).getD 0).toNat
    if t.code = 0x18 then dec4 (at_ 16) (bits (at_ (j / 2)) (4 * (j % 2)) 4) else dec8 (at_ 32) (at_ j)
  else match codeFloat t.code with
    | some f => fdec f (t.raw row col)
    | none => let v := codeInt t.code (t.raw row col); .fin (decide (v < 0)) v.natAbs 0
/-- The bytes of a row. -/
def Ten.rowBytes (t : Ten) (row : Nat) : List Byte := let n := t.cols * codeSize t.code; (t.bytes.drop (row * n)).take n
/-- The staged operand of a number, with the columns of a word's operand. -/
def tenOf (w : BitVec 128) (b : List Byte) (staged : List (Nat × List Byte)) (idx : Nat) : Ten :=
  let cols := (((operands w b).find? fun o => o.idx == idx).map fun o => o.d.1).getD 1
  match staged.find? fun p => p.1 % 4 == idx with
  | some p => { fmt := .ofNat 8 (p.1 / 4), cols := cols, bytes := p.2 }
  | none => { fmt := 0, cols := cols, bytes := [] }

/-! ### Units (R274) -/

/-- Rows and columns of what a word's units divide: the output (M × N of a product, whose third extent is the reduction's), a column for the reductions, the input rows of `tw.scatteradd`. -/
def unitGrid (w : BitVec 128) (b : List Byte) : Nat × Nat :=
  match twOp w with
  | 0x01 => (ext w b 1, ext w b 0)
  | 0x02 => (ext w b 1, ext w b 0)
  | 0x05 => (rowsOfWord w b, 1)
  | 0x0A => (rowsOfWord w b, 1)
  | 0x06 => (ext w b 0, ext w b 1)
  | 0x08 => (ext w b 1, 1)
  | _ => (rowsOfWord w b, ext w b 0)
/-- Columns of units. -/
def unitCols (w : BitVec 128) (b : List Byte) : Nat := ((unitGrid w b).2 + 127) / 128
/-- Number of units. -/
def unitCount (w : BitVec 128) (b : List Byte) : Nat := ((unitGrid w b).1 + 127) / 128 * unitCols w b
/-- The reduction extent; 1 where nothing is reduced across children. -/
def reduceExtent (w : BitVec 128) (b : List Byte) : Nat :=
  match twOp w with
  | 0x01 => ext w b 2
  | 0x02 => ext w b 2
  | 0x05 => ext w b 0
  | 0x0A => ext w b 0
  | _ => 1
/-- Whether a word's reduction axis may be split (class B of R274). -/
def splitsAxis (w : BitVec 128) : Bool := [0x01, 0x02, 0x05, 0x0A].contains (twOp w)
/-- Rows and columns of a unit. -/
def unitSpanOf (w : BitVec 128) (b : List Byte) (u : Nat) : (Nat × Nat) × (Nat × Nat) :=
  let g := unitGrid w b
  let r := u / unitCols w b * 128
  let c := u % unitCols w b * 128
  ((r, min 128 (g.1 - r)), (c, min 128 (g.2 - c)))

/-! ### Sums (R82, R84, R89) -/

/-- The larger, or the smaller, of two elements of a format (R273, 05 R91). -/
def extreme2 (top : Bool) (code x y : Nat) : Nat :=
  match codeFloat code with
  | some f => if top then fmax2 f x y else fmin2 f x y
  | none => if decide (codeInt code x < codeInt code y) == top then y else x
/-- The extreme of a list. -/
def extremeOf (top : Bool) (code : Nat) (l : List Nat) : Nat := (l.drop 1).foldl (extreme2 top code) ((l[0]?).getD 0)
/-- A cell or a pair of a reduction over [k0, k1), with the number of defined elements; of an extreme the element itself (log entry 37). -/
def partialCell (w : BitVec 128) (b : List Byte) (x y : Ten) (row col k0 k1 : Nat) : Wide × Nat :=
  let ks := (List.range (k1 - k0)).map (k0 + ·)
  let pair (h : Option Nat) (c : Wide) : Wide := match h with
    | some h => pairAdd c (BitVec.ofInt 128 (cosT h) ++ BitVec.ofInt 128 (sinT h))
    | none => c
  match twOp w with
  | 0x01 => (ks.foldl (fun c k => wideAdd c (productCode (prm b 0 1 == 1) (if prm b 0 1 = 1 then anchorOf b else 0) (fmulV (x.val row k) (y.val col k))).1) 0, 0)
  | 0x02 => (ks.foldl (fun c k => let p := phMul 7 (x.raw row k) (y.raw col k); pair (if bitAt p 7 then none else some (256 * p)) c) 0, 0)
  | 0x0A => ks.foldl (fun (a : Wide × Nat) k => let e := x.raw row k; if bitAt e 15 then a else (pair (some e) a.1, a.2 + 1)) (0, 0)
  | _ =>
    if prm b 0 1 ≠ 0 then (.ofNat 256 (extremeOf (prm b 0 1 == 1) x.code (ks.map (x.raw row))), 0)
    else match codeFloat x.code with
    | some _ => (ks.foldl (fun c k => wideAdd c (productCode true (anchorOf b) (some (x.val row k))).1) 0, 0)
    | none => (ks.foldl (fun c k => c + BitVec.ofInt 256 (codeInt x.code (x.raw row k))) 0, 0)
/-- An extreme of elements of code `code` in the output's format, rounded once (R273). -/
def drainExtreme (w : BitVec 128) (code r : Nat) : Nat :=
  let oc := fmtCode (twFmt w) false
  match codeFloat code with
  | some f =>
    if oc = code then (if fisNan f r then f.nan else r) else match codeFloat oc with
      | some g => (fput g 0 0 (fdec f r)).1
      | none => r
  | none => r
/-- The element of an output format that a sum drains to. -/
def drainSum (w : BitVec 128) (b : List Byte) (c : Wide) (n : Nat) : Nat :=
  let oc := fmtCode (twFmt w) false
  let phasor := if twFmt w = 9 then phAngle (lane 128 c 1).toInt (lane 128 c 0).toInt n 0 else phLen (lane 128 c 1).toInt (lane 128 c 0).toInt n
  match twOp w with
  | 0x02 => if twFmt w = 9 then phAngle (lane 128 c 1).toInt (lane 128 c 0).toInt (ext w b 2) 0 else phLen (lane 128 c 1).toInt (lane 128 c 0).toInt (ext w b 2)
  | 0x0A => phasor
  | 0x15 => if prm b 0 1 = 2 then phasor else floatOrWide oc (if prm b 0 1 = 1 then anchorOf b else 0)
  | 0x01 => floatOrWide oc (if prm b 0 1 = 1 then anchorOf b else 0)
  | _ => if intCodes.contains oc then c.toNat % 2 ^ (8 * codeSize oc) else floatOrWide oc (anchorOf b)
where
  /-- A float rounded once, or the cell itself. -/
  floatOrWide (oc : Nat) (a : Int) : Nat := match codeFloat oc with
    | some f => (drainCell f a c).1
    | none => c.toNat
/-- What a reduction's cell drains to: an extreme is rounded once, a sum drained. -/
def drainOf (w : BitVec 128) (b : List Byte) (code : Nat) (c : Wide) (n : Nat) : Nat :=
  if twOp w = 0x05 ∧ prm b 0 1 ≠ 0 then drainExtreme w code c.toNat else drainSum w b c n

/-! ### The output of a unit -/

/-- Bytes of the output, row by row, from the raw elements. -/
def outRows (w : BitVec 128) (b : List Byte) (span : (Nat × Nat) × (Nat × Nat)) (f : Nat → Nat → Nat) : List (W64 × List Byte) :=
  match (operands w b).find? fun o => o.idx == 0 with
  | none => []
  | some o =>
    let n := codeSize (fmtCode (twFmt w) false)
    (List.range span.1.2).map fun i =>
      let row := span.1.1 + i
      (.ofNat 64 (rowAddr b o row + span.2.1 * n), (List.range span.2.2).flatMap fun j => leBytes n (f row (span.2.1 + j)))
/-- Records of the output of a unit: those whose blocks it holds. -/
def outRecs (w : BitVec 128) (b : List Byte) (fmt : Byte) (page : Nat) (span : (Nat × Nat) × (Nat × Nat)) (f : Nat → Nat → Nat → List Byte) : List (W64 × List Byte) :=
  match (operands w b).find? fun o => o.idx == 0 with
  | none => []
  | some o =>
    let g := geomDims (fmt.toNat % 4)
    (List.range (span.1.2 / g.1)).flatMap fun i => (List.range (span.2.2 / g.2)).map fun j =>
      let r := (span.1.1 / g.1 + i) * (o.d.1 / g.2) + span.2.1 / g.2 + j
      (.ofNat 64 (recAddr b o (fmt.toNat / 4) page r), f r (span.1.1 + i * g.1) (span.2.1 + j * g.2))
/-- The generator counter of a unit (04 R94): serial, row and column origin, chunk, VA. -/
def unitCounter (serial : W32) (row col chunk : Nat) : Nat := serial.toNat * 2 ^ 96 + row % 2 ^ 24 * 2 ^ 72 + col % 2 ^ 24 * 2 ^ 48 + chunk % 2 ^ 16 * 2 ^ 32
/-- What a built-in kernel gives for its work: output bytes, and partial sums or rows to add (row, column, value, count). -/
def builtin (key : Nat) (work : Work) (w : BitVec 128) (b : List Byte) (staged : List (Nat × List Byte)) (outFmt : Byte) (outPage : Nat) :
    List (W64 × List Byte) × List (Nat × Nat × Wide × Nat) :=
  let span := unitSpanOf w b work.u0
  let x := tenOf w b staged 1
  let y := tenOf w b staged 2
  let own := tenOf w b staged 0
  let cells (f : Nat → Nat → Wide × Nat) : List (Nat × Nat × Wide × Nat) :=
    (List.range span.1.2).flatMap fun i => (List.range span.2.2).map fun j => (span.1.1 + i, span.2.1 + j, f (span.1.1 + i) (span.2.1 + j))
  let ctr := unitCounter work.serial span.1.1 span.2.1 work.chunk
  let rows (f : Nat → Nat → Nat) : List (W64 × List Byte) × List (Nat × Nat × Wide × Nat) := (outRows w b span f, [])
  let sum := if work.wide then (([] : List (W64 × List Byte)), cells fun r c => partialCell w b x y r c work.k0 work.k1)
    else rows fun r c => let p := partialCell w b x y r c work.k0 work.k1; drainOf w b x.code p.1 p.2
  let draw := fun (r c : Nat) =>
    let i := r - span.1.1
    let j := c - span.2.1
    rngWord key ((ctr + 16 * (i * ((span.2.2 + 63) / 64) + j / 64)) % 2 ^ 128) (j % 64)
  let elemwise := rows fun r c => match opOfWord w b with
    | some e => e.f (prm b 1 1) (draw r c / 2 ^ 8) (x.raw r c) (y.raw r c) % 2 ^ (8 * codeSize (fmtCode (twFmt w) false))
    | none => 0
  match twOp w with
  | 0x01 => sum
  | 0x02 => sum
  | 0x0A => sum
  | 0x05 => sum
  | 0x03 => elemwise
  | 0x04 => elemwise
  | 0x12 => elemwise
  | 0x06 => rows fun r c => x.raw c r
  | 0x07 =>
      let from_ := fun (r : Nat) => let i := y.raw 0 r; if i < prm b 4 4 then some i else none
      if isQ x.code then (outRecs w b outFmt outPage span fun _ r c => match from_ r with
        | some i => x.recBytes (x.recAt i c).1
        | none => List.replicate (recSize x.code) 0, [])
      else rows fun r c => ((from_ r).map fun i => x.raw i c).getD 0
  | 0x08 => ([], (List.range span.1.2).flatMap fun i =>
      let r := span.1.1 + i
      let t := y.raw 0 r
      if t < prm b 4 4 then (List.range (ext w b 0)).map fun c => (t, c, .ofNat 256 (x.raw r c), 0) else [])
  | 0x0E => if isQ x.code then (outRecs w b outFmt outPage span fun r _ _ => x.recBytes r, []) else rows x.raw
  | 0x0F => rows fun _ _ => prm b 8 8
  | 0x10 => (outRecs w b outFmt outPage span fun _ r c =>
      let q := quantBlock (outFmt.toNat / 4 == 0x19) (prm b 0 1) ((List.range 32).map fun k => x.raw r (c + k))
      (recordBytes (outFmt.toNat / 4 == 0x19) q.1 q.2.1).map (.ofNat 8), [])
  | 0x11 => rows fun r c => (fput fp32 0 0 (x.val r c)).1
  | 0x13 => rows draw
  | 0x14 => rows fun r c => (wideAdd (.ofNat 256 (own.raw r c)) (.ofNat 256 (x.raw r c))).toNat
  | 0x15 => rows fun r c => drainSum w b (.ofNat 256 (x.raw r c)) (prm b 4 4)
  | _ => ([], [])
/-- Joins two partials of a cell (R278): pairs half by half, cells by wide_add, integers modulo 2^256, extremes of elements of `code` by the extreme. -/
def joinCell (w : BitVec 128) (b : List Byte) (code : Nat) (x y : Wide) : Wide :=
  if twOp w = 0x02 ∨ twOp w = 0x0A then pairAdd x y
  else if twOp w = 0x05 ∧ prm b 0 1 ≠ 0 then .ofNat 256 (extreme2 (prm b 0 1 == 1) code x.toNat y.toNat)
  else if twOp w = 0x05 ∧ (codeFloat code).isNone then x + y
  else wideAdd x y
/-- Joins the partials of every cell; counts add. -/
def joinPartials (w : BitVec 128) (b : List Byte) (code : Nat) (l : List (Nat × Nat × Wide × Nat)) : List (Nat × Nat × Wide × Nat) :=
  l.foldl (fun acc p =>
    match acc.find? fun q => q.1 == p.1 && q.2.1 == p.2.1 with
    | none => acc ++ [p]
    | some _ => acc.map fun q => if q.1 = p.1 ∧ q.2.1 = p.2.1 then
        (q.1, q.2.1, joinCell w b code q.2.2.1 p.2.2.1, q.2.2.2 + p.2.2.2) else q) []
/-- The output bytes of joined cells, drained once. -/
def drainJoined (w : BitVec 128) (b : List Byte) (code : Nat) (l : List (Nat × Nat × Wide × Nat)) : List (W64 × List Byte) :=
  l.flatMap fun p => outRows w b ((p.1, 1), (p.2.1, 1)) fun _ _ => drainOf w b code p.2.2.1 p.2.2.2

end Sys2Proof.Machine
end

