-- ==== Sys2Proof/Machine/TileSeq.lean ====
section
/-! DEFINITION. The tile sequencers (12 R245, R246; 13 R269, R270, R274-R279, R285): acceptance, staging, children, joins, commits, faults. -/

namespace Sys2Proof.Machine

/-! ### Entries -/

/-- The active entry of a bank. -/
def activeOf (e : EntryId) : EntryId := { e with shadow := false }
/-- The shadow entry of a bank. -/
def shadowOf (e : EntryId) : EntryId := { e with shadow := true }
/-- Whether an entry is FREE. -/
def isFree (s : State) (e : EntryId) : Bool := (getEntry s e).state == .free
/-- Replaces the state of an entry. -/
def setState (s : State) (e : EntryId) (t : TileState) : State := setEntry s e { getEntry s e with state := t }
/-- The word of an entry. -/
def wordOfEntry (x : Entry) : BitVec 128 := (x.work.map (·.word)).getD 0
/-- The serial number of an entry. -/
def serialOf (x : Entry) : W32 := (x.work.map (·.serial)).getD 0
/-- The top-level ancestor of an entry. -/
def climb (s : State) : Nat → EntryId → EntryId
  | 0, e => e
  | n + 1, e => match (getEntry s e).parent with
    | some p => climb s n p.1
    | none => e
/-- The top-level ancestor. -/
def rootOf (s : State) (e : EntryId) : EntryId := climb s 4 e
/-- Whether an entry descends from another. -/
def descends (s : State) (top : EntryId) : Nat → EntryId → Bool
  | 0, _ => false
  | n + 1, e => match (getEntry s e).parent with
    | some p => p.1 == top || descends s top n p.1
    | none => false
/-- Ends everything below an entry: kernels of its descendants are stopped, their entries and saved contexts dropped (log entry 38). -/
def abandon (s : State) (e : EntryId) : State :=
  let gone := (s.seqs.map (·.1)).filter (descends s e 4)
  let s := (residents s fun _ x => x.prog.entry.any gone.contains).foldl clearSlot s
  let regs := s.regions.map fun r => { r with saved := r.saved.filter fun v => !(v.entry.any gone.contains) }
  { s with seqs := s.seqs.filter (fun p => !(gone.contains p.1)), regions := regs }
/-- The entry faults: its report before those that it passes on (R280). -/
def faultEntry (s : State) (e : EntryId) (cause : Byte) (detail : Nat) (more : List (BitVec 256)) : State :=
  let x := getEntry s e
  let lvl := if e.level = 3 then twLevel (wordOfEntry x) else e.level.toNat
  setEntry (abandon s e) e { x with state := .fault, reports := faultReport (wordOfEntry x) cause lvl (whereOf e) (serialOf x) detail :: more, children := [] }

/-- The reports of a fault of an entry as they stand at its top, a CHILD_FAULT of every level above it first (R280). -/
def chainReports (s : State) (cause : Byte) (where_ detail : Nat) : Nat → EntryId → EntryId × List (BitVec 256)
  | 0, e => (e, [])
  | n + 1, e =>
    let x := getEntry s e
    let own := faultReport (wordOfEntry x) cause e.level.toNat where_ (serialOf x) detail
    match x.parent with
    | none => (e, [own])
    | some p => let r := chainReports s childFaultCode (whereOf p.1) 0 n p.1; (r.1, r.2 ++ [own])
/-- The stop of a fault domain by a fault of a resident context: its report below those of the levels above it. -/
def stopOver (s : State) (c : CtxId) (cause : Byte) (detail : Nat) : State :=
  let x := getCtx s c
  domainStop s x.prog.region cause (whereCore c.core.toNat) detail ((x.prog.entry.map (chainReports s cause (whereCore c.core.toNat) detail 4)).toList)

/-! ### Acceptance (R246, R269, 19 R358) -/

/-- Words of a chain that depend, directly or through others, on a failed one. -/
def doomed (p : Packet2) : BitVec 64 :=
  p.words.zipIdx.foldl (fun (d : BitVec 64) w => if (w.1.2 &&& (d ||| p.failed)) ≠ 0 then setBit d w.2 true else d) 0
/-- The next word of a packet that may be accepted: its index. -/
def nextWord (p : Packet2) : Option Nat := ((List.range p.words.length).drop p.accepted).find? fun j => !((doomed p).getLsbD j)
/-- Whether a packet still has words to accept or in flight. -/
def packetLive (s : State) (p : Packet2) : Bool := (nextWord p).isSome || s.seqs.any fun q => q.2.packet.any fun k => k.1 == p.key
/-- Writes the next word of a region's packets, in ring order, into the package's shadow, if that is FREE; what has changed in the region's block
takes effect with it (12 R242). -/
def acceptWord (s : State) (region : W32) : State :=
  let s := { s with packets := s.packets.filter (packetLive s) }
  let e : EntryId := ⟨3, 0, region, true⟩
  match (s.packets.filter fun p => p.region == region && (nextWord p).isSome).head?, findRegion s region with
  | some p, some r =>
    if isFree s e then
      match nextWord p with
      | none => s
      | some j =>
        let w := (p.words[j]?).getD (0, 0)
        let x : Entry := { state := .check, work := some { word := w.1, serial := r.serial, u0 := 0, k0 := 0, k1 := 0 }, packet := some (p.key, j), deps := w.2 }
        let s := setPacket s { p with accepted := j + 1, first := p.first.or (some r.serial) }
        takeBlocks (modRegion (setEntry s e x) region fun r => { r with serial := r.serial + 1 }) region
    else s
  | _, _ => s

/-! ### Entry to STAGE (R270) -/

/-- Opcodes that their level performs itself (class D of R274), the forward-compatibility band among them. -/
def classD (op : Nat) : Bool := op == 0x09 || op == 0x0C || op == 0x0D || op == 0x16 || op == 0x17 || op == 0x18 || decide (0xF0 ≤ op)
/-- Overlap of two operands' ranges of which one at least is written. -/
def conflicts (a b : List (Nat × Nat × Bool)) : Bool := a.any fun x => b.any fun y => (x.2.2 || y.2.2) && decide (x.1 < y.2.1 ∧ y.1 < x.2.1)
/-- Whether a top-level word that has passed CHECK may enter STAGE: the active word, if any, is the only earlier one that has not committed. -/
def mayStage (s : State) (e : EntryId) (x : Entry) : Bool :=
  let w := wordOfEntry x
  let a := getEntry s (activeOf e)
  let earlier := e.shadow && a.state != .free
  let held := earlier && ((twStream w != 0 && twStream w == twStream (wordOfEntry a)) || twAcq w != 0 || conflicts x.ranges a.ranges)
  let deps := match x.packet with
    | some (k, _) => match findPacket s k with
      | some p => x.deps &&& ~~~p.committed == 0
      | none => true
    | none => true
  !held && deps
/-- Moves an entry into the active place, if it may (R245); the region whose top-level word becomes active has had its turn (R246). -/
def toActive (s : State) (e : EntryId) : Option (State × EntryId) :=
  let s := if e.level = 3 then { s with turn := e.region } else s
  if !e.shadow then some (s, e)
  else if isFree s (activeOf e) then some (setEntry (setEntry s (activeOf e) (getEntry s e)) e {}, activeOf e)
  else none

/-! ### Writes of the package's sequencer (R270, R285) -/

/-- Runs `f` with the sequencer's party in place, and puts the context back. -/
def withParty {α : Type} (s : State) (region serial : W32) (f : State → Except RStop (State × α)) : Except RStop (State × α) :=
  let old := getCtx s sequencer
  match f (modCtx (asSequencer s region) sequencer fun x => { x with prog := { x.prog with serial := serial } }) with
  | .ok r => .ok (setCtx r.1 sequencer old, r.2)
  | .error e => .error e
/-- Writes bytes of an output; those of another package become packets of stream `stream` of the sequencer's tag. -/
def seqWrite (s : State) (region serial : W32) (stream : BitVec 4) (va : Nat) (l : List Byte) :
    Except RStop (State × List (PktKey × W32 × BitVec 48 × PktBody)) :=
  match opSite s region va 1 { w := true } with
  | .error e => .error (.status e)
  | .ok { place := .peer pkg reg off, .. } =>
    let pk := writePackets (l.zipIdx.map fun p => (off + p.2, p.1))
    let k := ctrOf s.fabric.seqCon stream pkg.toNat
    let s := { s with fabric := { s.fabric with seqCon := setCtr s.fabric.seqCon { k with next := k.next + .ofNat 32 pk.length } } }
    .ok (s, pk.zipIdx.map fun p => ({ dst := pkg, tag := s.fabric.seqCon.tag, stream := stream, seq := k.next + .ofNat 32 p.2 }, reg, p.1.1, p.1.2))
  | .ok _ => withParty s region serial fun s => do
    let s ← writeRange s sequencer va l
    .ok (s, [])
/-- Writes several outputs. -/
def seqWriteAll (s : State) (region serial : W32) (stream : BitVec 4) (l : List (W64 × List Byte)) :
    Except RStop (State × List (PktKey × W32 × BitVec 48 × PktBody)) :=
  l.foldlM (fun acc o => do
    let r ← seqWrite acc.1 region serial stream o.1.toNat o.2
    .ok (r.1, acc.2 ++ r.2)) (s, [])
/-- Adds rows into the output of `tw.scatteradd` (R273, 10 R229). -/
def seqAddAll (s : State) (region serial : W32) (stream : BitVec 4) (w : BitVec 128) (b : List Byte) (l : List (Nat × Nat × Wide × Nat)) :
    Except RStop (State × List (PktKey × W32 × BitVec 48 × PktBody)) :=
  let oc := fmtCode (twFmt w) false
  l.foldlM (fun acc p =>
    (outRows w b ((p.1, 1), (p.2.1, 1)) fun _ _ => 0).foldlM (fun acc o => do
      let old ← match opRead acc.1 region o.1.toNat (codeSize oc) with
        | .ok l => Except.ok (leNat l)
        | .error e => Except.error (RStop.status e)
      let v := if oc = 0x20 then (wideAdd (.ofNat 256 old) p.2.2.1).toNat else old + p.2.2.1.toNat
      let r ← seqWrite acc.1 region serial stream o.1.toNat (leBytes (codeSize oc) v)
      .ok (r.1, acc.2 ++ r.2)) acc) (s, [])
/-- Sends what the window of each stream allows of an entry's packets. -/
def seqPump (region : W32) : Nat → State → List (PktKey × W32 × BitVec 48 × PktBody) → State × List (PktKey × W32 × BitVec 48 × PktBody)
  | 0, s, q => (s, q)
  | n + 1, s, q => match q with
    | [] => (s, [])
    | p :: t =>
      if 64 ≤ unacked s p.1.tag p.1.stream p.1.dst then (s, q)
      else seqPump region n (sendNew s p.1 (.ofNat 16 (effTenant s region)) p.2.1 p.2.2.1 p.2.2.2 (sequencer, none) false) t

/-! ### Words that their level performs itself (R275) -/

/-- The packages of a region's peer table other than this one, by ascending peer number: peer, fabric address, region (R275, 15 R305). -/
def peersOf (s : State) (region : W32) : List (Nat × Nat × Nat) :=
  if effPeertable s region = 0 then []
  else (List.range 4096).filterMap fun p =>
    let e := leNat (readPa s (effPeertable s region + 8 * p) 8)
    if bitAt e 0 ∧ bitAt e 1 ∧ bits e 4 12 ≠ s.fw.fab.toNat then some (p, bits e 4 12, bits e 32 32) else none
/-- Packets to a package's tile sequencer, in stream 15 of this one's tag (R275). -/
def toPeer (s : State) (q : Nat × Nat × Nat) (l : List PktBody) : List (PktKey × W32 × BitVec 48 × PktBody) :=
  let next := (ctrOf s.fabric.seqCon 15 q.2.1).next
  l.zipIdx.map fun p => ({ dst := .ofNat 12 q.2.1, tag := s.fabric.seqCon.tag, stream := 15, seq := next + .ofNat 32 p.2 }, .ofNat 32 q.2.2, 0, p.1)
/-- The rank of this package among those of a region's peer table, by peer number; by fabric address where no entry names it (log entry 39). -/
def ownRank (s : State) (region : W32) : Nat :=
  let own := if effPeertable s region = 0 then none else (List.range 4096).find? fun p =>
    let e := leNat (readPa s (effPeertable s region + 8 * p) 8)
    bitAt e 0 && bitAt e 1 && bits e 4 12 == s.fw.fab.toNat
  (peersOf s region).countP fun q => match own with
    | some p => decide (q.1 < p)
    | none => decide (q.2.1 < s.fw.fab.toNat)
/-- The rows that the package of rank `p` of `n` owns (R275). -/
def ownedRows (rows n p : Nat) : List Nat := let per := (rows + n - 1) / n; (List.range (min per (rows - per * p))).map (per * p + ·)
/-- A row's bytes in packets of at most 256. -/
def rowPackets (sums : Bool) (row : Nat) (l : List Byte) : List PktBody :=
  (List.range ((l.length + 255) / 256)).map fun i => .rows sums (.ofNat 32 row) (.ofNat 32 (256 * i)) ((l.drop (256 * i)).take 256)
/-- The first of the bytes of a row that a package has sent to a region, taken. -/
def heardBytes (s : State) (src : Nat) (region : W32) (sums : Bool) (row off : Nat) : Option (List Byte × State) :=
  s.fabric.heard.findSome? fun h => match h with
    | (a, r, .rows q k o l) =>
      if a.toNat = src ∧ r = region ∧ q = sums ∧ k.toNat = row ∧ o.toNat = off then some (l, { s with fabric := { s.fabric with heard := s.fabric.heard.erase h } }) else none
    | _ => none
/-- A row of `n` bytes that a package has sent to a region, taken; none while a part of it has not come. -/
def heardRow (s : State) (src : Nat) (region : W32) (sums : Bool) (row n : Nat) : Option (List Byte × State) :=
  (List.range ((n + 255) / 256)).foldlM (fun acc i => (heardBytes acc.2 src region sums row (256 * i)).map fun r => (acc.1 ++ r.1, r.2)) ([], s)
/-- Two rows of a format added: wide elements by wide_add, integers modulo their size. -/
def addRow (code : Nat) (a b : List Byte) : List Byte :=
  let n := codeSize code
  (List.range (a.length / n)).flatMap fun i =>
    let f := fun (l : List Byte) => leNat ((l.drop (n * i)).take n)
    leBytes n (if code = 0x20 then (wideAdd (.ofNat 256 (f a)) (.ofNat 256 (f b))).toNat else f a + f b)
/-- An output row of a word with its address. -/
def outRow (w : BitVec 128) (b : List Byte) (row : Nat) (l : List Byte) : W64 × List Byte :=
  (.ofNat 64 (((operands w b)[0]?.map fun o => rowAddr b o row).getD 0), l)
/-- Takes the numbers of packets that leave in streams of the sequencer's tag. -/
def seqNumbers (s : State) (l : List (PktKey × W32 × BitVec 48 × PktBody)) : State :=
  l.foldl (fun s p => let k := ctrOf s.fabric.seqCon p.1.stream p.1.dst.toNat
                      { s with fabric := { s.fabric with seqCon := setCtr s.fabric.seqCon { k with next := p.1.seq + 1 } } }) s
/-- Bytes of an operand as they are staged. -/
def stageOperand (s : State) (region : W32) (b : List Byte) (o : Opnd) : Except (Byte × Nat) (Nat × List Byte) :=
  let (f, page) := opndFmt s region b o
  match (rangesOf b o f page).foldlM (fun acc r => match opRead s region r.1 r.2 with
      | .ok l => Except.ok (acc ++ l)
      | .error e => .error (e, r.1)) ([] : List Byte) with
  | .ok l => .ok (o.idx + 4 * f.toNat, l)
  | .error e => .error e
/-- Every operand that a word reads, staged: the bytes of a level's staging memory (R277; log entry 72); or the status of a read that fails, with its address (R280). -/
def stageAll (s : State) (region : W32) (w : BitVec 128) (b : List Byte) : Except (Byte × Nat) (List (Nat × List Byte)) :=
  ((operands w b).filter fun o => o.rd && !o.codes.isEmpty).mapM (stageOperand s region b)
/-- Sends what the windows allow of the packets of an entry that waits. -/
def pumpEntry (s : State) (e : EntryId) : State :=
  let x := getEntry s e
  let (s, rest) := seqPump e.region x.queue.length s x.queue
  setEntry s e { x with queue := rest, pkts := x.pkts ++ (x.queue.take (x.queue.length - rest.length)).map (·.1) }
/-- An entry waits, with packets to send. -/
def waitSending (s : State) (e : EntryId) (x : Entry) (q : List (PktKey × W32 × BitVec 48 × PktBody)) : State :=
  setEntry (seqNumbers s q) e { x with state := .wait, queue := x.queue ++ q }
/-- A `tw.barrier` of level 4 arrives at every package of the peer table (R275). -/
def barrierStart (s : State) (e : EntryId) : State :=
  let x := getEntry s e
  waitSending s e x ((peersOf s e.region).flatMap fun q => toPeer s q [.barrier (.ofNat 4 (prm x.blocks 0 1))])
/-- It completes once every package has reached a `tw.barrier` of its index. -/
def barrierGo (s : State) (e : EntryId) : State :=
  let s := pumpEntry s e
  let arrival := fun (q : Nat × Nat × Nat) => (BitVec.ofNat 12 q.2.1, e.region, PktBody.barrier (.ofNat 4 (prm (getEntry s e).blocks 0 1)))
  let ps := peersOf s e.region
  if ps.all fun q => s.fabric.heard.contains (arrival q) then
    setState { s with fabric := { s.fabric with heard := ps.foldl (fun l q => l.erase (arrival q)) s.fabric.heard } } e .commit
  else s
/-- `tw.allreduce` stages its input and sends each owner the owner's rows (R275). -/
def allreduceStart (s : State) (e : EntryId) : State :=
  let x := getEntry s e
  let w := wordOfEntry x
  match stageAll s e.region w x.blocks with
  | .error c => faultEntry s e c.1 c.2 []
  | .ok st =>
    let ps := peersOf s e.region
    let t := tenOf w x.blocks st 1
    let me := ownRank s e.region
    waitSending s e { x with staged := st, split := false } (ps.zipIdx.flatMap fun q =>
      toPeer s q.1 ((ownedRows (ext w x.blocks 1) (ps.length + 1) (if q.2 < me then q.2 else q.2 + 1)).flatMap fun i => rowPackets false i (t.rowBytes i)))
/-- It adds what it receives into its own rows and sends every package the sums; then it receives the other owners' sums. -/
def allreduceGo (s : State) (e : EntryId) : State :=
  let s := pumpEntry s e
  let x := getEntry s e
  let w := wordOfEntry x
  let b := x.blocks
  let ps := peersOf s e.region
  let t := tenOf w b x.staged 1
  let n := ext w b 0 * codeSize t.code
  let me := ownRank s e.region
  let owned := fun (k : Nat) => ownedRows (ext w b 1) (ps.length + 1) k
  if !x.split then
    match (owned me).foldlM (fun (acc : List (Nat × List Byte) × State) i =>
        (ps.foldlM (fun (a : List Byte × State) q => (heardRow a.2 q.2.1 e.region false i n).map fun r => (addRow t.code a.1 r.1, r.2)) (t.rowBytes i, acc.2)).map
          fun r => (acc.1 ++ [(i, r.1)], r.2)) ([], s) with
    | none => s
    | some (l, s) => waitSending s e { x with split := true, out := l.map fun p => outRow w b p.1 p.2 }
        (ps.flatMap fun q => toPeer s q (l.flatMap fun p => rowPackets true p.1 p.2))
  else
    match ps.zipIdx.foldlM (fun (acc : List (W64 × List Byte) × State) q =>
        (owned (if q.2 < me then q.2 else q.2 + 1)).foldlM (fun a i => (heardRow a.2 q.1.2.1 e.region true i n).map fun r => (a.1 ++ [outRow w b i r.1], r.2)) acc) (x.out, s) with
    | none => s
    | some (l, s) => setEntry s e { x with state := .commit, split := false, out := l }
/-- Performs a class D word that is active: `again` says that it waited before. -/
def performOwn (s : State) (e : EntryId) (again : Bool) : State :=
  let x := getEntry s e
  let w := wordOfEntry x
  let b := x.blocks
  let fail (c : RStop) : State := match c with
    | .wait _ => setEntry s e { x with state := .wait }
    | .status c => faultEntry s e c (odBase b 0) []
  match twOp w with
  | 0x16 => match seqWrite s e.region (serialOf x) (.ofNat 4 (twStream w)) (odBase b 0) (leBytes 8 (prm b 8 8)) with
    | .ok r => setEntry r.1 e { x with state := .commit, queue := r.2 }
    | .error c => fail c
  | 0x17 => match opRead s e.region (odBase b 1) 8 with
    | .ok l => setEntry s e { x with state := if leNat l = prm b 8 8 then .commit else .wait }
    | .error c => faultEntry s e c (odBase b 1) []
  | 0x0C => if twLevel w = 3 ∨ (peersOf s e.region).isEmpty then setState s e .commit else if again then barrierGo s e else barrierStart s e
  | 0x09 => if again then allreduceGo s e else allreduceStart s e
  | _ => setState s e .commit
/-- The step of a tile word at an entry: CHECK, then STAGE once R270 allows; a class D word is performed once it is active. -/
def tileWord (op : Nat) (t : TileIn) (s : State) : State :=
  let e := t.e
  let x := getEntry s e
  if x.work.map (·.word) ≠ some (wordOfIn op t) then s
  else match x.state with
  | .check =>
    if e.level ≠ 3 then setState s e .stage
    else match (if 0xF0 ≤ op then .ok [] else checkWord s e.region (wordOfIn op t)) with
      | .error f => faultEntry s e f.1 f.2 []
      | .ok b =>
        let x := { x with blocks := b, ranges := if 0xF0 ≤ op then [] else hulls s e.region (wordOfIn op t) b }
        let s := setEntry s e x
        if !(mayStage s e x) then s
        else if classD op then (match toActive s e with
          | some (s, e) => performOwn s e false
          | none => setState s e .stage)
        else setState s e .stage
  | .stage =>
    if classD op && e.level == 3 then (match toActive s e with
      | some (s, e) => performOwn s e false
      | none => s)
    else s
  | .wait => if classD op && e.level == 3 then performOwn s e true else s
  | _ => s

/-! ### Decomposition and placement (R274, R276) -/

/-- Dies, clusters or cores that may take a child of an entry, in order. -/
def targets (s : State) (e : EntryId) (avoid : List Nat) : List Nat :=
  let mask := effClusters s e.region
  let usable (k : Nat) : Bool := bitAt mask k && !(getDie s (k / 4)).disabled && (getCl s k).clearing == 0
  let l := if e.level = 3 then (List.range 8).filter fun d => (List.range 4).any fun c => usable (4 * d + c)
    else if e.level = 2 then ((List.range 4).map (4 * e.place.toNat + ·)).filter usable
    else (List.range 8).map (8 * e.place.toNat + ·)
  l.filter fun p => !(avoid.contains p)
/-- The home die of an address; die 0 for one that lies on no die of this package, in a fabric peer window, of which R276 gives no home die (log entry
102, DESIGN CHOICE). -/
def homeDie (s : State) (region : W32) (va : Nat) : Nat :=
  match opSite s region va 1 {} with
  | .ok { place := .main pa, .. } => paDie pa
  | .ok { place := .dsm d _, .. } => d
  | _ => 0
/-- The first output element of a unit, the call block for a call. -/
def firstOut (s : State) (region : W32) (w : BitVec 128) (b : List Byte) (u : Nat) : Nat :=
  match (operands w b).find? fun o => o.idx == 0 with
  | none => odBase b 0
  | some o =>
    let (f, page) := opndFmt s region b o
    let span := unitSpanOf w b u
    if isQ (f.toNat / 4) then
      let g := geomDims (f.toNat % 4)
      recAddr b o (f.toNat / 4) page (span.1.1 / g.1 * (o.d.1 / g.2) + span.2.1 / g.2)
    else if twOp w = 0x08 then odBase b 0
    else rowAddr b o span.1.1 + span.2.1 * codeSize (f.toNat / 4)
/-- The place of child `c` of unit `u`; none when no target is left. -/
def placeChild (s : State) (e : EntryId) (w : BitVec 128) (b : List Byte) (u c : Nat) (avoid : List Nat) : Option Nat :=
  let l := targets s e avoid
  let h := if e.level = 3 then homeDie s e.region (firstOut s e.region w b u) else 0
  let i0 := if e.level = 3 then (l.findIdx? fun d => decide (h ≤ d)).getD 0 else 0
  l[(i0 + c) % l.length]?
/-- The word of a child. -/
def childWord (w : BitVec 128) (level : Nat) (wide : Bool) (n : Nat) : BitVec 128 :=
  let free := Config.childOperands n
  let keep := twOp w = 0x0B
  (BitVec.ofNat 8 (twOp w)) ++ (BitVec.ofNat 4 level) ++ (BitVec.ofNat 4 (if wide then 4 else twFmt w)) ++ (BitVec.ofNat 3 (twAcq w)) ++ (BitVec.ofNat 3 (twRel w)) ++
    (BitVec.ofNat 4 (twStream w)) ++ (BitVec.ofBool (twReplay w)) ++ (if keep then 0#1 else free.extractLsb' 96 1) ++ (0 : BitVec 4) ++
    (if keep then BitVec.ofNat 32 (twShape w) else free.extractLsb' 64 32) ++ free.extractLsb' 0 64
/-- The children of an active entry, in order of c: `w`, `b` are the top-level word and its blocks. -/
def childrenOf (s : State) (e : EntryId) (x : Entry) (w : BitVec 128) (b : List Byte) : List Child × Bool :=
  match x.work with
  | none => ([], false)
  | some wk =>
    let lvl := e.level.toNat - 1
    if twOp w = 0x0B then
      let group := e.level == 1 && ((callKernel s e.region w).any fun k => k.group)
      (((if group then List.range 8 else [0]).map fun k =>
        { work := { wk with word := childWord wk.word lvl false (s.free + k), pos := k }, place := 0, desc := .ofNat 512 (leNat (b.take 64)) }), false)
    else
      let top := e.level == 3
      let us := if top then List.range (unitCount w b) else [wk.u0]
      let k0 := if top then 0 else wk.k0
      let k1 := if top then reduceExtent w b else wk.k1
      let m := (targets s e []).length
      let kc := if splitsAxis w && decide (us.length < m) then max 1 (min (m / us.length) ((k1 - k0 + 8191) / 8192)) else 1
      let q := 64 * ((k1 - k0 + 64 * kc - 1) / (64 * kc))
      let wide := wk.wide || decide (1 < kc)
      ((us.flatMap fun u => (List.range kc).map fun j => (u, j)).zipIdx.map fun p =>
        { work := { word := childWord wk.word lvl wide (s.free + p.2), serial := wk.serial, u0 := p.1.1, k0 := k0 + p.1.2 * q
                    k1 := min k1 (k0 + (p.1.2 + 1) * q), chunk := wk.chunk * kc + p.1.2, wide := wide }, place := 0
          desc := Config.childBlock (s.free + p.2) }, decide (1 < kc))
/-- What the parent's level has staged, which a level below copies into its own memory (R277). -/
def stagedAbove (s : State) (e : EntryId) : List (Nat × List Byte) := ((getEntry s e).parent.map fun p => (getEntry s p.1).staged).getD []
/-- TILE_STAGE_DONE (R245): the copies are done; the entry becomes active, once the active one is FREE, and enters ISSUE with its children; an error of
the copies is kept until the entry is in WAIT, the state from which R245 lets it fault. -/
def stageDone (s : State) (e : EntryId) : State :=
  let x := getEntry s e
  if x.state ≠ .stage ∨ e.level = 0 ∨ (e.level = 3 ∧ classD (twOp (wordOfEntry x))) then s
  else match (if twOp (wordOfEntry x) = 0x0B then .ok [] else if e.level = 3 then stageAll s e.region (wordOfEntry x) x.blocks else .ok (stagedAbove s e)) with
    | .error c => match toActive s e with
      | none => s
      | some (s, e) => setEntry s e { x with state := .issue, doom := some c, children := [] }
    | .ok st => match toActive s e with
      | none => s
      | some (s, e) =>
        let r := getEntry s (rootOf s e)
        let (cs, split) := childrenOf s e x (wordOfEntry r) r.blocks
        setEntry { s with free := s.free + cs.length } e { x with state := .issue, staged := st, children := cs, split := split }
/-- A child entry by its parent and number. -/
def childEntry (s : State) (e : EntryId) (k : Nat) : Option EntryId := (s.seqs.find? fun p => p.2.parent == some (e, k)).map (·.1)
/-- Replaces a child record. -/
def setChild (s : State) (e : EntryId) (k : Nat) (f : Child → Child) : State :=
  let x := getEntry s e
  setEntry s e { x with children := x.children.zipIdx.map fun p => if p.2 = k then f p.1 else p.1 }
/-- The entry of the next level that a child may be written into: the shadow of its target, or one of a core's two words. -/
def childSlot (s : State) (e : EntryId) (place : Nat) : Option EntryId :=
  let id (sh : Bool) : EntryId := ⟨e.level - 1, .ofNat 8 place, e.region, sh⟩
  if e.level = 1 then ([false, true].map id).find? (isFree s) else if isFree s (id true) then some (id true) else none
/-- The place of a child of an entry. -/
def childPlace (s : State) (e : EntryId) (k : Nat) (c : Child) : Option Nat :=
  let r := getEntry s (rootOf s e)
  let w := wordOfEntry r
  let whole := twOp w = 0x0B ∧ e.level = 1 ∧ ((callKernel s e.region w).any fun k => k.group)
  if whole then some (8 * e.place.toNat + c.work.pos) else placeChild s e w r.blocks c.work.u0 k c.avoid
/-- TILE_CHILD_ISSUE (R246): the next child that is not issued is written into its target; the last one leads to WAIT. -/
def childIssue (s : State) (e : EntryId) : State :=
  let x := getEntry s e
  if x.state ≠ .issue ∧ x.state ≠ .wait then s
  else if x.doom.isSome then setState s e .wait
  else match (x.children.zipIdx).find? fun p => !p.1.issued with
    | none => setState s e .wait
    | some (c, k) => match childPlace s e k c with
      | none => if x.state = .wait then faultEntry s e childFaultCode 0 c.report else setState s e .wait
      | some place => match childSlot s e place with
        | none => s
        | some id =>
          let s := setChild s e k fun c => { c with issued := true, place := place }
          let s := setEntry s id { state := .check, work := some c.work, parent := some (e, k) }
          if (getEntry s e).children.all (·.issued) then setState s e .wait else s
/-- TILE_CHILD_COMPLETE (R245): once every child has completed the entry enters JOIN or COMMIT. -/
def childComplete (s : State) (e : EntryId) (k : Nat) : State :=
  let x := getEntry s e
  if x.state = .wait ∧ !x.children.isEmpty ∧ (x.children.all fun c => c.done) ∧ k < x.children.length then setState s e (if x.split then .join else .commit) else s
/-- The cause of a report. -/
def reportCause (r : BitVec 256) : Byte := .ofNat 8 (bits r.toNat 128 8)
/-- TILE_CHILD_FAULT (R279, 16 R326): the child is run again from its issue record elsewhere, or the parent faults with CHILD_FAULT. A member of a group
call takes one of a cluster's eight cores, of which the failed one is left out (R276): the cluster has no place for the group, so the level above
runs it again in another cluster. -/
def childFault (s : State) (e : EntryId) (k : Nat) : State :=
  match childEntry s e k with
  | none => s
  | some id =>
    let c := getEntry s id
    if c.state ≠ .fault then s
    else
      let x := getEntry s e
      let rec_ := (x.children[k]?).getD { work := { word := 0, serial := 0, u0 := 0, k0 := 0, k1 := 0 }, place := 0 }
      let cause := reportCause (c.reports.head?.getD 0)
      let w := wordOfEntry c
      let group := e.level == 1 && x.children.length == 8 && twOp w == 0x0B
      let lost := cause == restoreUnreachableCode || cause == saveFailedCode
      if twReplay w && decide (rec_.replays < 3) && !group && !(lost && e.level == 1) then
        let s := setEntry (abandon s id) id {}
        setChild s e k fun r => { r with issued := false, done := false, replays := r.replays + 1, avoid := r.place :: r.avoid, report := c.reports }
      else faultEntry s e childFaultCode 0 c.reports

/-! ### JOIN and COMMIT (R278, R285) -/

/-- TILE_JOIN_DONE (R278): the children's partials are added and, unless the entry owes a partial itself, drained once. -/
def joinDone (s : State) (e : EntryId) : State :=
  let x := getEntry s e
  if x.state ≠ .join then s
  else
    let r := getEntry s (rootOf s e)
    let code := (tenOf (wordOfEntry r) r.blocks x.staged 1).code
    let l := joinPartials (wordOfEntry r) r.blocks code x.partials
    let wide := (x.work.map (·.wide)).getD false
    setEntry s e { x with state := .commit, partials := if wide then l else [], out := if wide then x.out else drainJoined (wordOfEntry r) r.blocks code l }
/-- The boundary of the bolter at a top-level commit (18 R347). -/
def bolterBoundary (s : State) (region serial : W32) : State :=
  match findRegion s region with
  | none => s
  | some r =>
    if !r.bolter then s
    else
      let gs := sortBy (fun a b => decide (a ≤ b)) ((r.dirty.filter fun d => d.1 == serial).map fun d => d.2.toNat)
      let hs := gs.map fun v => (v, shake256 16 (leBytes 8 v ++ (match readVa s region v 65536 with
        | .ok l => l
        | .error _ => [])))
      let s := if r.listMode then hs.foldl (fun s h => appendRecord s region (.ofNat 256 (packFields [(9, 8), (h.1, 8), (leNat h.2, 16)]))) s else s
      let root := shake256 16 (leBytes 4 serial.toNat ++ leBytes 4 gs.length ++ hs.flatMap fun h => leBytes 8 h.1 ++ h.2)
      let s := appendRecord s region (.ofNat 256 (packFields [(7, 4), (serial.toNat, 4), (gs.length, 4), (tick s, 4), (leNat root, 16)]))
      modRegion s region fun r => { r with dirty := r.dirty.filter fun d => d.1 != serial }
/-- A tile word of a region completes: its progress timer is cleared (12 R262). -/
def clearTimer (s : State) (region : W32) : State := modRegion s region fun r => { r with timer := 0 }
/-- Passes what a child's level committed up to its parent. -/
def passUp (s : State) (e : EntryId) (outs : List (W64 × List Byte)) (partials : List (Nat × Nat × Wide × Nat)) : State :=
  let s := clearTimer s e.region
  match (getEntry s e).parent with
  | none => s
  | some (p, k) =>
    let s := setChild s p k fun c => { c with done := true }
    let y := getEntry s p
    setEntry (setEntry s p { y with out := y.out ++ outs, partials := y.partials ++ partials }) e {}
/-- The end of a top-level word. -/
def finishTop (s : State) (e : EntryId) (x : Entry) : State :=
  let s := bolterBoundary (clearTimer s e.region) e.region (serialOf x)
  let s := match x.packet with
    | some (k, j) => commitWord s k j
    | none => s
  acceptWord (setEntry s e {}) e.region
/-- The address of the first byte of some outputs that cannot be written (R280). -/
def firstBad (s : State) (region : W32) (l : List (W64 × List Byte)) : Nat :=
  (l.findSome? fun o => (piecesOf s region o.1.toNat o.2.length).findSome? fun p => match opSite s region p.1 p.2 { w := true } with
    | .ok _ => none
    | .error _ => some p.1).getD 0
/-- The commit of a top-level word: output bytes are written, packets sent, and the completion reported once every packet is acknowledged. -/
def commitTop (s : State) (e : EntryId) : State :=
  let x := getEntry s e
  let w := wordOfEntry x
  let st : BitVec 4 := .ofNat 4 (twStream w)
  let wr : Except RStop (State × List (PktKey × W32 × BitVec 48 × PktBody)) := do
    let a ← seqWriteAll s e.region (serialOf x) st x.out
    let c ← if twOp w = 0x08 then seqAddAll a.1 e.region (serialOf x) st w x.blocks x.partials else .ok (a.1, [])
    .ok (c.1, a.2 ++ c.2)
  match wr with
  | .error (.wait _) => s
  | .error (.status c) => faultEntry s e c (firstBad s e.region x.out) []
  | .ok (s, new) =>
    let q := x.queue ++ new
    let (s, rest) := seqPump e.region q.length s q
    let sent := x.pkts ++ (q.take (q.length - rest.length)).map (·.1)
    match s.fabric.seqFails.find? fun f => sent.contains f.1 with
    | some f => faultEntry { s with fabric := { s.fabric with seqFails := s.fabric.seqFails.filter fun g => !(sent.contains g.1) } } e f.2 0 []
    | none =>
      if rest.isEmpty && !(s.fabric.held.any fun h => sent.contains h.key) then finishTop s e x
      else setEntry s e { x with out := [], partials := [], queue := rest, pkts := sent }
/-- Moves the output tiles of a kernel run to the destinations of its call block, row by row (R285). -/
def commitCall (s : State) (e : EntryId) : State :=
  let x := getEntry s e
  let root := rootOf s e
  let r := getEntry s root
  match callKernel s e.region (wordOfEntry r), x.work with
  | some k, some wk =>
    let rows := ((callEntries k r.blocks).filter (·.out)).flatMap fun t =>
      let tile := ((x.out.find? fun o => o.1.toNat % 8 == t.tile).map (·.2)).getD []
      (entryRows t wk.pos).zipIdx.map fun q => (BitVec.ofNat 64 q.1.1, (tile.drop (q.2 * t.per)).take t.per)
    match seqWriteAll s e.region wk.serial (.ofNat 4 (twStream (wordOfEntry r))) rows with
    | .error (.wait _) => s
    | .error (.status c) => faultEntry s e c (firstBad s e.region rows) []
    | .ok (s, q) =>
      let y := getEntry s root
      passUp (setEntry s root { y with queue := y.queue ++ q }) e [] []
  | _, _ => faultEntry s e illegalForm 0 []
/-- Whether every member of a group call has reached its `kend`. -/
def groupDone (s : State) (e : EntryId) : Bool :=
  match (getEntry s e).parent with
  | none => true
  | some (p, _) =>
    let cs := (getEntry s p).children
    cs.zipIdx.all fun c => c.1.done || ((childEntry s p c.2).any fun i => (getEntry s i).state == .commit)
/-- TILE_COMMIT (R245, R285): outputs go to the parent's level, or, at the top, to memory, and completion is reported; a top-level fault is reported
in its turn. Each completion clears the region's progress timer (12 R262). -/
def tileCommit (s : State) (e : EntryId) : State :=
  let x := getEntry s e
  match x.state with
  | .commit =>
    if e.level = 3 then commitTop s e
    else if e.level = 0 ∧ twOp (wordOfEntry x) = 0x0B then (if groupDone s e then commitCall s e else s)
    else passUp s e x.out x.partials
  | .fault =>
    if e.level ≠ 3 ∨ (e.shadow ∧ !(isFree s (activeOf e))) then s
    else if 1 < x.reports.length then acceptWord (domainStop s e.region childFaultCode 0 0 [(e, x.reports)]) e.region
    else
      let s := x.reports.foldl errorRecord s
      let s := match x.packet with
        | some (k, j) => failWord s k j x.reports
        | none => s
      acceptWord (setEntry s e {}) e.region
  | _ => s

end Sys2Proof.Machine
end

