-- ==== Sys2Proof/Machine/KernelStart.lean ====
section
/-! DEFINITION. The start of a kernel (13 R282, R284; 12 R248): placement, residency of its code and of the monitor (15 R296), staged inputs, the
state at start; the built-in kernels' run (13 R284). -/

namespace Sys2Proof.Machine

/-! ### Physical blocks of a core (12 R248, 16 R320) -/

/-- Kind of a unit and how many blocks of it a core has. -/
def unitKind (u : Nat) : Nat := if u < 512 then 0 else if u < 640 then 1 else if u < 768 then 2 else 3
def kindCap : List Nat := [512, 128, 128, 32]
/-- Units of a core's blocks still departing. -/
def departing (s : State) (core : Nat) : List Nat :=
  ((getCl s (core / 8)).hoist.filter fun j => j.kind == 1 && j.ctx.core.toNat == core).map (·.unit)
/-- Whether a footprint fits the blocks that the core's other slot and departing units leave free. -/
def blocksFit (s : State) (c : CtxId) (foot : List Nat) : Bool :=
  let o := getCtx s (otherSlot c)
  let used := (if o.run.state = .empty then [] else o.prog.footprint) ++ departing s c.core.toNat
  kindCap.zipIdx.all fun k => decide ((foot ++ used).countP (fun u => unitKind u == k.2) ≤ k.1)

/-! ### Residency (13 R282, 15 R296) -/

/-- Physical pages that a slot's context maps. -/
def mappedPages (s : State) (c : CtxId) : List Nat := if (getCtx s c).run.state = .empty then [] else (imapOf (getCore s c.core.toNat) c.sec).map fun p => p.2.toNat - 1
/-- Pages of a kernel's code. -/
def codePages (k : Kernel) : Nat := (k.code.length + 4095) / 4096
/-- Whether the other slot runs the same kernel. -/
def sharesImage (s : State) (c : CtxId) (k : Kernel) : Bool :=
  let o := getCtx s (otherSlot c)
  o.run.state != .empty && o.prog.kernel == k.num && o.prog.region == k.region
/-- Physical pages for a kernel: those of the other slot's context of the same kernel, else free ones in ascending order. -/
def choosePages (s : State) (c : CtxId) (k : Kernel) : Option (List Nat) :=
  if sharesImage s c k then
    some ((List.range (codePages k)).map fun p => (cellGet (imapOf (getCore s c.core.toNat) (!c.sec)) p).toNat - 1)
  else
    let l := ((List.range 60).filter fun p => !((mappedPages s (otherSlot c)).contains p)).take (codePages k)
    if l.length = codePages k then some l else none
/-- Loads code into physical pages; the rest of the last page is 0. -/
def loadPages (m : Memory) (pages : List Nat) (code : List Byte) : Memory :=
  pages.zipIdx.foldl (fun m p => let l := (code.drop (4096 * p.2)).take 4096
                                 cellBlit m (4096 * p.1) (l ++ List.replicate (4096 - l.length) 0)) m
/-- Whether the two contexts of a core may share its monitor pages. -/
def monitorAgrees (s : State) (c : CtxId) (region : W32) : Bool :=
  let o := getCtx s (otherSlot c)
  o.run.state == .empty || forCtx effMonitor s o == effMonitor s region
/-- Makes a kernel and the monitor of its region resident for a slot, the monitor when the region's first context arrives on the core (15 R296); none
where the start has to wait. -/
def makeResident (s : State) (c : CtxId) (k : Kernel) : Option State :=
  if !(monitorAgrees s c k.region) then none
  else match choosePages s c k with
    | none => none
    | some pages =>
      let id := (k.region, effMonitor s k.region)
      let fresh := !((getCore s c.core.toNat).monitors.contains id)
      let mon := if fresh then readPa s (effMonitor s k.region % 2 ^ 39) 16384 else []
      let s := if fresh then extend s 11 (digest512 mon) else s
      let map : Cells 8 := (pages.zipIdx.map fun p => (p.2, BitVec.ofNat 8 (p.1 + 1))) ++ (List.range 4).map fun i => (60 + i, BitVec.ofNat 8 (61 + i))
      let share := sharesImage s c k
      some (modCore s c.core.toNat fun q =>
        let m := if fresh then cellBlit q.imem (4096 * 60) mon else q.imem
        let m := if share then m else loadPages m pages k.code
        let q := { q with imem := m, vacant := false, monitors := if fresh then id :: q.monitors.filter (fun p => p.2 == id.2) else q.monitors }
        if c.sec then { q with map1 := map } else { q with map0 := map })
/-- %imap of a slot whose map is set (R282). -/
def imapBits (m : Cells 8) : W64 := m.foldl (fun w p => setBit w p.1 true) 0

/-! ### Continuation state (10 R206) -/

/-- Takes the continuation state that a slot holds for a region, or fresh state with a tag that no context has held. -/
def takeConts (s : State) (c : CtxId) (region : W32) : State × Conts :=
  match (getCore s c.core.toNat).left.find? fun l => l.1 == c.sec && l.2.1 == region with
  | some l => (modCore s c.core.toNat fun k => { k with left := k.left.filter fun m => !(m.1 == c.sec && m.2.1 == region) }, l.2.2)
  | none => ({ s with fabric := { s.fabric with tags := s.fabric.tags + 1 } }, { tag := .ofNat 64 (s.fabric.tags + 1) })

/-! ### The state at start (R284) -/

/-- Input tiles of a core's call, row after row; a failed read is its status with its address. -/
def stageTiles (s : State) (region : W32) (k : Kernel) (b : List Byte) (pos : Nat) : Except (Byte × Nat) Memory :=
  ((callEntries k b).filter fun e => !e.out).foldlM (fun (m : Memory) e => do
    let l ← (entryRows e pos).foldlM (fun acc r => match opRead s region r.1 r.2 with
      | .ok l => Except.ok (acc ++ l)
      | .error e => .error (e, r.1)) ([] : List Byte)
    .ok (cellBlit m (((k.tiles[e.tile]?).map (·.off)).getD 0) l)) []
/-- Scratch tiles hold free bytes (R11, log entry 7). -/
def scratchTiles (free : Nat) (k : Kernel) (m : Memory) : Memory :=
  (k.tiles.filter fun t => t.kind == 2).foldl (fun m t => cellBlit m t.off ((List.range t.size).map fun i => Config.freeByte free (t.off + i))) m
/-- Block tags from the declarations (04 R98). -/
def declaredTags (k : Kernel) : Cells 8 := k.tiles.foldl (fun m t => (scrUnits t.off t.size).foldl (fun m u => cellSet m u t.fmt) m) []
/-- Arguments and tile locations in the s registers (R283, R284). -/
def startRegs (k : Kernel) (b : List Byte) (pos : Nat) : Cells 64 :=
  let args := (List.range 15).foldl (fun m i => cellSet m (i + 1) (.ofNat 64 (blk b (96 + 8 * i) 8))) ([] : Cells 64)
  let patch := blk b (96 + 0x78) 8
  let m := k.tiles.zipIdx.foldl (fun m t =>
    let r := bits patch (4 * t.2) 4
    if r = 0 then m else cellSet m r (.ofNat 64 ((if bitAt patch (32 + t.2) then 0 else 0xA000000000000000) + t.1.off))) args
  cellSet m 16 (.ofNat 64 pos)
/-- The context of a kernel that starts now in slot `c` (R284, R206, 04 R94). -/
def startCtx (s : State) (c : CtxId) (k : Kernel) (e : EntryId) (b : List Byte) (wk : Work) (scratch : Memory) (con : Conts) (group : Bool) : Ctx :=
  let key : BitVec 128 := .ofNat 128 (eff s k.region 17 0x58 16)
  let ctr : BitVec 128 := .ofNat 128 (unitCounter wk.serial 0 wk.pos 0)
  { r := { s := startRegs k b wk.pos, pc := k.entry }
    va := { seed := s.free, key := key, ctr := ctr }
    vb := { seed := s.free, key := key, ctr := ctr ||| .twoPow 128 31 }
    m := { seed := s.free }
    ctl := { imap := imapBits (imapOf (getCore s c.core.toNat) c.sec) }
    sys := { tags := declaredTags k }
    mon := { dbg := ((findRegion s k.region).map (·.dbg)).getD false }
    con := con
    run := { state := .loading }
    prog := { region := k.region, tenant := .ofNat 16 (effTenant s k.region), kernel := k.num, serial := wk.serial, pos := .ofNat 3 wk.pos, group := group
              strict := effStrict s k.region, blk := some ((((findRegion s k.region).bind (·.inForce)).getD (flatBlock s k.region))), entry := some e, callBlock := .ofNat 64 (odBase b 0), footprint := k.footprint, scratch := scratch } }
/-- The slot enters RUN: this is cycle 0 of the kernel, and the cycle before it stands for the previous issue (R284). -/
def enterRun (s : State) (c : CtxId) : State :=
  modCtx s c fun x => { x with run := { x.run with state := .run, last := ownNow s c - 1 } }

/-! ### The start -/

/-- Whether a cluster may take work of a region now (12 R241, 15 R298, R299). -/
def clusterOpen (s : State) (cl : Nat) (region : W32) : Bool :=
  let k := getCl s cl
  k.started && k.clearing == 0 && bitAt (effClusters s region) cl && (k.tenant == 0 || k.tenant.toNat == effTenant s region) && !(getDie s (cl / 4)).disabled
/-- Whether slot `c` can take a new context of a region: EMPTY, no choice of roles pending, a primary unless the core's primary is another one. -/
def slotOpen (s : State) (c : CtxId) (region : W32) : Bool :=
  (getCtx s c).run.state == .empty && clusterOpen s (ctxCl c) region && !((getCore s c.core.toNat).vacant && (getCtx s (otherSlot c)).run.state != .empty)
/-- A built-in kernel starts in a slot, which it holds until the step of its run (R284; log entry 20). -/
def startBuiltin (s : State) (e : EntryId) (c : CtxId) (wk : Work) : State :=
  let x : Ctx := { run := { state := .run }
                   prog := { region := e.region, tenant := .ofNat 16 (effTenant s e.region), serial := wk.serial, entry := some e, builtin := true } }
  let s := modCore s c.core.toNat fun q => if c.sec then { q with map1 := [] } else { q with map0 := [] }
  setState (modCl (setCtx s c x) (ctxCl c) fun q => { q with tenant := x.prog.tenant }) e .wait
/-- A built-in kernel's run: its outputs wait for COMMIT. -/
def runBuiltin (s : State) (e : EntryId) (wk : Work) (r : Entry) : State :=
  let w := wordOfEntry r
  let (f, page) := match (operands w r.blocks).find? fun o => o.idx == 0 with
    | some o => opndFmt s e.region r.blocks o
    | none => (0, 65536)
  let res := builtin (eff s e.region 17 0x58 16) wk w r.blocks (stagedAbove s e) f page
  setEntry s e { getEntry s e with state := .commit, out := res.1, partials := res.2 }
/-- One member of a call enters its slot: staged, resident, with its state; none where it has to wait, a status where staging fails. -/
def startOne (s : State) (e : EntryId) (c : CtxId) (k : Kernel) (b : List Byte) : Option (Except (Byte × Nat) State) :=
  match (getEntry s e).work with
  | none => none
  | some wk =>
    if !(slotOpen s c k.region) || !(blocksFit s c k.footprint) then none
    else match makeResident s c k with
      | none => none
      | some s1 => match stageTiles s k.region k b wk.pos with
        | .error st => some (.error st)
        | .ok m =>
          let (s2, con) := takeConts s1 c k.region
          let x := startCtx s2 c k e b wk (scratchTiles s2.free k m) con k.group
          let s3 := setCtx { s2 with free := s2.free + 1 } c x
          let s3 := modCl s3 (ctxCl c) fun q => { q with tenant := x.prog.tenant }
          some (.ok (setState s3 e .wait))
/-- Members of a call with their slots: one, or the cluster's eight in slots of one role (R284). -/
def callMembers (s : State) (e : EntryId) (c : CtxId) (k : Kernel) : List (EntryId × CtxId) :=
  match (getEntry s e).parent with
  | some (p, _) =>
    if k.group then (List.range 8).filterMap fun i => (childEntry s p i).map fun id => (id, let q := primOf s (8 * ctxCl c + i); if isPrim s c then q else otherSlot q) else [(e, c)]
  | none => []
/-- Whether a started kernel waits in slot `c` for its cycle 0. -/
def startsNow (s : State) (e : EntryId) (c : CtxId) : Bool :=
  (getEntry s e).state == .wait && c.core == e.place && (getCtx s c).run.state == .loading && (getCtx s c).prog.entry == some e && (getCtx s c).prog.image == 0
/-- Whether a built-in kernel of an entry runs in slot `c`. -/
def runsBuiltin (s : State) (e : EntryId) (c : CtxId) : Bool :=
  (getEntry s e).state == .wait && (getCtx s c).run.state == .run && (getCtx s c).prog.builtin && (getCtx s c).prog.entry == some e
/-- KERNEL_START: the kernel of a core-level word starts in slot `c`, which is LOADING until the next cycle, in which it enters RUN (12 R247); a
group's eight start in one cycle. -/
def kernelStart (s : State) (e : EntryId) (c : CtxId) : State :=
  let x := getEntry s e
  let r := getEntry s (rootOf s e)
  match x.work with
  | none => s
  | some wk =>
    if e.level = 0 ∧ startsNow s e c then enterRun s c
    else if runsBuiltin s e c then clearSlot (runBuiltin s e wk r) c
    else if e.level ≠ 0 ∨ x.state ≠ .stage ∨ c.core ≠ e.place ∨ !(slotOpen s c e.region) then s
    else if twOp (wordOfEntry r) ≠ 0x0B then startBuiltin s e c wk
    else match callKernel s e.region (wordOfEntry r) with
      | none => faultEntry s e illegalForm 0 []
      | some k =>
        let ms := callMembers s e c k
        let size := if k.group then 8 else 1
        if ms.length ≠ size ∨ !(ms.all fun m => (getEntry s m.1).state == .stage) then s
        else match ms.foldlM (fun s m => match startOne s m.1 m.2 k r.blocks with
            | some (.ok s) => Except.ok s
            | some (.error st) => .error (some st)
            | none => .error none) s with
          | .ok s => s
          | .error none => s
          | .error (some st) => faultEntry s e st.1 st.2 []

end Sys2Proof.Machine
end

