-- ==== Sys2Proof/Machine/Progress.lean ====
section
/-! DEFINITION. Roles, starvation and yield (12 R250, R260), pre-emption (R261), the watchdog (R258), the progress timeout (R263), answers to
escalations (13 R288); how a save begins (16 R320) and where its image lies (R385). -/

namespace Sys2Proof.Machine

/-! ### Save pools (16 R385) -/

/-- The region that owns the pool a region uses. -/
def poolOf (s : State) (region : W32) : Option Region := (regionPath s (s.regions.length + 1) region).find? fun r => r.poolLen != 0
/-- The lowest place of a pool that is free for `size` bytes. -/
def poolPlace (r : Region) (size : Nat) : Option Nat :=
  let starts := r.pool.toNat :: r.carved.map fun p => p.1.toNat + p.2.1
  ((sortBy (fun a b => decide (a ≤ b)) starts).filter fun a => decide (r.pool.toNat ≤ a ∧ a + size ≤ r.pool.toNat + r.poolLen.toNat)).find? fun a =>
    r.carved.all fun p => decide (a + size ≤ p.1.toNat ∨ p.1.toNat + p.2.1 ≤ a)
/-- Carves an image from a region's pool. -/
def carve (s : State) (region : W32) (size : Nat) : Option (State × W64) :=
  match poolOf s region with
  | none => none
  | some r => (poolPlace r size).map fun a => (modRegion s r.id fun r => { r with carved := (.ofNat 64 a, size, region) :: r.carved }, .ofNat 64 a)
/-- Frees an image of a region's pool. -/
def uncarve (s : State) (region : W32) (a : W64) : State :=
  match poolOf s region with
  | none => s
  | some r => modRegion s r.id fun r => { r with carved := r.carved.filter fun p => p.1 != a }

/-! ### How a save begins (16 R320) -/

/-- Whether a resident context itself is waiting in this cycle (12 R249). -/
def isWaiting (x : Ctx) : Bool :=
  x.run.parkedOn.isSome || x.run.waiting || (match x.run.hold with
    | some (.wdone _ _) => true
    | some .kend => true
    | _ => false)
/-- Whether a resident context is waiting: on its own account, or as a primary braked by a wait of another core (12 R249). -/
def waitsNow (s : State) (c : CtxId) : Bool := isWaiting (getCtx s c) || (canStall s c && (getCl s (ctxCl c)).brake.any fun b => b.waits && !b.stalled.getLsbD (c.core.toNat % 8))

/-- Bytes of a context image and of a group image. -/
def imageSize : Nat := 0x410000
def groupSize : Nat := 0x40000
/-- A context enters SAVING; a yield ends (13 R286). -/
def beginSave (s : State) (c : CtxId) (image : W64) (cause : Byte) (group : W64) : State :=
  let w := if waitsNow s c then some (BitVec.ofNat 256 (waiterRecord s c true)) else none
  modCtx s c fun x => { x with
    run := { x.run with state := .saving, waiting := w.isSome, portUntil := none, itemUntil := 0 }
    prog := { x.prog with saveTo := image, saveCause := cause, saveGroup := group, saveWaiter := w, yielded := false, eligible := false } }
/-- Saves some contexts of a region, as a group where `group` says so; none where the pool has no room. -/
def saveThem (s : State) (region : W32) (cs : List CtxId) (cause : Byte) (group : Bool) : Option State :=
  match (if group then carve s region groupSize else some (s, 0)) with
  | none => none
  | some (s, g) => cs.foldlM (fun s c => (carve s region imageSize).map fun p => beginSave p.1 c p.2 cause g) s
/-- Whether a context may be chosen for a save. -/
def savable (x : Ctx) : Bool := [SlotState.run, .parked, .wait, .monitor].contains x.run.state && !x.mon.esc && !x.prog.builtin
/-- Primaries of a region in a cluster. -/
def primGroup (s : State) (cl : Nat) (region : W32) : List CtxId :=
  ((List.range 8).map fun k => primOf s (8 * cl + k)).filter fun c => (getCtx s c).run.state != .empty && (getCtx s c).prog.region == region

/-! ### Roles (12 R250) -/

/-- A core-level tile word that waits for a core. -/
def waitsForCore (s : State) (core : Nat) : Bool := s.seqs.any fun p => p.1.level == 0 && p.1.place.toNat == core && p.2.state == .stage
/-- Cycles from the last issue to the next one of a context, by the bundle due. -/
def dueOf (s : State) (c : CtxId) : Nat :=
  let x := getCtx s c
  match fetchBundle s c x with
  | .ok b => dueAfter x (some b)
  | .error _ => dueAfter x none
/-- A secondary becomes the primary: its last issue, counted so far in wall cycles, is placed in cluster time, its first issue one cycle later at
the earliest; it runs in interlock mode from here on, and its latch writes so far are at a distance of six or more (06 R143). -/
def promote (s : State) (c : CtxId) : State :=
  let k := getCl s (ctxCl c)
  let due := dueOf s c
  let s := modCore s c.core.toNat fun q => { q with prim := c.sec, vacant := false }
  modCtx s c fun x => { x with
    run := { x.run with kSched := .replicate 4 none, last := if x.mon.active then x.run.last else max (k.ctime - (k.wall - x.run.last)) (k.ctime + 1 - due) }
    prog := { x.prog with starve := 0, starved := false, promoted := true } }
/-- PROMOTION: the choice of roles after the primary slot became EMPTY. -/
def promotion (s : State) (core : Nat) : State :=
  let sec := otherSlot (primOf s core)
  let y := getCtx s sec
  if !(getCore s core).vacant || (getCtx s (primOf s core)).run.state != .empty then s
  else if y.run.state != .empty && y.run.state != .saving && (y.prog.starved || !(waitsForCore s core)) then promote s sec
  else modCore s core fun q => { q with vacant := false }
/-- STARVATION_MARK. -/
def starvationMark (s : State) (core : Nat) : State :=
  let sec := otherSlot (primOf s core)
  let y := getCtx s sec
  if y.run.state != .empty && decide (256 * forCtx effStarve s y ≤ y.prog.starve) then
    modCtx s sec fun x => { x with prog := { x.prog with starved := true } }
  else s

/-! ### Yield and pre-emption (12 R260, R261) -/

/-- YIELD_ELIGIBLE: the spin counter has reached rcb.yieldthr. -/
def yieldEligible (s : State) (c : CtxId) : State :=
  let x := getCtx s c
  if x.run.state != .empty && decide (forCtx effYield s x ≤ x.prog.spin) then modCtx s c fun x => { x with prog := { x.prog with eligible := true } } else s
/-- Whether a context is yield-eligible now. -/
def canYield (s : State) (x : Ctx) : Bool := x.prog.yielded || (x.prog.eligible && decide (forCtx effYield s x ≤ x.prog.spin))
/-- Whether other work of the same tenant or of higher priority waits for one of some cores: a word that is staged there, a context saved from there. -/
def wanted (s : State) (x : Ctx) (cores : List Nat) : Bool :=
  let wants := fun (r : W32) => effTenant s r == x.prog.tenant.toNat || decide (forCtx effPrio s x < effPrio s r)
  (s.seqs.any fun p => p.1.level == 0 && cores.contains p.1.place.toNat && p.2.state == .stage && wants p.1.region) ||
    s.regions.any fun r => wants r.id && r.saved.any fun v => cores.contains v.core.toNat
/-- Whether a tile word of higher priority is ready that finds no free cluster in its mask, which holds this one. -/
def outranked (s : State) (x : Ctx) (cl : Nat) : Bool :=
  s.seqs.any fun p => [TileState.stage, .issue].contains p.2.state && decide (forCtx effPrio s x < effPrio s p.1.region) && bitAt (effClusters s p.1.region) cl &&
    (List.range 32).all fun k => !(bitAt (effClusters s p.1.region) k) || (ctxsOf s k).any fun c => (getCtx s c).run.state != .empty
/-- Whether a context is of the lowest priority of its cluster, with a secondary before the primaries. -/
def lowest (s : State) (c : CtxId) : Bool :=
  let x := getCtx s c
  let here := (ctxsOf s (ctxCl c)).filter fun d => (getCtx s d).run.state != .empty
  here.all fun d =>
    let p := forCtx effPrio s (getCtx s d)
    let q := forCtx effPrio s x
    decide (q ≤ p) && (!(isPrim s c) || isPrim s d || decide (q < p))
/-- PREEMPTION: a secondary alone, or the primaries of its region in the cluster; without room in the pool nothing happens (16 R385). -/
def preemption (s : State) (c : CtxId) : State :=
  let x := getCtx s c
  let cl := ctxCl c
  if !(savable x) then s
  else if isPrim s c then
    let g := primGroup s cl x.prog.region
    let cores := (List.range 8).map (8 * cl + ·)
    if (g.all fun d => savable (getCtx s d)) && (((g.all fun d => canYield s (getCtx s d)) && wanted s x cores) || (outranked s x cl && lowest s c)) then
      (saveThem s x.prog.region g 0 true).getD s
    else s
  else if (canYield s x && wanted s x [c.core.toNat]) || (outranked s x cl && lowest s c) then (saveThem s x.prog.region [c] 0 false).getD s
  else s

/-! ### The watchdog (12 R258) -/

/-- The limit of a cluster's watchdog: the least of its primaries' regions. -/
def watchdog (s : State) (cl : Nat) : Nat :=
  let l := (((List.range 8).map fun k => primOf s (8 * cl + k)).filter fun c => (getCtx s c).run.state != .empty).map fun c => forCtx effBrakewd s (getCtx s c)
  2 ^ (l.foldl min 24)
/-- A report for a region's tile sequencer of a cluster: its active entry keeps it. -/
def tellCluster (s : State) (cl : Nat) (region : W32) (rep : BitVec 256) : State :=
  let e : EntryId := ⟨1, .ofNat 8 cl, region, false⟩
  if isFree s e then s else setEntry s e { getEntry s e with told := (getEntry s e).told ++ [rep] }
/-- The context whose condition began the brake stands at the stalled bundle, where it will take the trap: one that waits in a `wdone` or `kend` at
that syllable's bundle. -/
def atStalled (x : Ctx) : Ctx :=
  match x.run.hold with
  | some (.wdone _ _) => back
  | some .kend => back
  | _ => x
where
  /-- Back at the bundle that waits. -/
  back : Ctx := { x with r := { x.r with pc := x.run.heldPc }, ctl := { x.ctl with rptidx := x.run.heldRpt }, run := { x.run with hold := none } }
/-- BRAKE_TIMEOUT: every primary of the cluster enters SAVING, the contexts of each region as one group; a region without room is stopped. -/
def brakeTimeout (s : State) (cl : Nat) : State :=
  match (getCl s cl).brake with
  | none => s
  | some b =>
    let lost := (getCl s cl).wall - b.first
    if lost < watchdog s cl ∨ forced s cl then s
    else
      let rep := faultReport 0 brakeTimeoutCode 0 (whereCore (8 * cl + b.core)) b.serial (trBundle b.bundle b.rpt.toNat b.slot)
      let p := primOf s (8 * cl + b.core)
      let s := tellCluster (errorRecord s rep) cl b.region rep
      let s := modCtx s p fun x => { x with run := { x.run with brakeTrap := some lost } }
      let s := enter (modCl s cl fun k => { k with boundary := [] }) cl (getCl s cl).boundary
      let regs := (((List.range 8).map fun k => primOf s (8 * cl + k)).filter fun c => (getCtx s c).run.state != .empty).map fun c => (getCtx s c).prog.region
      regs.eraseDups.foldl (fun s r =>
        let g := (primGroup s cl r).filter fun c => (getCtx s c).run.state != .saving && !(getCtx s c).prog.builtin
        match saveThem s r g brakeTimeoutCode true with
        | some s => g.foldl (fun s c => modCtx s c fun x => let x := if c = p then atStalled x else x
                                                            { x with prog := { x.prog with saveBundle := some (trBundle b.bundle b.rpt.toNat b.slot) } }) s
        | none =>
          if r = b.region then stopOver s p brakeTimeoutCode (trBundle b.bundle b.rpt.toNat b.slot)
          else domainStop s r brakeTimeoutCode (whereCore (8 * cl + b.core)) (trBundle b.bundle b.rpt.toNat b.slot) []) s

/-! ### The progress timeout (12 R262, R263) -/

/-- Contexts of a region that are resident. -/
def regionCtxs (s : State) (r : W32) : List CtxId := residents s fun _ x => x.prog.region == r
/-- PROGRESS_TIMEOUT: a record of every waiting context, resident or saved, then the stop of the fault domain. -/
def progressTimeout (s : State) (region : W32) : State :=
  match findRegion s region with
  | none => s
  | some r =>
    if region = 0 ∨ r.timer < 1024 * effTimeout s region then s
    else
      let recs := (((regionCtxs s region).filter fun c => waitsNow s c).map fun c => BitVec.ofNat 256 (waiterRecord s c false)) ++ r.saved.filterMap (·.waiter)
      let s := recs.foldl (fun s w => errorRecord (appendRecord s region w) w) s
      domainStop s region progressTimeoutCode 0 0 []

/-! ### Answers to escalations (13 R288) -/

/-- ESC_ANSWER: the monitor goes on at the next bundle with the firmware's reply, or the fault domain stops with the monitor's cause. -/
def escAnswer (s : State) (c : CtxId) (ans : EscAns) : State :=
  let x := getCtx s c
  match x.run.hold with
  | some (.esc r fault) => match ans with
    | .resume v =>
      let skip := if fault then (match fetchBundle s c x with
        | .ok b => b.len
        | .error _ => 4) else 0
      modCtx s c fun x => { x with
        r := { sSet x.r r.toNat v with pc := x.r.pc + .ofNat 32 skip }
        ctl := { x.ctl with rptidx := if fault then 0 else x.ctl.rptidx }
        mon := { x.mon with esc := false }
        run := { x.run with hold := none, state := .monitor, last := (getCl s (ctxCl c)).wall, gap := 0 } }
    | .stop => stopOver s c (.ofNat 8 x.mon.mcause.toNat) x.mon.mtval.toNat
  | _ => s

end Sys2Proof.Machine
end

