-- ==== Sys2Proof/Machine/Hoist.lean ====
section
/-! DEFINITION. The sack hoist and the cluster tile sequencers' saves and restores: requests of a monitor (13 R291), saving by departure (16 R320,
R321), restoring before arrival (R322, R323), failures (R324, R325), groups (12 R258, R259; 16 R319). -/

namespace Sys2Proof.Machine

/-! ### Images in a region's space (16 R318) -/

/-- Where an image may lie: 64 KiB aligned, in main memory or behind a peer window. -/
def imagePlace (a : W64) : Bool := a.toNat % 65536 == 0 && (decide (a.toNat / 2 ^ 60 < 8) || a.toNat / 2 ^ 60 == 0xC)
/-- Writes bytes of an image; those behind another package's window leave as packets of stream 0. -/
def imgWrite (s : State) (region : W32) (va : Nat) (l : List Byte) : Except Byte State :=
  if va / 2 ^ 60 = 0xC then
    match seqWrite s region 0 0 va l with
    | .error (.status e) => .error e
    | .error (.wait _) => .ok s
    | .ok (s, q) => .ok (pumpHoist { s with fabric := { s.fabric with hoistQ := s.fabric.hoistQ ++ q.map fun p => (.ofNat 16 (effTenant s region), p) } })
  else writeVa s region va l
/-- The directory byte of a unit in an image, its low two bits. -/
def dirByte (s : State) (region : W32) (image : W64) (u : Nat) : Option Nat :=
  match opRead s region (image.toNat + 0x80 + u) 1 with
  | .ok [b] => some (b.toNat % 4)
  | _ => none

/-! ### Reports of failures (16 R324, R325) -/

/-- A failure of a save or restore: to the firmware error core, and to the cluster tile sequencer for the tile word that the context ran. -/
def hoistFault (s : State) (entry : Option EntryId) (cause : Byte) (core : Nat) (serial : W32) (detail : Nat) : State :=
  let word := match entry with
    | some e => wordOfEntry (getEntry s e)
    | none => 0
  let rep := faultReport word cause 0 (whereCore core) serial detail
  let s := errorRecord s rep
  match entry with
  | some e => if (getEntry s e).state = .free then s else setEntry (abandon s e) e { getEntry s e with state := .fault, reports := [rep], children := [] }
  | none => s
/-- Removes the record of a saved image. -/
def dropSaved (s : State) (region : W32) (image : W64) : State := modRegion s region fun r => { r with saved := r.saved.filter fun v => v.image != image }
/-- The record of a saved image. -/
def findSaved (s : State) (region : W32) (image : W64) : Option Saved := (findRegion s region).bind fun r => r.saved.find? fun v => v.image == image
/-- SAVE_FAILED: writing stops, units not yet written are lost; the report names the offset, or the watchdog's bundle. -/
def failSave (s : State) (cl core : Nat) (region : W32) (image : W64) (serial : W32) (entry : Option EntryId) (bundle : Option Nat) (off : Nat) : State :=
  let s := modCl s cl fun k => { k with hoist := k.hoist.filter fun j => !((j.kind == 1 || j.kind == 2) && j.image == image && j.region == region) }
  hoistFault (uncarve (dropSaved s region image) region image) entry saveFailedCode core serial (bundle.getD off)
/-- A restored context stops with RESTORE_UNREACHABLE, the members of its group with it. -/
def stopUnreachable (s : State) (c : CtxId) (detail : Nat) : State :=
  let x := getCtx s c
  let mates := if x.prog.saveGroup = 0 then [c] else residents s fun _ y => y.prog.region == x.prog.region && y.prog.saveGroup == x.prog.saveGroup
  mates.foldl (fun s d =>
    let y := getCtx s d
    let s := clearSlot (runOut s d) d
    hoistFault (uncarve s y.prog.region y.prog.image) y.prog.entry restoreUnreachableCode d.core.toNat y.prog.serial detail) s

/-! ### Saving (16 R320) -/

/-- Rows of a context's sends and multicasts that are on their way. -/
def rowsUnderWay (s : State) (c : CtxId) : List NetRow := ((getCl s (ctxCl c)).net ++ (getCl s (ctxCl c)).win).filter fun r => r.src == c
/-- Transfers that a save does not wait for: arrivals that have not flipped and, for a group, rows under way (12 R258). -/
def exempt (s : State) (c : CtxId) (group : Bool) (ch : Side) (t : Xfer) : Bool :=
  t.phase == .atBarrier || (group && (rowsUnderWay s c).any fun r => r.ch == ch && r.tid == t.tid)
/-- Whether everything that a context has issued has landed and completed. -/
def settled (s : State) (c : CtxId) : Bool :=
  let x := getCtx s c
  let group := x.prog.saveGroup != 0
  let wall := (getCl s (ctxCl c)).wall
  x.run.rows.isEmpty && (x.run.sb.all fun p => decide (p.at_ ≤ wall)) && (x.con.c0.xfers.all (exempt s c group .a)) && x.con.c1.xfers.all (exempt s c group .b)
/-- Present units depart with their bytes, absent ones are copied from the image that the context came from. -/
def departJobs (c : CtxId) (x : Ctx) : List HoistJob :=
  let l := recencyList x
  let job (kind : BitVec 2) (u : Nat) (data : List Byte) : HoistJob :=
    { kind := kind, ctx := c, region := x.prog.region, unit := u, image := x.prog.saveTo, src := x.prog.image, data := data }
  ((l.filter fun u => !(x.prog.absent.contains u)).map fun u => job 1 u (unitBytes x u)) ++
    (if x.prog.image = x.prog.saveTo then [] else (l.filter x.prog.absent.contains).map fun u => job 2 u [])
/-- A single save's primary loses its core's held arrivals (10 R219). -/
def dropArrivals (s : State) (c : CtxId) : State :=
  modCl s (ctxCl c) fun k => { k with recv := k.recv.filter fun p => p.1 / 16 != c.core.toNat % 8 }
/-- Writes a context's header, directory, recency list and core head, empties its slot and starts its departures. -/
def saveOne (s : State) (c : CtxId) : State :=
  let x := getCtx s c
  let x := { x with m := { x.m with rowprog := 0 } }
  let region := x.prog.region
  let a := x.prog.saveTo
  let go (s : State) : State := clearSlot s c
  let fail (off : Nat) : State := failSave (go s) (ctxCl c) c.core.toNat region a x.prog.serial x.prog.entry x.prog.saveBundle off
  if 3328 < x.con.ctrs.length then fail 0x10000
  else match imgWrite s region a.toNat (imageStart s c x x.prog.saveCause x.prog.saveGroup) with
    | .error _ => fail 0
    | .ok s =>
      let prim := isPrim s c
      let s := if prim && x.prog.saveGroup == 0 then dropArrivals s c else s
      let kept := (x.con.c0.xfers.map fun t => (Side.a, t)) ++ x.con.c1.xfers.map fun t => (Side.b, t)
      let v : Saved := { image := a, group := x.prog.saveGroup, waiter := x.prog.saveWaiter, parked := x.run.parkedOn
                         entry := x.prog.entry, callBlock := x.prog.callBlock, pos := x.prog.pos, lost := x.run.brakeTrap, bundle := x.prog.saveBundle, keep := kept
                         core := c.core, leaves := x.prog.leaves, passed := x.prog.passed, horizon := x.prog.horizon, blk := x.prog.blk }
      let s := modRegion (go s) region fun r => { r with saved := r.saved.filter (fun w => w.image != a) ++ [v] }
      modCl s (ctxCl c) fun k => { k with hoist := k.hoist ++ departJobs c x }
/-- The bytes of a group image (16 R319; widths of the first fields, and the transfer identifier in a record, are the model's, log entry 33). -/
def groupBytes (s : State) (cl : Nat) (region : W32) (ms : List CtxId) (rows : List NetRow) : List (Nat × List Byte) :=
  let k := getCl s cl
  let image (i : Nat) : Nat := ((ms.find? fun c => c.core.toNat % 8 == i).map fun c => (getCtx s c).prog.saveTo.toNat).getD 0
  let mine (key : Nat) : Bool := ms.any fun c => c.core.toNat % 8 == key / 16
  let head := leBytes 4 0x4B514347 ++ leBytes 4 ms.length ++ leBytes 8 k.ctime ++ leBytes 4 region.toNat ++ leBytes 4 rows.length ++ leBytes 40 0
  let bars := (List.range 16).flatMap fun i => let r := tabGet {} k.bars i
                                               leBytes 8 (r.arrived.foldl (fun n l => n + 2 ^ l) 0 + 256 * b2n r.phase)
  let held := k.recv.filter fun p => mine p.1
  let entries := (List.range 128).flatMap fun i => match held.find? fun p => p.1 == i with
    | some p => leBytes 4 (2 ^ 31 + p.2.length)
    | none => leBytes 4 0
  let recs := rows.zipIdx.map fun r =>
    (0x10000 + 272 * r.2, [(if k.win.contains r.1 then 1 else 0 : Byte), .ofNat 8 (r.1.src.core.toNat % 8 + (if r.1.ch = .b then 8 else 0)), .ofNat 8 r.1.target, 0] ++
      leBytes 4 r.1.off ++ leBytes 2 r.1.data.length ++ leBytes 2 (r.1.due - k.ctime) ++ leBytes 4 r.1.tid.toNat ++ r.1.data ++ List.replicate (256 - r.1.data.length) 0)
  [(0, head ++ (List.range 8).flatMap (fun i => leBytes 8 (image i)) ++ bars ++ entries)] ++
    (held.map fun p => (0x1000 + 256 * p.1, p.2 ++ List.replicate (256 - p.2.length) 0)) ++ recs
/-- Saves a group whose members have all settled. -/
def saveGroupOf (s : State) (cl : Nat) (region : W32) (g : W64) (ms : List CtxId) : State :=
  let rows := ms.flatMap (rowsUnderWay s)
  let w := (groupBytes s cl region ms rows).foldlM (fun s p => imgWrite s region (g.toNat + p.1) p.2) s
  match w with
  | .error _ =>
    ms.foldl (fun s c =>
      let x := getCtx s c
      failSave (clearSlot s c) cl c.core.toNat region x.prog.saveTo x.prog.serial x.prog.entry x.prog.saveBundle 0) (uncarve s region g)
  | .ok s =>
    let s := ms.foldl (fun s c => saveOne s c) s
    modCl s cl fun k => { k with
      net := k.net.filter fun r => !(rows.contains r)
      win := k.win.filter fun r => !(rows.contains r)
      recv := k.recv.filter fun p => !(ms.any fun c => c.core.toNat % 8 == p.1 / 16) }
/-- CONTEXT_SAVE: once the context, or every member of its group, has settled; a wait that has ended meanwhile ends first. -/
def contextSave (s : State) (c : CtxId) : State :=
  let x := getCtx s c
  if x.run.state ≠ .saving then s
  else
    let g := x.prog.saveGroup
    let ms := if g = 0 then [c] else (ctxsOf s (ctxCl c)).filter fun d => (getCtx s d).run.state == .saving && (getCtx s d).prog.saveGroup == g
    if !(ms.all (settled s)) then s
    else
      let s := ms.foldl (fun s d =>
        let t := endHold s d
        if (getCtx t d).run.state = .empty then uncarve t x.prog.region (getCtx s d).prog.saveTo else modCtx t d fun y => { y with run := { y.run with state := .saving } }) s
      let ms := ms.filter fun d => (getCtx s d).run.state == .saving
      match ms with
      | [] => uncarve s x.prog.region g
      | _ => if g = 0 then saveOne s c else saveGroupOf s (ctxCl c) x.prog.region g ms
/-- The first departure, or copy whose source is written, that a cluster's hoist can complete. -/
def nextWrite (s : State) (cl : Nat) : Option HoistJob :=
  (getCl s cl).hoist.find? fun j => j.kind == 1 || (j.kind == 2 && dirByte s j.region j.src j.unit == some 2)
/-- The saved image's serial number and entry. -/
def savedOwner (s : State) (j : HoistJob) : W32 × Option EntryId × Option Nat :=
  match findSaved s j.region j.image with
  | some v => (match v.entry with
    | some e => serialOf (getEntry s e)
    | none => 0, v.entry, v.bundle)
  | none => (0, none, none)
/-- UNIT_DEPARTURE_DONE (16 R321): a unit is written, its directory byte reads 10 and its block is free; or the write fails. -/
def departureDone (s : State) (cl : Nat) (fails : Bool) : State :=
  match nextWrite s cl with
  | none => s
  | some j =>
    let span := unitSpan j.unit
    let data := if j.kind = 1 then .ok j.data else opRead s j.region (j.src.toNat + span.1) span.2
    let w := if fails then .error eccUncorrected else do
      let l ← data
      let s ← imgWrite s j.region (j.image.toNat + span.1) l
      imgWrite s j.region (j.image.toNat + 0x80 + j.unit) [2]
    match w with
    | .ok s => modCl s cl fun k => { k with hoist := k.hoist.filter fun i => i != j }
    | .error _ =>
      let s := match imgWrite s j.region (j.image.toNat + 0x80 + j.unit) [3] with
        | .ok s => s
        | .error _ => s
      let o := savedOwner s j
      failSave s cl j.ctx.core.toNat j.region j.image o.1 o.2.1 o.2.2 span.1
/-- SAVE_FAILED (16 R325): a copy whose source reads 11, or has read 01 for 2^20 ticks. -/
def saveFailed (s : State) (cl : Nat) : State :=
  match (getCl s cl).hoist.find? fun j => j.kind == 2 && (dirByte s j.region j.src j.unit == some 3 || j.pendSince.any fun t => decide (t + 2 ^ 20 ≤ tick s)) with
  | none => s
  | some j =>
    let o := savedOwner s j
    failSave s cl j.ctx.core.toNat j.region j.image o.1 o.2.1 o.2.2 (unitSpan j.unit).1

/-! ### Restoring (16 R322) -/

/-- Recency stamps that give a recency list back. -/
def stampsOf (l : List Nat) : Cells 64 := l.zipIdx.foldl (fun m p => cellSet m p.1 (.ofNat 64 (l.length - p.2))) []
/-- The restored context before its slot runs: units 01 and 10 absent, those still departing from this core to this image present. -/
def restoredCtx (s : State) (c : CtxId) (region : W32) (image : W64) (l : List Byte) (k : Kernel) (v : Option Saved) : Ctx :=
  let x := headOf l
  let near := (getCl s (ctxCl c)).hoist.filter fun j => j.kind == 1 && j.ctx.core == c.core && j.region == region && j.image == image
  let list := ((List.range 800).map fun i => imgField l (0x3A0 + 2 * i) 2).filter fun u => decide (u < 800)
  let here := k.footprint.filter fun u => near.any fun j => j.unit == u
  let x := near.foldl (fun x j => putUnit x j.unit j.data) x
  let con (ch : Side) (q : Chan) : Chan := { q with xfers := ((v.map (·.keep)).getD []).filterMap fun p => if p.1 = ch then some p.2 else none }
  { x with
    con := { x.con with c0 := con .a x.con.c0, c1 := con .b x.con.c1 }
    ctl := { x.ctl with imap := imapBits (imapOf (getCore s c.core.toNat) c.sec) }
    run := { x.run with parkedOn := v.bind (·.parked), brakeTrap := v.bind (·.lost) }
    prog := { x.prog with
      region := region, group := k.group, entry := v.bind (·.entry), callBlock := (v.map (·.callBlock)).getD 0, pos := (v.map (·.pos)).getD 0, footprint := k.footprint
      absent := k.footprint.filter fun u => !(here.contains u), image := image, recency := stampsOf list, saveGroup := (v.map (·.group)).getD 0
      leaves := (v.map (·.leaves)).getD x.prog.leaves, passed := (v.map (·.passed)).getD [], horizon := (v.map (·.horizon)).getD x.prog.horizon, blk := v.bind (·.blk) } }
/-- The template store reloaded from %dictbase (03 R37); none where it cannot be. -/
def reloadTemplates (s : State) (c : CtxId) (x : Ctx) : Option Ctx :=
  if !x.ctl.dictLoaded then some x
  else match fetchBytes s c x 960 (64 * x.ctl.dictOff.toNat) with
    | .ok bs => some { x with ctl := { x.ctl with tmpl := templateEntries bs } }
    | .error _ => none
/-- Arrivals that were sent and are no longer at their root, nor flipped with the flip still on its way, have flipped while the context was away. -/
def catchUp (s : State) (c : CtxId) : State :=
  ((getCtx s c).prog.leaves.filter fun l => l.sent && !l.flipped).foldl (fun s l =>
    let r := getRoot s l.id (barPlace l.id c)
    let n := leafNum l.id c
    let on := r.arrived.contains n || (r.inFlight.any fun a => a.1 == n) || (r.flips.any fun f => f.2.contains n) ||
      (r.pend.any fun f => f.1 == ctxCl c && f.2.contains n)
    if on then s else flipLeaf s l.id c) s
/-- The slot leaves LOADING: a first issue comes hdr.stall + 1 cycles later. -/
def resume (s : State) (c : CtxId) : State :=
  let x := getCtx s c
  let stall := match fetchBundle s c x with
    | .ok b => hdrStall b.hdr
    | .error _ => 0
  let st : SlotState := if x.mon.active then .monitor else if x.run.parkedOn.isSome then .parked else .run
  let s := modCtx s c fun x => { x with run := { x.run with state := st } }
  catchUp (modCtx s c fun x => { x with run := { x.run with last := ownNow s c + stall + 1 - dueOf s c } }) c
/-- What a restore of one image into a slot comes to. -/
inductive Restored
  | wait
  | unreachable (offset : Nat)
  | go (s : State)
/-- Reads an image's first part, checks it and maps its units; the slot is left in LOADING. -/
def loadImage (s : State) (c : CtxId) (region : W32) (image : W64) : Restored :=
  match opRead s region image.toNat 0x10000 with
  | .error _ => .unreachable 0
  | .ok l =>
    if !(imageChecks s region l) then .unreachable 0
    else
      let away := bitAt (imgField l 6 1) 3 && imgField l 7 1 != c.core.toNat % 8 + 8 * (ctxCl c % 4) + 32 * ctxDie c
      match findKernel s region (.ofNat 16 (imgField l 0x24 2)), (List.range 800).find? fun u => imgField l (0x80 + u) 1 % 4 == 3 with
      | none, _ => .unreachable 0
      | some _, some u => .unreachable (unitSpan u).1
      | some k, none =>
        let free := { s with clusters := s.clusters.map fun p => if p.1 = ctxCl c then (p.1, { p.2 with hoist := [] }) else p }
        if away || !(blocksFit free c k.footprint) then .wait
        else match makeResident s c k with
          | none => .wait
          | some s =>
            let v := findSaved s region image
            match reloadTemplates s c (restoredCtx s c region image l k v) with
            | none => .unreachable 0
            | some x =>
              let x := { x with run := { x.run with state := .loading } }
              let s := setCtx s c { x with mon := { x.mon with dbg := ((findRegion s region).map (·.dbg)).getD false } }
              .go (modCl (dropSaved { s with free := s.free + 1 } region image) (ctxCl c) fun q => { q with tenant := .ofNat 16 (effTenant s region) })
/-- A failed restore: the report names the image address, the tile word faults. -/
def restoreFails (s : State) (c : CtxId) (region : W32) (image : W64) (off : Nat) : State :=
  let v := findSaved s region image
  let e := v.bind (·.entry)
  let s := uncarve (dropSaved s region image) region image
  let s := if (getCtx s c).run.state = .loading then setCtx s c {} else s
  hoistFault s e restoreUnreachableCode c.core.toNat (match e with
    | some e => serialOf (getEntry s e)
    | none => 0) (image.toNat + off)
/-- The group's receive entries and rows under way come back, the rows with their remaining cluster cycles (12 R259). -/
def restoreGroup (s : State) (cl : Nat) (region : W32) (g : W64) : State :=
  let rd (off n : Nat) : List Byte := match opRead s region (g.toNat + off) n with
    | .ok l => l
    | .error _ => []
  let n := leNat (rd 0x14 4)
  let k := getCl s cl
  let held := ((List.range 128).map fun i => (i, leNat (rd (0x100 + 4 * i) 4))).filter fun p => bitAt p.2 31
  let rows := (List.range n).map fun i =>
    let l := rd (0x10000 + 272 * i) 272
    let f (o w : Nat) : Nat := imgField l o w
    (f 0 1, ({ due := k.ctime + f 10 2, src := primOf s (8 * cl + f 1 1 % 8), ch := if bitAt (f 1 1) 3 then .b else .a, tid := .ofNat 32 (f 12 4), target := f 2 1, off := f 4 4
               region := region, data := (l.drop 16).take (f 8 2) } : NetRow))
  let s := held.foldl (fun s p => modCl s cl fun k => { k with recv := tabSet k.recv p.1 (rd (0x1000 + 256 * p.1) (p.2 % 512)) }) s
  uncarve (modCl s cl fun k => { k with
    net := k.net ++ (rows.filter fun r => r.1 == 0).map (·.2)
    win := k.win ++ (rows.filter fun r => r.1 == 1).map (·.2) }) region g
/-- CONTEXT_RESTORE: one image into slot `c`, or the whole group of the image into the cluster of `c`, each member at its core position. -/
def contextRestore (s : State) (c : CtxId) (region : W32) (image : W64) : State :=
  let free (d : CtxId) (a : W64) : Bool :=
    clusterOpen s (ctxCl d) region && ((getCtx s d).run.state == .empty || ((getCtx s d).run.state == .loading && (getCtx s d).prog.image == a))
  match findSaved s region image with
  | some v =>
    if v.group = 0 then single free
    else
      let vs := ((findRegion s region).map fun r => r.saved.filter fun w => w.group == v.group).getD []
      let place (w : Saved) : CtxId := match opRead s region (w.image.toNat + 7) 1 with
        | .ok [b] => primOf s (8 * ctxCl c + b.toNat % 8)
        | _ => c
      let ms := vs.map fun w => (place w, w.image)
      if !(ms.all fun m => free m.1 m.2) then s
      else match ms.foldlM (fun s m => match loadImage s m.1 region m.2 with
          | .go s => Except.ok s
          | .wait => .error none
          | .unreachable off => .error (some off)) s with
        | .error none => s
        | .error (some off) => ms.foldl (fun s m => restoreFails s m.1 region m.2 off) s
        | .ok s => restoreGroup (ms.foldl (fun s m => resume s m.1) s) (ctxCl c) region v.group
  | none => single free
where
  /-- One image. -/
  single (free : CtxId → W64 → Bool) : State :=
    if !(free c image) then s
    else match loadImage s c region image with
      | .wait => s
      | .unreachable off => restoreFails s c region image off
      | .go s => resume s c

/-! ### Pulls (16 R321-R324) -/

/-- The job of a pull. -/
def pullJob (s : State) (c : CtxId) (u : Nat) : Option HoistJob := (getCl s (ctxCl c)).hoist.find? fun j => j.kind == 0 && j.ctx == c && j.unit == u
/-- A pull that finds its directory entry pending looks again 256 ticks later. -/
def pendPull (s : State) (c : CtxId) (u : Nat) : State :=
  let s := askPull s c u none
  modCl s (ctxCl c) fun k => { k with hoist := k.hoist.map fun j =>
    if j.kind = 0 ∧ j.ctx = c ∧ j.unit = u then { j with pendSince := some (j.pendSince.getD (tick s)), reread := tick s + 256 } else j }
/-- Whether the core has a free block for a unit that arrives: departing units still hold theirs. -/
def blockFree (s : State) (c : CtxId) (u : Nat) : Bool :=
  let here (d : CtxId) : List Nat := let x := getCtx s d; if x.run.state = .empty then [] else x.prog.footprint.filter fun v => !(x.prog.absent.contains v)
  decide ((here c ++ here (otherSlot c) ++ departing s c.core.toNat).countP (fun v => unitKind v == unitKind u) < (kindCap[unitKind u]?).getD 0)
/-- A unit has been pulled: it is present; with the last one the image is free (R385). -/
def landUnit (s : State) (c : CtxId) (u : Nat) (l : List Byte) : State :=
  let s := modCtx s c fun x => let x := putUnit x u l; { x with prog := { x.prog with absent := x.prog.absent.filter (· != u) } }
  let s := modCl s (ctxCl c) fun k => { k with hoist := k.hoist.filter fun j => !(j.kind == 0 && j.ctx == c && j.unit == u) }
  if (getCtx s c).prog.absent.isEmpty then uncarve s (getCtx s c).prog.region (getCtx s c).prog.image else s
/-- What a pull finds. -/
def pullNow (s : State) (c : CtxId) (u : Nat) : State :=
  let x := getCtx s c
  let a := x.prog.image
  let span := unitSpan u
  match dirByte s x.prog.region a u with
  | some 2 =>
    if !(blockFree s c u) then s
    else match opRead s x.prog.region (a.toNat + span.1) span.2 with
      | .ok l => landUnit s c u l
      | .error _ => stopUnreachable s c (a.toNat + span.1)
  | some 1 => pendPull s c u
  | _ => stopUnreachable s c (a.toNat + span.1)
/-- Whether a context has a unit to pull. -/
def isAbsent (x : Ctx) (u : Nat) : Bool := x.run.state != .empty && x.run.state != .saving && x.prog.image != 0 && x.prog.absent.contains u
/-- PULL_LAND. -/
def pullLand (s : State) (c : CtxId) (u : Nat) : State :=
  if isAbsent (getCtx s c) u && !((pullJob s c u).any fun j => j.pendSince.isSome) then pullNow s c u else s
/-- RESTORE_UNREACHABLE: the directory reads 11, has read 01 for 2^20 ticks, or cannot be read. -/
def restoreUnreachable (s : State) (c : CtxId) (u : Nat) : State :=
  let x := getCtx s c
  let late := (pullJob s c u).any fun j => j.pendSince.any fun t => decide (t + 2 ^ 20 ≤ tick s)
  let d := dirByte s x.prog.region x.prog.image u
  if isAbsent x u && (d == some 3 || d == none || (late && d == some 1)) then stopUnreachable s c (x.prog.image.toNat + (unitSpan u).1) else s
/-- DIRECTORY_REREAD: a pending pull, or a copy of a save, looks at its directory byte again. -/
def directoryReread (s : State) (c : CtxId) (u : Nat) : State :=
  match pullJob s c u with
  | some j =>
    if !(isAbsent (getCtx s c) u) || j.pendSince.isNone || decide (tick s < j.reread) then s
    else if j.pendSince.any (fun t => decide (t + 2 ^ 20 ≤ tick s)) && dirByte s j.region j.image u == some 1 then restoreUnreachable s c u
    else pullNow s c u
  | none =>
    modCl s (ctxCl c) fun k => { k with hoist := k.hoist.map fun j =>
      if j.kind = 2 ∧ j.ctx = c ∧ j.unit = u ∧ dirByte s j.region j.src u = some 1 ∧ j.reread ≤ tick s then
        { j with pendSince := some (j.pendSince.getD (tick s)), reread := tick s + 256 }
      else j }

/-! ### Requests of a monitor (13 R291) -/

/-- The outcome of a request, in %ctxst. -/
def decide_ (s : State) (c : CtxId) (code : Byte) : State :=
  modCtx s c fun x => { x with mon := { x.mon with ctxBusy := false, ctxCode := code, ctxReq := none } }
/-- The checks of a `ctxrest` before it is accepted. -/
def restCheck (s : State) (c : CtxId) (image : W64) : Byte :=
  let o := otherSlot c
  let region := (getCtx s c).prog.region
  if (getCtx s o).run.state ≠ .empty ∨ !(imagePlace image) then illegalForm
  else match opRead s region image.toNat 0x40 with
    | .error _ => illegalForm
    | .ok h =>
      if imgField h 0 4 ≠ 0x4B514349 ∨ imgField h 4 2 ≠ 1 ∨ (findKernel s region (.ofNat 16 (imgField h 0x24 2))).isNone then illegalForm
      else if bitAt (imgField h 6 1) 3 ∧ imgField h 7 1 ≠ o.core.toNat % 8 + 8 * (ctxCl o % 4) + 32 * ctxDie o then illegalForm
      else if imgField h 8 2 ≠ effTenant s region then permission
      else 0
/-- CTX_REQUEST_DECIDED: a `ctxsave` puts the slot in SAVING, a `ctxrest` the other slot in LOADING; a refusal is recorded. -/
def ctxDecided (s : State) (c : CtxId) : State :=
  let x := getCtx s c
  match x.mon.ctxReq with
  | none => s
  | some (false, a) =>
    if x.run.state ≠ .monitor then s
    else if !(imagePlace a) then decide_ s c illegalForm
    else beginSave (decide_ s c 0) c a 0 0
  | some (true, a) =>
    let code := restCheck s c a
    let s := decide_ s c code
    if code ≠ 0 then s
    else setCtx s (otherSlot c) { run := { state := .loading }, prog := { region := x.prog.region, image := a } }

end Sys2Proof.Machine
end

