-- ==== Sys2Proof/Machine/Commands.lean ====
section
/-! DEFINITION. Host commands (19 R357-R359) and what they change: regions (12 R243), kernels (13 R281), mappings (15 R302, R304, R308), trace and dump
settings (18 R341, 16 R327), export windows (15 R306), save pools (16 R385), packets of tile words (19 R358). Layouts of bodies that the spec does not
give are the model's (log entry 40). -/

namespace Sys2Proof.Machine

/-! ### Bodies and results -/

/-- A field of a command's body, by its offset in the packet (R352). -/
def bodyAt (c : Cmd) (off n : Nat) : Nat := leNat ((c.body.drop (off - 16)).take n)
/-- Ends a command with its completion record (R359). -/
def finishCmd (s : State) (c : Cmd) (op result : Nat) : State := complete s c.cpl (completionRecord result op 0 c.index 0 [])
/-- Runs a command on a region of the ring's tenant: the state it leaves, or its result code. -/
def onRegion (s : State) (c : Cmd) (op : Nat) (f : Region → Except Nat State) : State :=
  match findRegion s c.region with
  | none => finishCmd s c op 0x40
  | some r =>
    if c.region = 0 then finishCmd s c op 0x40
    else if effTenant (asInstalled s) c.region ≠ c.tenant.toNat then finishCmd s c op 0x44
    else match f r with
      | .ok t => finishCmd t c op 0
      | .error k => finishCmd s c op k

/-! ### Regions (12 R241-R243) -/

/-- Reserved fields and bits of a control block are zero. -/
def blockZeros (b : BitVec 2048) : Bool :=
  let f (off n : Nat) : Nat := blkField b off n
  f 8 8 / 2 ^ 20 == 0 && f 0x16 2 / 1024 == 0 && f 0x18 1 / 8 == 0 && f 0x19 1 / 4 == 0 && f 0x1A 2 == 0 && f 0x2E 2 / 1024 == 0 && f 0x36 2 == 0 && f 0x55 3 == 0 &&
    f 0x78 0x88 == 0
/-- The positions of a block's own range are within another range. -/
def rangeIn (first count pf pc : Nat) : Bool := (List.range count).all fun i => decide (((first + i) % 1024 + 1024 - pf % 1024) % 1024 < pc)
/-- Whether two ranges share a position. -/
def rangesMeet (a n b m : Nat) : Bool := (List.range n).any fun i => decide (((a + i) % 1024 + 1024 - b % 1024) % 1024 < m)
/-- Whether the tree stays a tree: the parent does not lie beneath the region. -/
def treeOk (s : State) (id parent : W32) : Bool := (regionPath s (s.regions.length + 1) parent).all fun r => r.id != id
/-- The wheel positions and barrier indices that a block holds of its own (R243). -/
def ownOk (s : State) (r : Region) (p : W32) : Bool :=
  let f (off n : Nat) : Nat := blkField r.blk off n
  let ov (k : Nat) : Bool := bitAt (f 8 8) k
  let sib := s.regions.filter fun q => q.parent == some p && q.id != r.id
  let within (a b : Nat) : Bool := (List.range 16).all fun i => !(bitAt a i) || bitAt b i
  let apart (a b : Nat) : Bool := (List.range 16).all fun i => !(bitAt a i && bitAt b i)
  (!(ov 9) || (decide (f 0x30 2 ≤ 1024) && rangeIn (f 0x2E 2) (f 0x30 2) (eff s p 9 0x2E 2) (eff s p 9 0x30 2) &&
    !(sib.any fun q => bitAt (blkField q.blk 8 8) 9 && rangesMeet (f 0x2E 2) (f 0x30 2) (blkField q.blk 0x2E 2) (blkField q.blk 0x30 2)))) &&
  (!(ov 10) || (within (f 0x32 2) (eff s p 10 0x32 2) && within (f 0x34 2) (eff s p 10 0x34 2) &&
    sib.all fun q => !(bitAt (blkField q.blk 8 8) 10) || (apart (f 0x32 2) (blkField q.blk 0x32 2) && apart (f 0x34 2) (blkField q.blk 0x34 2))))
/-- No cluster lies in the clusters of two tenants. -/
def clustersApart (s : State) : Bool :=
  let l := s.regions.filter fun r => r.id != 0
  l.all fun a => l.all fun b => effTenant s a.id == effTenant s b.id || decide (effClusters s a.id &&& effClusters s b.id = 0)
/-- The conditions of R243 on a block in the tree `s` that holds it already. -/
def blockOk (s : State) (r : Region) (p : W32) : Bool :=
  let f (off n : Nat) : Nat := blkField r.blk off n
  let ov (k : Nat) : Bool := bitAt (f 8 8) k
  let e (bit off n : Nat) : Nat := eff s r.id bit off n
  blockZeros r.blk && treeOk s r.id p &&
    (p == 0 || (!(ov 0) && !(ov 1))) && (p != 0 || (ov 0 && ov 1 && f 0x14 2 != 0 && decide (2 ≤ f 0x16 2 ∧ f 0x16 2 < 1024))) &&
    decide (effClusters s r.id &&& effClusters s p = effClusters s r.id) && clustersApart s && decide (effPrio s r.id ≤ effPrio s p) &&
    decide (e 6 0x20 8 ≤ eff s p 6 0x20 8 ∧ e 7 0x28 4 ≤ eff s p 7 0x28 4 ∧ e 8 0x2C 2 ≤ eff s p 8 0x2C 2) && ownOk s r p &&
    decide (0 < effTimeout s r.id ∧ 0 < effStarve s r.id ∧ 0 < effYield s r.id ∧ 17 ≤ effBrakewd s r.id ∧ effBrakewd s r.id ≤ 24) && effMonitor s r.id != 0
/-- The banks that a tenant's clusters give it in a die: sixteen for each cluster (log entry 41). -/
def tenantBanks (s : State) (die tenant : Nat) : W64 :=
  let v := asInstalled s
  let mask := (s.regions.filter fun r => r.id != 0 && effTenant v r.id == tenant).foldl (fun m r => m ||| effClusters v r.id) 0
  .ofNat 64 ((List.range 4).foldl (fun n c => n + (if bitAt mask (4 * die + c) then 0xFFFF * 2 ^ (16 * c) else 0)) 0)
/-- Deals the banks of every die to the tenants; a bank that changes tenant is zeroed and untyped (15 R299, R303). -/
def dealBanks (s : State) : State :=
  let tenants := ((s.regions.filter fun r => r.id != 0).map fun r => effTenant (asInstalled s) r.id).eraseDups
  (List.range 8).foldl (fun s d => modDie s d fun x =>
    let new := tenants.foldl (fun (m : Cells 64) t => cellSet m t (tenantBanks s d t)) []
    let kept := (x.banks.map fun p => p.2 &&& cellGet new p.1).foldl (· ||| ·) (0 : W64)
    let given := (new.map (·.2)).foldl (· ||| ·) (0 : W64)
    let fresh := given &&& ~~~kept
    { x with banks := new, dsm := x.dsm.filter fun p => !(fresh.getLsbD (p.1 / 2 ^ 20)), tags := x.tags.filter fun p => !(fresh.getLsbD (p.1 / 256)) }) s
/-- REGION_INSTALL. -/
def regionInstall (s : State) (c : Cmd) : State :=
  let blk : BitVec 2048 := .ofNat 2048 (bodyAt c 16 256)
  let addr : W64 := .ofNat 64 (bodyAt c 272 8)
  let id : W32 := .ofNat 32 (blkField blk 0x10 4)
  match s.regions.find? fun r => r.addr.toNat == blkField blk 0 8 && (r.id == 0 || blkField blk 0 8 != 0) with
  | none => finishCmd s c 2 0x40
  | some p =>
    let old := findRegion s id
    let r : Region := { (old.getD {}) with id := id, addr := addr, blk := blk, parent := some p.id }
    let t := { s with regions := (s.regions.filter fun q => q.id != id) ++ [r] }
    let v := asInstalled t
    let had := fun (tenant : Nat) => s.regions.any fun q => q.id != 0 && effTenant (asInstalled s) q.id == tenant
    if id = 0 ∨ id ≠ c.region ∨ addr = 0 ∨ addr.toNat % 256 ≠ 0 ∨ (s.regions.any fun q => q.id != id && q.addr == addr) then finishCmd s c 2 0x40
    else if effTenant v id ≠ c.tenant.toNat then finishCmd s c 2 0x44
    else if !(blockOk v r p.id) || (s.fw.needVerifier && !(had (effTenant v id))) then finishCmd s c 2 0x40
    else
      let tenant := effTenant v id
      let t := if !(had tenant) then fillKey t (effKey v id) tenant else t
      let t := if p.id = 0 then extend t 13 (digest512 (leBytes 256 blk.toNat)) else t
      let t := dealBanks t
      let t := if old.isNone then openBuffer t id else t
      let cls := (List.range 32).filter fun k => bitAt (effClusters v id) k && (getCl t k).started
      let t := if old.isNone then cls.foldl (fun t k => keepRecord t k id (segRecord (getCl t k) k (getCl t k).segReason)) t else t
      finishCmd t c 2 0
/-- REGION_REMOVE: no tile word in flight, no region beneath. -/
def regionRemove (s : State) (c : Cmd) : State :=
  onRegion s c 3 fun _ =>
    let id := c.region
    if (s.seqs.any fun p => p.1.region == id) || (s.packets.any fun p => p.region == id && !p.finished) || (s.regions.any fun q => q.parent == some id) then .error 0x40
    else
      let tenant := effTenant (asInstalled s) id
      let key := effKey (asInstalled s) id
      let s := (residents s fun _ x => x.prog.region == id).foldl (fun s k => clearSlot (runOut s k) k) s
      let s := { s with
        regions := (s.regions.filter fun q => q.id != id).map fun q => { q with carved := q.carved.filter fun p => p.2.2 != id }
        kernels := s.kernels.filter fun k => k.region != id
        packets := s.packets.filter fun p => p.region != id
        cores := s.cores.map fun k => (k.1, { k.2 with left := k.2.left.filter fun l => l.2.1 != id }) }
      let last := !(s.regions.any fun q => q.id != 0 && effTenant (asInstalled s) q.id == tenant)
      .ok (dealBanks (if last then eraseKey s key else s))

/-! ### Kernels (13 R281, R282) -/

/-- A tile declaration of a registration record. -/
def tileOfRec (l : List Byte) (i : Nat) : KTile :=
  let f (o n : Nat) : Nat := leNat ((l.drop (0x80 + 16 * i + o)).take n)
  { off := f 0 4, size := f 4 4, fmt := .ofNat 8 (f 8 1), kind := f 9 1 }
/-- A registration record: number, group, tiles, entry, code length, footprint bits, declarations, code (log entry 40). -/
def kernelOfRec (region : W32) (l : List Byte) : Option Kernel :=
  let f (o n : Nat) : Nat := leNat ((l.drop o).take n)
  let n := f 3 1
  let code := (l.drop 0x100).take (f 8 4)
  let tiles := (List.range n).map (tileOfRec l)
  let ok := f 0 2 != 0 && decide (f 2 1 ≤ 1) && decide (n ≤ 8) && decide (0 < f 8 4 ∧ f 8 4 ≤ 245760) && code.length == f 8 4 && f 4 4 % 4 == 0 && decide (f 4 4 < f 8 4) &&
    tiles.all fun t => decide (t.off + t.size ≤ 2 ^ 21 ∧ t.kind ≤ 2)
  if ok then some {
    num := .ofNat 16 (f 0 2), region := region, group := f 2 1 == 1, entry := .ofNat 32 (f 4 4), code := code
    footprint := (List.range 800).filter fun u => bitAt (f 0x0C 100) u, tiles := tiles }
  else none
/-- KERNEL_REGISTER. -/
def kernelRegister (s : State) (c : Cmd) : State :=
  onRegion s c 4 fun _ =>
    match kernelOfRec c.region (appBytes s (bodyAt c 16 8) (min (bodyAt c 24 8) 0x40000)) with
    | none => .error 0x42
    | some k =>
      let s := { s with kernels := (s.kernels.filter fun q => !(q.region == k.region && q.num == k.num)) ++ [k] }
      .ok (extend s 12 (digest512 k.code))

/-! ### Mappings (15 R301, R302, R304, R308) -/

/-- Level of the leaf of a page size. -/
def leafLevel (size : Nat) : Nat := if size = 2 ^ 30 then 2 else if size = 2 ^ 21 then 1 else 0
/-- The address of the leaf entry for an address at a level, new tables made on the way; none where a leaf is in the way or nothing is left. -/
def leafSlot (s : State) (lvl va : Nat) : Nat → Nat → Option (Nat × State)
  | 0, _ => none
  | fuel + 1, t =>
    let a := t + 8 * ptIndex fuel va
    let e := leNat (readPa s a 8)
    if fuel = lvl then (if bitAt e 0 && !(bitAt e 1) then none else some (a, s))
    else if !(bitAt e 0) then
      match takeFrame s 0 4096 0 with
      | none => none
      | some (n, s) => leafSlot (writePa { s with mem := s.mem.filter fun p => decide (p.1 < n ∨ n + 4096 ≤ p.1) } a (leBytes 8 (n + 1))) lvl va fuel n
    else if bitAt e 1 then none
    else leafSlot s lvl va fuel (bits e 8 31 * 256)
/-- The die on which a region's new frames lie: that of its first cluster (log entry 42). -/
def homeOf (s : State) (region : W32) : Nat := (((List.range 32).find? fun k => bitAt (effClusters (asInstalled s) region) k).getD 0) / 4
/-- Maps one page: a page that is mapped already keeps its frame; a new frame is zeroed. -/
def mapPage (s : State) (region : W32) (va size rights fmt : Nat) : Option (State × Bool) :=
  match leafSlot s (leafLevel size) va 5 (effPtroot (asInstalled s) region) with
  | none => none
  | some (a, s) =>
    let old := leNat (readPa s a 8)
    let kind := 1 + b2n (bitAt rights 4)
    let leaf (frame : Nat) : Nat := 3 + 4 * (rights % 32) + 256 * (fmt % 256) + frame / 2 ^ 16 * 2 ^ 16 + effKey (asInstalled s) region * 2 ^ 52
    if bitAt old 0 then some (setFrame (writePa s a (leBytes 8 (leaf (bits old 16 23 * 2 ^ 16)))) (bits old 16 23 * 2 ^ 16) size kind, false)
    else match takeFrame s (homeOf s region) size kind with
      | none => none
      | some (n, s) => some (writePa { s with mem := s.mem.filter fun p => decide (p.1 < n ∨ n + size ≤ p.1) } a (leBytes 8 (leaf n)), true)
/-- The pages of a range. -/
def pagesOf (va len size : Nat) : List Nat := (List.range (len / size)).map fun i => va + i * size
/-- A legal page size, a range of whole pages in main memory. -/
def mapForm (va len size : Nat) : Bool :=
  [2 ^ 16, 2 ^ 21, 2 ^ 30].contains size && va % size == 0 && len % size == 0 && len != 0 && decide (va + len ≤ 2 ^ 63) && bits va 57 3 == 0
/-- MAP: virtual address, length, page size, rights (bits 4:0 read, write, atomic, export, host, in the order of a leaf's bits 6:2), format byte. -/
def mapCmd (s : State) (c : Cmd) : State :=
  onRegion s c 5 fun _ =>
    let va := bodyAt c 16 8
    let len := bodyAt c 24 8
    let size := bodyAt c 32 8
    if !(mapForm va len size) || effPtroot (asInstalled s) c.region == 0 || decide (32 ≤ bodyAt c 40 1) then .error 0x42
    else
      let pages := pagesOf va len size
      let fresh := pages.countP fun p => match translate (asInstalled s) c.region p {} with
        | .ok _ => false
        | .error _ => true
      if !(quotaAdmits (asInstalled s) c.region (fresh * (size / 65536))) then .error 0x41
      else match pages.foldlM (fun s p => (mapPage s c.region p size (bodyAt c 40 1) (bodyAt c 41 1)).map fun q =>
          if q.2 then modRegion q.1 c.region fun r => { r with mapped := r.mapped + size / 65536 } else q.1) s with
        | some t => .ok t
        | none => .error 0x42
/-- Clears the leaf of an address; every access of this machine walks the tables, so nothing older is left to wait for. -/
def unmapPage (s : State) (region : W32) (va : Nat) : Option (State × Nat) :=
  match pageOf (asInstalled s) region va with
  | some (a, _, _, size) => if va % size = 0 then some (modRegion (writePa s a (leBytes 8 0)) region fun r => { r with mapped := r.mapped - size / 65536 }, size) else none
  | none => none
/-- Clears the pages of a range. -/
def unmapAll (region : W32) : Nat → Nat → Nat → State → Option State
  | 0, _, _, _ => none
  | fuel + 1, va, len, s =>
    if len = 0 then some s
    else match unmapPage s region va with
      | some (s, size) => if size ≤ len then unmapAll region fuel (va + size) (len - size) s else none
      | none => none
/-- UNMAP: virtual address and length. -/
def unmapCmd (s : State) (c : Cmd) : State :=
  onRegion s c 6 fun _ =>
    let len := bodyAt c 24 8
    match unmapAll c.region (len / 65536 + 1) (bodyAt c 16 8) len s with
    | some t => .ok t
    | none => .error 0x42

/-! ### Settings -/

/-- TRACE_SET: sample exponent 0 or 10 to 24, bolter enable, list mode (18 R341, R347). -/
def traceSet (s : State) (c : Cmd) : State :=
  onRegion s c 7 fun _ =>
    let k := bodyAt c 16 1
    let m := bodyAt c 17 1
    if !(k == 0 || decide (10 ≤ k ∧ k ≤ 24)) || decide (4 ≤ m) then .error 0x42
    else .ok (modRegion s c.region fun r => { r with sample := k, bolter := bitAt m 0, listMode := bitAt m 1, dirty := if bitAt m 0 then r.dirty else [] })
/-- DUMP_SET (16 R327). -/
def dumpSet (s : State) (c : Cmd) : State :=
  onRegion s c 8 fun _ => .ok (modRegion s c.region fun r => { r with dump := .ofNat 64 (bodyAt c 16 8), dumpLen := .ofNat 64 (bodyAt c 24 8) })
/-- EXPORT_SET: window number and entry (15 R306). -/
def exportSet (s : State) (c : Cmd) : State :=
  onRegion s c 9 fun _ =>
    let e := bodyAt c 24 16
    if 256 ≤ bodyAt c 16 8 ∨ bits e 4 4 ≠ 0 then .error 0x42
    else .ok (modRegion s c.region fun r => { r with exportTab := tabSet r.exportTab (bodyAt c 16 8) (.ofNat 128 e) })
/-- SAVE_POOL (16 R385). -/
def savePool (s : State) (c : Cmd) : State :=
  onRegion s c 0x0A fun _ =>
    let a := bodyAt c 16 8
    let len := bodyAt c 24 8
    let set (s : State) : State := modRegion s c.region fun r => { r with pool := .ofNat 64 a, poolLen := .ofNat 64 len, carved := [] }
    if a = 0 ∧ len = 0 then .ok (set s)
    else if len = 0 ∨ len % 65536 ≠ 0 ∨ !(imagePlace (.ofNat 64 a)) then .error 0x42
    else if (List.range (len / 65536)).all fun i => match opSite s c.region (a + 65536 * i) 1 { r := true, w := true } with
        | .ok _ => true
        | .error _ => false then .ok (set s)
    else .error 0x42

/-! ### Packets of tile words (R358) -/

/-- The chain of a SUBMIT body. -/
def chainOf (c : Cmd) (m : Nat) : List (BitVec 128 × BitVec 64) :=
  (List.range m).map fun j => (.ofNat 128 (bodyAt c (32 + 32 * j) 16), .ofNat 64 (bodyAt c (48 + 32 * j) 8))
/-- A well-formed SUBMIT: count, length, reserved bytes, masks that name earlier entries, levels 3 and 4. -/
def chainOk (c : Cmd) (m : Nat) : Bool :=
  decide (1 ≤ m ∧ m ≤ 64) && (16 + c.body.length) / 64 == (32 + 32 * m + 63) / 64 && bodyAt c 18 14 == 0 &&
    (chainOf c m).zipIdx.all fun p => decide (p.1.2.toNat < 2 ^ p.2) && bodyAt c (56 + 32 * p.2) 8 == 0 && (twLevel p.1.1 == 3 || twLevel p.1.1 == 4)
/-- SUBMIT: the packet is queued, its words are accepted in ring order. -/
def submit (s : State) (c : Cmd) : State :=
  match findRegion s c.region with
  | none => finishCmd s c 1 0x40
  | some _ =>
    let m := bodyAt c 16 2
    if c.region = 0 then finishCmd s c 1 0x40
    else if effTenant (asInstalled s) c.region ≠ c.tenant.toNat then finishCmd s c 1 0x44
    else if !(chainOk c m) then finishCmd s c 1 0x42
    else
      let key := s.packets.foldl (fun k p => max k (p.key + 1)) 0
      let p : Packet2 := { key := key, region := c.region, index := c.index, cpl := c.cpl, words := chainOf c m }
      acceptWord { s with packets := s.packets ++ [p] } c.region

end Sys2Proof.Machine
end

