-- ==== Sys2Proof/Machine/Manage.lean ====
section
/-! DEFINITION. Rings (19 R350-R356), boot (15 R310), identity (19 R349), mailboxes (R360), SPDM (15 R311), firmware update (19 R362), telemetry (R361),
resets (R363, R364), alarms (15 R312), clocks and power (19 R365). -/

namespace Sys2Proof.Machine

/-! ### Rings (R350-R356) -/

def getRing (s : State) (k : Nat) : Ring := tabGet {} s.fw.rings k
def modRing (s : State) (k : Nat) (f : Ring → Ring) : State := modFw s fun w => { w with rings := tabSet w.rings k (f (getRing s k)) }
/-- A field of a ring's header. -/
def ringHdr (s : State) (k off n : Nat) : Nat := leNat (appBytes s ((getRing s k).hdr.toNat + off) n)
/-- Writes a field of a ring's header. -/
def setRingHdr (s : State) (k off n v : Nat) : State := appStore s ((getRing s k).hdr.toNat + off) (leBytes n v)
/-- RING_ENABLE: with a legal size the ring is served from ring.read on. -/
def ringEnable (s : State) (k : Nat) : State :=
  let r := getRing s k
  if r.enable ∨ r.log.toNat < 6 ∨ 20 < r.log.toNat ∨ s.fw.locked ∨ s.fw.boot ≤ 6 then s
  else modRing s k fun r => { r with enable := true, read := .ofNat 64 (ringHdr s k 8 8) }
/-- RING_RESTART: a stopped ring goes on from the index that the host has written into ring.read. -/
def ringRestart (s : State) (k : Nat) : State :=
  if (getRing s k).stopped then modRing s k fun r => { r with stopped := false, read := .ofNat 64 (ringHdr s k 8 8) } else s
/-- A write of the command core's window: fields under their access codes (R8, R350); identity fields and reserved words are read-only. -/
def windowWrite (s : State) (off : Nat) (v : W64) : State :=
  let k := (off - 0x1000) / 32
  if off < 0x1000 ∨ 0x1800 ≤ off then s
  else match (off - 0x1000) % 32 with
    | 0 => if (getRing s k).enable then s else modRing s k fun r => { r with base := v &&& ~~~0xFFF }
    | 8 => if (getRing s k).enable then s else modRing s k fun r => { r with hdr := v &&& ~~~0xFFF }
    | 16 =>
      let s := if (getRing s k).enable then s else modRing s k fun r => { r with tenant := .ofNat 16 (v.toNat / 2 ^ 16), log := .ofNat 5 (v.toNat / 2 ^ 8) }
      let s := if bitAt v.toNat 2 then ringRestart s k else s
      if bitAt v.toNat 0 then ringEnable s k else modRing s k fun r => { r with enable := false }
    | _ => s
/-- A byte of a ring's slots, modulo the ring. -/
def ringBytes (s : State) (k : Nat) (x n : Nat) : List Byte :=
  let r := getRing s k
  (List.range n).flatMap fun i => appBytes s (r.base.toNat + (64 * x + i) % (64 * 2 ^ r.log.toNat)) 1
/-- Publishes ring.read. -/
def publish (s : State) (k : Nat) : State := setRingHdr s k 8 8 (getRing s k).read.toNat
/-- Stops a ring: index and code in the header, telemetry (R355). -/
def stopRing (s : State) (k x code : Nat) : State :=
  let s := setRingHdr (setRingHdr (publish s k) k 0x10 8 x) k 0x18 1 code
  sendTelemetry (modRing s k fun r => { r with stopped := true }) 0x0401 (leBytes 1 k ++ leBytes 8 x ++ leBytes 1 code)
/-- RING_PACKET_TAKE (R354): a published packet at the read index is copied and handed on; a malformed header is answered by its record. -/
def ringTake (s : State) (k : Nat) : State :=
  let r := getRing s k
  let n := r.log.toNat
  let x := r.read.toNat
  let h := leNat (ringBytes s k x 8)
  let len := bits h 16 16
  let slot := r.base.toNat + 64 * x % (64 * 2 ^ n)
  if !r.enable ∨ r.stopped ∨ !(bitAt h 0) ∨ bitAt h 1 ≠ bitAt x n ∨ !(appReady s slot 8 false) then s
  else
  let s := appSeen s slot 8
  if len = 0 then stopRing s k x 1
  else if 2 ^ n < len then stopRing s k x 2
  else
    let l := ringBytes s k x (64 * len)
    let c : Cmd := { tenant := r.tenant, index := r.read, region := .ofNat 32 (bits h 32 32), cpl := .ofNat 64 (leNat ((l.drop 8).take 8)), body := l.drop 16 }
    let s := modRing s k fun r => { r with read := .ofNat 64 (x + len), taken := r.taken + 1 }
    let s := if (r.taken + 1) % 16 = 0 ∨ bitAt h 2 then publish s k else s
    let op := bits h 8 8
    if bits h 3 5 ≠ 0 ∨ c.cpl.toNat % 64 ≠ 0 then finishCmd s { c with cpl := .ofNat 64 (c.cpl.toNat / 64 * 64) } op 0x42
    else if 1 ≤ op ∧ op ≤ 10 then { s with commands := s.commands ++ [(op, c)] }
    else finishCmd s c op 0x43

/-! ### Identity (R349) and telemetry (R361) -/

/-- The identity record: fixed fields, fused fields, fabric address, version that booted. -/
def identity (s : State) : List Byte :=
  let fused (off n : Nat) : List Byte := (List.range n).map fun i => Config.identityByte (off + i)
  leBytes 4 0x4B514944 ++ fused 4 2 ++ leBytes 2 0x9600 ++ leBytes 2 1 ++ fused 0x0A 2 ++ fused 0x0C 1 ++ [.ofNat 8 ((Config.identityByte 0x0D).toNat % 4)] ++ leBytes 2 s.fw.fab.toNat ++ fused 0x10 16 ++
    leBytes 8 (if s.fw.activeBank then s.fw.ver1 else s.fw.ver0).toNat ++ leBytes 24 0
/-- Eight bytes of the command core's window as the application cores read them: the identity record, the registers of the rings, reserved fields zero
(R8, R349, R350). -/
def windowRead (s : State) (off : Nat) : List Byte :=
  let r := getRing s ((off - 0x1000) / 32)
  if off < 0x40 then (identity s).drop (off / 8 * 8) |>.take 8
  else if off < 0x1000 ∨ 0x1800 ≤ off then leBytes 8 0
  else match (off - 0x1000) % 32 / 8 with
    | 0 => leBytes 8 r.base.toNat
    | 1 => leBytes 8 r.hdr.toNat
    | 2 => leBytes 8 (b2n r.enable + 4 * b2n r.stopped + 256 * r.log.toNat + 65536 * r.tenant.toNat)
    | _ => leBytes 8 0
/-- REGISTER_WRITE: an access of the application cores: to the window's registers, to main memory; a fence adds no order to accesses that are
performed one at a time, as each of these is (R180; log entry 103). -/
def appAccess (s : State) (k : AppAccess) (bytes : List Byte) : State :=
  match k with
  | .window off => windowWrite s off.toNat (.ofNat 64 (leNat bytes))
  | .query off => modFw s fun f => { f with appRead := windowRead s off.toNat }
  | .store a => if appReady s a.toNat bytes.length true then appStore s a.toNat bytes else s
  | .load a n => appLoad s a.toNat n.toNat
  | .fence _ _ => s
/-- TELEMETRY_PERIODIC: sensor records, soft errors, dropped trace records. -/
def telemetryPeriodic (s : State) (ty : Nat) : State :=
  if [0x0101, 0x0102, 0x0103, 0x0201].contains ty then sendTelemetry s ty (Config.sensorReading ty (tick s))
  else if ty = 0x0402 then sendTelemetry s ty (s.fw.dropped.flatMap fun p => leBytes 4 p.1 ++ leBytes 8 p.2)
  else s
/-- TELEMETRY_REQUEST: the identity record again, a periodic record now, or the latest record of the type. -/
def telemetryRequest (s : State) (ty : BitVec 16) : State :=
  if ty = 1 then sendTelemetry s 1 (identity s)
  else if [0x0101, 0x0102, 0x0103, 0x0201, 0x0402].contains ty.toNat then telemetryPeriodic s ty.toNat
  else match s.fw.telemetry.reverse.find? fun r => r.1 == ty with
    | some r => modFw s fun f => { f with telemetry := f.telemetry ++ [r] }
    | none => s
/-- A reset's record: level, target, duration in ticks at most (R363). -/
def resetRecord (s : State) (level target duration : Nat) : State := sendTelemetry s 0x0701 (leBytes 1 level ++ leBytes 2 target ++ leBytes 1 0 ++ leBytes 4 duration)

/-! ### Boot (15 R310, 12 R384) -/

/-- Region 0 (R384). -/
def region0 : Region :=
  { id := 0, blk := .ofNat 2048 (packFields [(0, 8), (0xFFFFF, 8), (0, 4), (0, 2), (0, 2), (7, 1), (0, 1), (0, 2), (0xFFFFFFFF, 4), (7812500, 8), (0, 4), (65535, 2), (0, 2),
      (1024, 2), (0, 2), (0, 2), (0, 2), (0, 8), (0, 8), (0x100000, 4), (4096, 4), (1048576, 4), (17, 1), (0, 3), (0, 16), (0, 8), (0, 8)]) }
/-- Every cluster's clock starts (18 R339). -/
def startClusters (s : State) (l : List Nat) : State := l.foldl (fun s k => newSegment s k 1 (getCl s k).ratio) s
/-- Whether a bank's image verifies and is no older than the rollback counter. -/
def bankOk (f : Firm) (b : Bool) : Bool :=
  let img := if b then f.bank1 else f.bank0
  let sig := if b then f.sig1 else f.sig0
  Config.imageSignatureValid img sig && decide (f.rollback.toNat ≤ (if b then f.ver1 else f.ver0).toNat)
/-- Digest of function `k` of the active bank. -/
def codeDigest (f : Firm) (k : Nat) : BitVec 512 := digest512 (leBytes 64 (if f.activeBank then f.bank1 else f.bank0).toNat ++ leBytes 1 k)
/-- One step of the boot sequence. -/
def bootStep (s : State) : State :=
  let next (s : State) : State := modFw s fun f => { f with boot := f.boot + 1 }
  let measured (s : State) : State := extend (extend s 0 (Config.bootDigest 8)) 1 (digest512 (leBytes 64 (if s.fw.activeBank then s.fw.bank1 else s.fw.bank0).toNat))
  match s.fw.boot with
  | 1 =>
    if bankOk s.fw s.fw.activeBank then next (measured s)
    else
      let s := modFw s fun f => if f.activeBank then { f with bad1 := true } else { f with bad0 := true }
      let s := modFw (bankRecord s 1) fun f => { f with activeBank := !f.activeBank }
      if bankOk s.fw s.fw.activeBank then next (measured s) else modFw (alarm s 2 1) fun f => { f with boot := 0 }
  | 2 =>
    let s := (List.range 8).foldl (fun s k => extend s (2 + k) (Config.bootDigest k)) s
    next (modFw s fun f => { f with stopped := 0, code := (List.range 8).map fun k => (k, Config.bootDigest k) })
  | 3 => next (fillKey s 0 0)
  | 4 => next { s with fabric := { s.fabric with planes := 0xFF }, fw := { s.fw with fab := .ofNat 16 (leNat [Config.identityByte 0x40, Config.identityByte 0x41] % 4096) } }
  | 5 => next (fillKey (extend s 10 (Config.bootDigest 9)) 1 0)
  | 6 =>
    let s := next { s with regions := [region0], fabric := { s.fabric with tags := s.fabric.tags + 1, seqCon := { tag := .ofNat 64 (s.fabric.tags + 1) } } }
    startClusters (sendTelemetry s 1 (identity s)) (List.range 32)
  | _ => s

/-! ### Resets (R363, R364) -/

/-- PACKAGE_COLD_RESET: everything but flash, rollback counter and alarm log is cleared, then the package boots; after an alarm no tenant slot is
filled before a verifier has done its part (15 R313). -/
def coldReset (s : State) : State :=
  let f := s.fw
  let w : Firm := {
    bank0 := f.bank0, bank1 := f.bank1, ver0 := f.ver0, ver1 := f.ver1, sig0 := f.sig0, sig1 := f.sig1, bad0 := f.bad0, bad1 := f.bad1, activeBank := f.activeBank
    rollback := f.rollback, alarms := f.alarms, needVerifier := f.locked || f.needVerifier }
  let t := (List.range 6).foldl (fun t _ => bootStep t) { State.reset with fw := w, oracle := s.oracle, auto := s.auto, free := s.free }
  resetRecord t 0 0 300000000
/-- PACKAGE_WARM_RESET: regions, tenant keys, dies and application cores are cleared; slot 0, measurements and the alarm lock stay. -/
def warmReset (s : State) : State :=
  let f := s.fw
  let w := { f with keys := f.keys.filter fun p => p.1 == 0, keyTenant := f.keyTenant.filter fun p => p.1 == 0, pairKeys := [], pairCtr := [], rings := [], mail := [], dropped := [] }
  let t := { State.reset with mem := s.mem, now := s.now, oracle := s.oracle, auto := s.auto, free := s.free, fw := w
                              fabric := { tags := s.fabric.tags, planes := s.fabric.planes, out := s.fabric.out } }
  let t := if f.locked ∨ f.boot ≤ 6 then t else bootStep (modFw (fillKey t 1 0) fun f => { f with boot := 6 })
  resetRecord t 1 0 50000000
/-- HOST_DIE_RESET: application cores, rings and key slot 1; the operating system's slot is filled anew. -/
def hostReset (s : State) : State :=
  let s := modFw s fun f => { f with rings := [] }
  resetRecord (if s.fw.locked then s else fillKey (eraseKey s 1) 1 0) 2 0 20000000
/-- The cluster as a clear leaves it (15 R299): its records are drained, nothing runs in it, its clock starts when the clear ends. -/
def clearedCluster (s : State) (cl : Nat) : State :=
  let s := (getCl s cl).trace.foldl (fun s _ => drainTrace s cl) s
  let s := (List.range 16).foldl (fun s i => setCtx s (ctxOfNum (16 * cl + i)) {}) s
  let s := (List.range 8).foldl (fun s i => modCore s (8 * cl + i) fun k => { prim := k.prim, left := k.left }) s
  modCl s cl fun k => { wall := k.wall, ctime := k.ctime, ratio := k.ratio, segTick := k.segTick, segCycle := k.segCycle, segReason := k.segReason, started := k.started
                        clearing := 12288 }
/-- CLUSTER_CLEAR: once every slot is EMPTY and every departing unit has left. -/
def clusterClear (s : State) (cl : Nat) : State :=
  if ((ctxsOf s cl).any fun c => (getCtx s c).run.state != .empty) || ((getCl s cl).hoist.any fun j => j.kind != 0) then s else clearedCluster s cl
/-- Stops the fault domains of some regions; the resets carry no cause code of their own (log entry 44). -/
def stopRegions (s : State) (l : List W32) : State := (l.eraseDups.filter (· != 0)).foldl (fun s r => domainStop s r eccUncorrected 0 0 []) s
/-- COMPUTE_DIE_RESET: the fault domains of the die's regions stop first; clusters, shared memory, clock and barrier roots are cleared. -/
def dieReset (s : State) (d : Nat) : State :=
  let here := s.regions.filter fun r => (List.range 4).any fun c => bitAt (effClusters s r.id) (4 * d + c)
  let s := stopRegions s (here.map (·.id))
  let s := (List.range 4).foldl (fun s c => clearedCluster s (4 * d + c)) s
  let s := modDie s d fun x => { banks := x.banks, disabled := x.disabled }
  resetRecord { s with repWrites := s.repWrites.filter fun w => w.dst != d } 3 d 500000
/-- CORE_RESET: both slots, memories and core head; the fault domains that run on the core stop first. -/
def coreReset (s : State) (core : Nat) : State :=
  let cs := [mkCtx core false, mkCtx core true]
  let s := stopRegions s ((cs.filter fun c => (getCtx s c).run.state != .empty).map fun c => (getCtx s c).prog.region)
  let s := cs.foldl (fun s c => setCtx s c {}) s
  resetRecord (modCore s core fun k => { left := k.left }) 5 core 539
/-- Contexts with an incomplete transfer that names main memory of a die. -/
def workOn (s : State) (die : Nat) : List (CtxId × Side × Xfer) :=
  (residents s fun _ _ => true).flatMap fun c =>
    let x := getCtx s c
    let at_ (a : W64) : Bool := match locate s c a.toNat 1 {} with
      | .ok { place := .main pa, .. } => paDie pa == die
      | _ => false
    ([(Side.a, x.con.c0), (Side.b, x.con.c1)].flatMap fun k => (k.2.xfers.filter fun t => ((cView t.op).ax && at_ t.x) || ((cView t.op).ay && at_ t.y)).map fun t => (c, k.1, t))
/-- Regions of some contexts. -/
def regionsOf (s : State) (l : List CtxId) : List W32 := (l.filter fun c => (getCtx s c).run.state != .empty).map fun c => (getCtx s c).prog.region
/-- ENGINE_RESET: the fault domains with work in the engine stop, then it is cleared (R364). -/
def engineReset (s : State) (e : EngineId) : State :=
  match e with
  | .channel c ch => resetRecord (modCtx (stopRegions s (regionsOf s [c])) c fun x => setChan x ch {}) 6 0 10000
  | .matrix core =>
    let cs := [mkCtx core.toNat false, mkCtx core.toNat true]
    resetRecord (cs.foldl (fun s c => modCtx s c fun x => { x with m := { x.m with staging := {}, rowprog := 0 } }) (stopRegions s (regionsOf s cs))) 6 1 10000
  | .hoist cl =>
    let k := getCl s cl.toNat
    let s := ((ctxsOf s cl.toNat).filter fun c => !(getCtx s c).prog.absent.isEmpty).foldl (fun s c => stopUnreachable s c (getCtx s c).prog.image.toNat) s
    resetRecord (modCl (stopRegions s (k.hoist.map (·.region))) cl.toNat fun k => { k with hoist := [] }) 6 2 10000
  | .bolter => resetRecord { s with regions := s.regions.map fun r => { r with dirty := [] } } 6 3 10000
  | .agent d =>
    let l := workOn s d.toNat
    let s1 := l.foldl (fun s p => finishAt s p.1 p.2.1 p.2.2.tid eccUncorrected []) s
    resetRecord (stopRegions s1 (regionsOf s (l.map (·.1)))) 6 4 10000
  | .port p => resetRecord (planeFail s p) 6 5 10000
  | .memory d => resetRecord (stopRegions s (regionsOf s ((workOn s d.toNat).map (·.1)))) 6 6 10000
/-- FIRMWARE_CORE_RESET: the core and its mailbox; it restarts from the active bank, unless an alarm has locked the package. -/
def firmwareReset (s : State) (k : Nat) : State :=
  let s := modFw s fun f => { f with
    mail := f.mail.filter fun p => p.1 != k
    stopped := if f.locked then f.stopped else setBit f.stopped k false }
  resetRecord s 7 k 5000000

/-! ### Mailboxes (R360) and firmware update (R362) -/

/-- MAILBOX_MESSAGE: delivered whole behind earlier ones; a full mailbox makes the sender wait. -/
def mailMessage (s : State) (src dst : BitVec 3) (m : BitVec 512) : State :=
  let q := tabGet [] s.fw.mail dst.toNat
  if 16 ≤ q.length then s else modFw s fun f => { f with mail := tabSet f.mail dst.toNat (q ++ [(src, m)]) }
/-- A firmware core takes its oldest message (log entry 45). -/
def takeMail (f : Firm) : Firm := { f with mail := (f.mail.map fun p => if f.stopped.getLsbD p.1 then p else (p.1, p.2.drop 1)).filter fun p => !p.2.isEmpty }
/-- FIRMWARE_IMAGE_WRITE: within a session the inactive bank takes the image and is verified; the active bank stays in use. -/
def imageWrite (s : State) (image sig : BitVec 512) (version : W64) : State :=
  if s.fw.spdm.session.isNone ∨ !s.fw.spdm.finished ∨ s.fw.updating then s
  else
    let s := modFw s fun f => if f.activeBank then { f with bank0 := image, sig0 := sig, ver0 := version } else { f with bank1 := image, sig1 := sig, ver1 := version }
    let ok := bankOk s.fw (!s.fw.activeBank)
    bankRecord (modFw s fun f => if f.activeBank then { f with bad0 := !ok, updating := ok, switched := [] } else { f with bad1 := !ok, updating := ok, switched := [] }) 3
/-- The order in which functions switch. -/
def switchOrder : List (BitVec 3) := [5, 6, 2, 3, 1, 0, 7, 4]
/-- FUNCTION_SWITCH: the next function, once its mailbox is empty; the last one makes the new bank the active one. -/
def functionSwitch (s : State) (k : BitVec 3) : State :=
  if !s.fw.updating ∨ switchOrder[s.fw.switched.length]? ≠ some k ∨ !(tabGet [] s.fw.mail k.toNat).isEmpty then s
  else
    let d := codeDigest { s.fw with activeBank := !s.fw.activeBank } k.toNat
    let s := modFw (extend s (2 + k.toNat) d) fun f => { f with switched := f.switched ++ [k], code := tabSet f.code k.toNat d }
    if s.fw.switched.length < 8 then bankRecord s 4
    else bankRecord (modFw s fun f => { f with activeBank := !f.activeBank, updating := false, rollback := if f.activeBank then f.ver0 else f.ver1 }) 5
/-- FIRMWARE_REMEASURE: a difference from what the core is known to run raises an integrity alarm. -/
def remeasure (s : State) (k : BitVec 3) (d : BitVec 512) : State := if tabGet 0 s.fw.code k.toNat = d then s else alarm s 2 (0x10 + k.toNat)

/-! ### SPDM (15 R311; message codes of DSP0274, log entry 46) -/

/-- A reply: version, code, two parameters, payload. -/
def reply (s : State) (code p1 p2 : Nat) (l : List Byte) (f : Spdm → Spdm) : State :=
  modFw s fun w => { w with spdm := { f w.spdm with reply := leBytes 1 0x13 ++ leBytes 1 code ++ leBytes 1 p1 ++ leBytes 1 p2 ++ l } }
/-- ERROR. -/
def spdmError (s : State) (e data : Nat) : State := reply s 0x7F e data [] id
/-- Runs a request that needs a stage of the negotiation; before it the answer is UnexpectedRequest. -/
def atStage (s : State) (n : Nat) (t : State) : State := if n ≤ s.fw.spdm.stage then t else spdmError s 0x04 0
def getVersion (s : State) : State := reply s 0x04 0 0 ([0, 1] ++ leBytes 2 0x1300) fun _ => { stage := 1 }
def getCapabilities (s : State) (_flags : W32) : State := atStage s 1 (reply s 0x61 0 0 (leBytes 4 0 ++ leBytes 4 0x2F6) fun p => { p with stage := 2 })
/-- SLH-DSA-SHAKE-256s and SHAKE256 are selected where the requester offers them. -/
def negotiate (s : State) (shake slh : Bool) : State := atStage s 2 (reply s 0x63 0 0 [.ofNat 8 (b2n shake), .ofNat 8 (b2n slh)] fun p => { p with stage := 3 })
/-- The chain of certificate slot 0. -/
def certChain : List Byte := Config.certificateChain 0
def getDigests (s : State) : State := atStage s 3 (reply s 0x01 0 1 (shake256 64 certChain) id)
def getCertificate (s : State) (cslot : BitVec 4) (off len : BitVec 16) : State :=
  atStage s 3 (if cslot ≠ 0 then spdmError s 0x01 0
    else
      let part := (certChain.drop off.toNat).take len.toNat
      reply s 0x02 0 0 (leBytes 2 part.length ++ leBytes 2 (certChain.length - off.toNat - part.length) ++ part) id)
/-- A verifier that has done CHALLENGE and a signed GET_MEASUREMENTS frees the tenant slots (15 R313). -/
def verified (s : State) : State := if s.fw.spdm.challenged && s.fw.spdm.measured then modFw s fun f => { f with needVerifier := false } else s
def challenge (s : State) (cslot : BitVec 4) (nonce : BitVec 256) : State :=
  atStage s 3 (if cslot ≠ 0 then spdmError s 0x01 0
    else
      let body := shake256 64 certChain ++ leBytes 32 nonce.toNat
      verified (reply s 0x03 0 1 (body ++ leBytes 64 (Config.deviceSignature (digest512 body)).toNat) fun p => { p with challenged := true }))
/-- A measurement block of a register. -/
def measBlock (s : State) (r : Nat) : List Byte := leBytes 1 (r + 1) ++ [1] ++ leBytes 2 64 ++ leBytes 64 (measure s r).toNat
/-- GET_MEASUREMENTS: 0 asks for the number of blocks, 0xFF for all, else one. -/
def getMeasurements (s : State) (idx : Byte) (sign : Bool) (nonce : BitVec 256) : State :=
  let l := if idx = 0 then some [] else if idx = 0xFF then some ((List.range 16).flatMap (measBlock s)) else if idx.toNat ≤ 16 then some (measBlock s (idx.toNat - 1)) else none
  atStage s 3 (match l with
    | none => spdmError s 0x01 0
    | some l =>
      let body := l ++ leBytes 32 nonce.toNat
      verified (reply s 0x60 (if idx = 0 then 16 else 0) 0 (body ++ if sign then leBytes 64 (Config.deviceSignature (digest512 body)).toNat else []) fun p =>
        { p with measured := p.measured || sign }))
def keyExchange (s : State) (share : BitVec 768) (nonce : BitVec 256) : State :=
  atStage s 3 (reply s 0x64 0 0 (leBytes 96 (Config.keyExchangeShare share).toNat ++ leBytes 32 nonce.toNat) fun p => { p with session := some share, finished := false })
def finish (s : State) (mac : BitVec 512) : State :=
  if s.fw.spdm.session.isNone then spdmError s 0x04 0 else reply s 0x65 0 0 (leBytes 64 mac.toNat) fun p => { p with finished := true }
def endSession (s : State) : State :=
  if s.fw.spdm.session.isNone then spdmError s 0x04 0 else reply s 0x6C 0 0 [] fun p => { p with session := none, finished := false }
def unsupportedRequest (s : State) (code : Byte) : State := spdmError s 0x07 code.toNat

/-! ### Alarms, clocks and power (15 R312, 19 R365) -/

/-- TAMPER_EVENT: the class and source of the alarm. -/
def tamper (s : State) (k : Tamper) : State :=
  match k with
  | .mesh => alarm s 1 1
  | .supply => alarm s 1 2
  | .clock => alarm s 1 3
  | .glitch => alarm s 1 4
  | .privileged => alarm s 3 1
/-- CLOCK_RATIO_CHANGE: one step down or up, 1 to 19, which begins a segment. -/
def clockRatio (s : State) (cl : Nat) (n : BitVec 5) : State :=
  let old := (getCl s cl).ratio.toNat
  if n = 0 ∨ 19 < n.toNat ∨ !((getCl s cl).started) ∨ (n.toNat ≠ old + 1 ∧ n.toNat + 1 ≠ old) then s
  else
    let s := newSegment s cl 2 n
    sendTelemetry s 0x0104 ((List.range 32).map (fun k => (getCl s k).ratio.setWidth 8) ++ [.ofNat 8 (if n.toNat < old then 1 else 2)])

end Sys2Proof.Machine
end

