-- ==== Sys2Proof/Machine/ExecHost.lean ====
section
/-! DEFINITION. The steps of rings, commands, mailboxes and the SPDM responder. -/

namespace Sys2Proof.Machine

/-- RING_ENABLE (R350). -/
def execRingEnable (k : BitVec 6) (s : State) : Host.Outcome State Fault Refusal := .next (ringEnable s k.toNat)
/-- RING_RESTART (R355). -/
def execRingRestart (k : BitVec 6) (s : State) : Host.Outcome State Fault Refusal := .next (ringRestart s k.toNat)
/-- REGISTER_WRITE (R8, 09 R180). -/
def execRegisterWrite (k : AppAccess) (bytes : List Byte) (s : State) : Host.Outcome State Fault Refusal := .next (appAccess s k bytes)
/-- RING_PACKET_TAKE (R354). -/
def execRingPacketTake (k : BitVec 6) (s : State) : Host.Outcome State Fault Refusal := .next (ringTake s k.toNat)
/-- SUBMIT (R358). -/
def execSubmit (c : Cmd) (s : State) : Host.Outcome State Fault Refusal := .next (submit s c)
/-- REGION_INSTALL (R243). -/
def execRegionInstall (c : Cmd) (s : State) : Host.Outcome State Fault Refusal := .next (regionInstall s c)
/-- REGION_REMOVE (R357). -/
def execRegionRemove (c : Cmd) (s : State) : Host.Outcome State Fault Refusal := .next (regionRemove s c)
/-- KERNEL_REGISTER (R281). -/
def execKernelRegister (c : Cmd) (s : State) : Host.Outcome State Fault Refusal := .next (kernelRegister s c)
/-- MAP (R304). -/
def execMap (c : Cmd) (s : State) : Host.Outcome State Fault Refusal := .next (mapCmd s c)
/-- UNMAP (R304). -/
def execUnmap (c : Cmd) (s : State) : Host.Outcome State Fault Refusal := .next (unmapCmd s c)
/-- TRACE_SET (R341). -/
def execTraceSet (c : Cmd) (s : State) : Host.Outcome State Fault Refusal := .next (traceSet s c)
/-- DUMP_SET (R327). -/
def execDumpSet (c : Cmd) (s : State) : Host.Outcome State Fault Refusal := .next (dumpSet s c)
/-- EXPORT_SET (R306). -/
def execExportSet (c : Cmd) (s : State) : Host.Outcome State Fault Refusal := .next (exportSet s c)
/-- SAVE_POOL (R385). -/
def execSavePool (c : Cmd) (s : State) : Host.Outcome State Fault Refusal := .next (savePool s c)
/-- MAILBOX_MESSAGE (R360). -/
def execMailboxMessage (src dst : BitVec 3) (m : BitVec 512) (s : State) : Host.Outcome State Fault Refusal := .next (mailMessage s src dst m)
/-- GET_VERSION (R311). -/
def execGetVersion (s : State) : Host.Outcome State Fault Refusal := .next (getVersion s)
/-- GET_CAPABILITIES (R311). -/
def execGetCapabilities (flags : BitVec 32) (s : State) : Host.Outcome State Fault Refusal := .next (getCapabilities s flags)
/-- NEGOTIATE_ALGORITHMS (R311). -/
def execNegotiateAlgorithms (shake slh : Bool) (s : State) : Host.Outcome State Fault Refusal := .next (negotiate s shake slh)
/-- GET_DIGESTS (R311). -/
def execGetDigests (s : State) : Host.Outcome State Fault Refusal := .next (getDigests s)
/-- GET_CERTIFICATE (R311). -/
def execGetCertificate (cslot : BitVec 4) (off len : BitVec 16) (s : State) : Host.Outcome State Fault Refusal := .next (getCertificate s cslot off len)
/-- CHALLENGE (R311). -/
def execChallenge (cslot : BitVec 4) (nonce : BitVec 256) (s : State) : Host.Outcome State Fault Refusal := .next (challenge s cslot nonce)
/-- GET_MEASUREMENTS (R311). -/
def execGetMeasurements (idx : BitVec 8) (sign : Bool) (nonce : BitVec 256) (s : State) : Host.Outcome State Fault Refusal := .next (getMeasurements s idx sign nonce)
/-- KEY_EXCHANGE (R311). -/
def execKeyExchange (share : BitVec 768) (nonce : BitVec 256) (s : State) : Host.Outcome State Fault Refusal := .next (keyExchange s share nonce)
/-- FINISH (R311). -/
def execFinish (mac : BitVec 512) (s : State) : Host.Outcome State Fault Refusal := .next (finish s mac)
/-- END_SESSION (R311). -/
def execEndSession (s : State) : Host.Outcome State Fault Refusal := .next (endSession s)
/-- UNSUPPORTED_REQUEST (R311). -/
def execUnsupportedRequest (code : BitVec 8) (s : State) : Host.Outcome State Fault Refusal := .next (unsupportedRequest s code)

end Sys2Proof.Machine
end

