-- ==== Sys2Proof/Machine/ExecK.lean ====
section
/-! DEFINITION. The instructions of the K slot: each is the issue, by the context in focus, of a bundle that holds the one syllable; its effect is
the `sem` of its name (Sems.lean), its checks, holds, traps and commit are those of every issue (Issue.lean, Brake.lean). -/

namespace Sys2Proof.Machine

/-- KLD (R142). -/
def execKld (o : KL) (s : State) : Host.Outcome State Fault Refusal := .next (issueLone s (.k (.kld o)))
/-- KLDP (R142). -/
def execKldp (o : KL) (s : State) : Host.Outcome State Fault Refusal := .next (issueLone s (.k (.kldp o)))
/-- KFILL (R142). -/
def execKfill (o : KF) (s : State) : Host.Outcome State Fault Refusal := .next (issueLone s (.k (.kfill o)))
/-- KCPY (R142). -/
def execKcpy (o : KC) (s : State) : Host.Outcome State Fault Refusal := .next (issueLone s (.k (.kcpy o)))

end Sys2Proof.Machine
end

