-- ==== Sys2Proof/Machine/ExecL.lean ====
section
/-! DEFINITION. The instructions of the L slot: each is the issue, by the context in focus, of a bundle that holds the one syllable; its effect is
the `sem` of its name (Sems.lean), its checks, holds, traps and commit are those of every issue (Issue.lean, Brake.lean). -/

namespace Sys2Proof.Machine

/-- BR (R111). -/
def execBr (o : LB) (s : State) : Host.Outcome State Fault Refusal := .next (issueLone s (.l (.br o)))
/-- CALL (R111). -/
def execCall (o : LB) (s : State) : Host.Outcome State Fault Refusal := .next (issueLone s (.l (.call o)))
/-- RET (R111). -/
def execRet (o : SG) (s : State) : Host.Outcome State Fault Refusal := .next (issueLone s (.l (.ret o)))
/-- LOOP (R112). -/
def execLoop (o : LP) (s : State) : Host.Outcome State Fault Refusal := .next (issueLone s (.l (.loop o)))
/-- LOOP_IMM (R112). -/
def execLoopImm (o : LI) (s : State) : Host.Outcome State Fault Refusal := .next (issueLone s (.l (.loopImm o)))
/-- LEND (R113). -/
def execLend (o : LE) (s : State) : Host.Outcome State Fault Refusal := .next (issueLone s (.l (.lend o)))
/-- LEXIT (R114). -/
def execLexit (o : LE) (s : State) : Host.Outcome State Fault Refusal := .next (issueLone s (.l (.lexit o)))
/-- BSTEP (R115). -/
def execBstep (o : LS) (s : State) : Host.Outcome State Fault Refusal := .next (issueLone s (.l (.bstep o)))
/-- BSET (R115). -/
def execBset (o : LS) (s : State) : Host.Outcome State Fault Refusal := .next (issueLone s (.l (.bset o)))
/-- DICT (R36). -/
def execDict (o : LD) (s : State) : Host.Outcome State Fault Refusal := .next (issueLone s (.l (.dict o)))
/-- IFENCE (R117). -/
def execIfence (o : SG) (s : State) : Host.Outcome State Fault Refusal := .next (issueLone s (.l (.ifence o)))
/-- KEND (R118). -/
def execKend (o : SG) (s : State) : Host.Outcome State Fault Refusal := .next (issueLone s (.l (.kend o)))
/-- QSET (R116). -/
def execQset (o : LQ) (s : State) : Host.Outcome State Fault Refusal := .next (issueLone s (.l (.qset o)))

end Sys2Proof.Machine
end

