-- ==== Sys2Proof/Machine/ExecM.lean ====
section
/-! DEFINITION. The instructions of the M slot: each is the issue, by the context in focus, of a bundle that holds the one syllable; its effect is
the `sem` of its name (Sems.lean), its checks, holds, traps and commit are those of every issue (Issue.lean, Brake.lean). -/

namespace Sys2Proof.Machine

/-- MPUSH (R146). -/
def execMpush (o : MO) (s : State) : Host.Outcome State Fault Refusal := .next (issueLone s (.m (.mpush o)))
/-- MSHIFT (R146). -/
def execMshift (o : MO) (s : State) : Host.Outcome State Fault Refusal := .next (issueLone s (.m (.mshift o)))
/-- MACC (R147). -/
def execMacc (o : MO) (s : State) : Host.Outcome State Fault Refusal := .next (issueLone s (.m (.macc o)))
/-- MACCP (R149). -/
def execMaccp (o : MO) (s : State) : Host.Outcome State Fault Refusal := .next (issueLone s (.m (.maccp o)))
/-- MDRAIN (R150). -/
def execMdrain (o : MO) (s : State) : Host.Outcome State Fault Refusal := .next (issueLone s (.m (.mdrain o)))
/-- MANCH (R145). -/
def execManch (o : MO) (s : State) : Host.Outcome State Fault Refusal := .next (issueLone s (.m (.manch o)))
/-- MZERO (R145). -/
def execMzero (o : MO) (s : State) : Host.Outcome State Fault Refusal := .next (issueLone s (.m (.mzero o)))
/-- MROW (R145). -/
def execMrow (o : MO) (s : State) : Host.Outcome State Fault Refusal := .next (issueLone s (.m (.mrow o)))
/-- MEXACT (R145). -/
def execMexact (o : MO) (s : State) : Host.Outcome State Fault Refusal := .next (issueLone s (.m (.mexact o)))
/-- MDRAINV (R151). -/
def execMdrainv (o : MO) (s : State) : Host.Outcome State Fault Refusal := .next (issueLone s (.m (.mdrainv o)))

end Sys2Proof.Machine
end

