-- ==== Sys2Proof/Machine/ExecManage.lean ====
section
/-! DEFINITION. The steps of firmware update, resets, alarms, power and telemetry. -/

namespace Sys2Proof.Machine

/-- FIRMWARE_IMAGE_WRITE (R362). -/
def execFirmwareImageWrite (image sig : BitVec 512) (version : BitVec 64) (s : State) : Host.Outcome State Fault Refusal := .next (imageWrite s image sig version)
/-- FUNCTION_SWITCH (R362). -/
def execFunctionSwitch (f : BitVec 3) (s : State) : Host.Outcome State Fault Refusal := .next (functionSwitch s f)
/-- FIRMWARE_REMEASURE (R310). -/
def execFirmwareRemeasure (f : BitVec 3) (digest : BitVec 512) (s : State) : Host.Outcome State Fault Refusal := .next (remeasure s f digest)
/-- PACKAGE_COLD_RESET (R363). -/
def execPackageColdReset (s : State) : Host.Outcome State Fault Refusal := .next (coldReset s)
/-- PACKAGE_WARM_RESET (R363). -/
def execPackageWarmReset (s : State) : Host.Outcome State Fault Refusal := .next (warmReset s)
/-- HOST_DIE_RESET (R363). -/
def execHostDieReset (s : State) : Host.Outcome State Fault Refusal := .next (hostReset s)
/-- COMPUTE_DIE_RESET (R363). -/
def execComputeDieReset (die : BitVec 3) (s : State) : Host.Outcome State Fault Refusal := .next (dieReset s die.toNat)
/-- CLUSTER_CLEAR (R299). -/
def execClusterClear (cl : ClId) (s : State) : Host.Outcome State Fault Refusal := .next (clusterClear s cl.toNat)
/-- CORE_RESET (R363). -/
def execCoreReset (core : BitVec 8) (s : State) : Host.Outcome State Fault Refusal := .next (coreReset s core.toNat)
/-- ENGINE_RESET (R364). -/
def execEngineReset (e : EngineId) (s : State) : Host.Outcome State Fault Refusal := .next (engineReset s e)
/-- FIRMWARE_CORE_RESET (R363). -/
def execFirmwareCoreReset (f : BitVec 3) (s : State) : Host.Outcome State Fault Refusal := .next (firmwareReset s f.toNat)
/-- TAMPER_EVENT (R312). -/
def execTamperEvent (k : Tamper) (s : State) : Host.Outcome State Fault Refusal := .next (tamper s k)
/-- CLOCK_RATIO_CHANGE (R365). -/
def execClockRatioChange (cl : ClId) (n : BitVec 5) (s : State) : Host.Outcome State Fault Refusal := .next (clockRatio s cl.toNat n)
/-- THERMAL_SHUTDOWN (R365). -/
def execThermalShutdown (s : State) : Host.Outcome State Fault Refusal := .next (warmReset s)
/-- TELEMETRY_PERIODIC (R361). -/
def execTelemetryPeriodic (ty : BitVec 16) (s : State) : Host.Outcome State Fault Refusal := .next (telemetryPeriodic s ty.toNat)
/-- TELEMETRY_REQUEST (R361). -/
def execTelemetryRequest (ty : BitVec 16) (s : State) : Host.Outcome State Fault Refusal := .next (telemetryRequest s ty)

end Sys2Proof.Machine
end

