-- ==== Sys2Proof/Machine/ExecProgress.lean ====
section
/-! DEFINITION. The steps of roles, pre-emption, time limits, saves and restores. -/

namespace Sys2Proof.Machine

/-- PROMOTION (R250). -/
def execPromotion (core : BitVec 8) (s : State) : Host.Outcome State Fault Refusal := .next (promotion s core.toNat)
/-- STARVATION_MARK (R250). -/
def execStarvationMark (core : BitVec 8) (s : State) : Host.Outcome State Fault Refusal := .next (starvationMark s core.toNat)
/-- YIELD_ELIGIBLE (R260). -/
def execYieldEligible (c : CtxId) (s : State) : Host.Outcome State Fault Refusal := .next (yieldEligible s c)
/-- PREEMPTION (R261). -/
def execPreemption (c : CtxId) (s : State) : Host.Outcome State Fault Refusal := .next (preemption s c)
/-- PROGRESS_TIMEOUT (R263). -/
def execProgressTimeout (region : BitVec 32) (s : State) : Host.Outcome State Fault Refusal := .next (progressTimeout s region)
/-- BRAKE_TIMEOUT (R258). -/
def execBrakeTimeout (cl : ClId) (s : State) : Host.Outcome State Fault Refusal := .next (brakeTimeout s cl.toNat)
/-- ESC_ANSWER (R288). -/
def execEscAnswer (c : CtxId) (ans : EscAns) (s : State) : Host.Outcome State Fault Refusal := .next (escAnswer s c ans)
/-- CTX_REQUEST_DECIDED (R291). -/
def execCtxRequestDecided (c : CtxId) (s : State) : Host.Outcome State Fault Refusal := .next (ctxDecided s c)
/-- CONTEXT_SAVE (R320). -/
def execContextSave (c : CtxId) (s : State) : Host.Outcome State Fault Refusal := .next (contextSave s c)
/-- UNIT_DEPARTURE_DONE (R321). -/
def execUnitDepartureDone (cl : ClId) (fails : Bool) (s : State) : Host.Outcome State Fault Refusal := .next (departureDone s cl.toNat fails)
/-- SAVE_FAILED (R325). -/
def execSaveFailed (cl : ClId) (s : State) : Host.Outcome State Fault Refusal := .next (saveFailed s cl.toNat)
/-- CONTEXT_RESTORE (R322). -/
def execContextRestore (c : CtxId) (region : BitVec 32) (image : BitVec 64) (s : State) : Host.Outcome State Fault Refusal := .next (contextRestore s c region image)
/-- PULL_LAND (R321). -/
def execPullLand (c : CtxId) (unit : BitVec 10) (s : State) : Host.Outcome State Fault Refusal := .next (pullLand s c unit.toNat)
/-- RESTORE_UNREACHABLE (R324). -/
def execRestoreUnreachable (c : CtxId) (unit : BitVec 10) (s : State) : Host.Outcome State Fault Refusal := .next (restoreUnreachable s c unit.toNat)
/-- DIRECTORY_REREAD (R323). -/
def execDirectoryReread (c : CtxId) (unit : BitVec 10) (s : State) : Host.Outcome State Fault Refusal := .next (directoryReread s c unit.toNat)

end Sys2Proof.Machine
end

