-- ==== Sys2Proof/Machine/ExecS.lean ====
section
/-! DEFINITION. The instructions of the S slot: each is the issue, by the context in focus, of a bundle that holds the one syllable; its effect is
the `sem` of its name (Sems.lean), its checks, holds, traps and commit are those of every issue (Issue.lean, Brake.lean). -/

namespace Sys2Proof.Machine

/-- ADD (R100). -/
def execAdd (o : SR) (s : State) : Host.Outcome State Fault Refusal := .next (issueLone s (.s (.add o)))
/-- SUB (R100). -/
def execSub (o : SR) (s : State) : Host.Outcome State Fault Refusal := .next (issueLone s (.s (.sub o)))
/-- MUL (R100). -/
def execMul (o : SR) (s : State) : Host.Outcome State Fault Refusal := .next (issueLone s (.s (.mul o)))
/-- MULH (R100). -/
def execMulh (o : SR) (s : State) : Host.Outcome State Fault Refusal := .next (issueLone s (.s (.mulh o)))
/-- MULHU (R100). -/
def execMulhu (o : SR) (s : State) : Host.Outcome State Fault Refusal := .next (issueLone s (.s (.mulhu o)))
/-- AND (R100). -/
def execAnd (o : SR) (s : State) : Host.Outcome State Fault Refusal := .next (issueLone s (.s (.and o)))
/-- OR (R100). -/
def execOr (o : SR) (s : State) : Host.Outcome State Fault Refusal := .next (issueLone s (.s (.or o)))
/-- XOR (R100). -/
def execXor (o : SR) (s : State) : Host.Outcome State Fault Refusal := .next (issueLone s (.s (.xor o)))
/-- ANDN (R100). -/
def execAndn (o : SR) (s : State) : Host.Outcome State Fault Refusal := .next (issueLone s (.s (.andn o)))
/-- SHL (R100). -/
def execShl (o : SR) (s : State) : Host.Outcome State Fault Refusal := .next (issueLone s (.s (.shl o)))
/-- SHR (R100). -/
def execShr (o : SR) (s : State) : Host.Outcome State Fault Refusal := .next (issueLone s (.s (.shr o)))
/-- SRA (R100). -/
def execSra (o : SR) (s : State) : Host.Outcome State Fault Refusal := .next (issueLone s (.s (.sra o)))
/-- ROTL (R100). -/
def execRotl (o : SR) (s : State) : Host.Outcome State Fault Refusal := .next (issueLone s (.s (.rotl o)))
/-- MIN (R100). -/
def execMin (o : SR) (s : State) : Host.Outcome State Fault Refusal := .next (issueLone s (.s (.min o)))
/-- MAX (R100). -/
def execMax (o : SR) (s : State) : Host.Outcome State Fault Refusal := .next (issueLone s (.s (.max o)))
/-- MINU (R100). -/
def execMinu (o : SR) (s : State) : Host.Outcome State Fault Refusal := .next (issueLone s (.s (.minu o)))
/-- MAXU (R100). -/
def execMaxu (o : SR) (s : State) : Host.Outcome State Fault Refusal := .next (issueLone s (.s (.maxu o)))
/-- POPC (R100). -/
def execPopc (o : SU) (s : State) : Host.Outcome State Fault Refusal := .next (issueLone s (.s (.popc o)))
/-- CLZ (R100). -/
def execClz (o : SU) (s : State) : Host.Outcome State Fault Refusal := .next (issueLone s (.s (.clz o)))
/-- CTZ (R100). -/
def execCtz (o : SU) (s : State) : Host.Outcome State Fault Refusal := .next (issueLone s (.s (.ctz o)))
/-- BEXT (R104). -/
def execBext (o : SR) (s : State) : Host.Outcome State Fault Refusal := .next (issueLone s (.s (.bext o)))
/-- BINS (R104). -/
def execBins (o : SR) (s : State) : Host.Outcome State Fault Refusal := .next (issueLone s (.s (.bins o)))
/-- CMPEQ (R102). -/
def execCmpeq (o : SR) (s : State) : Host.Outcome State Fault Refusal := .next (issueLone s (.s (.cmpeq o)))
/-- CMPNE (R102). -/
def execCmpne (o : SR) (s : State) : Host.Outcome State Fault Refusal := .next (issueLone s (.s (.cmpne o)))
/-- CMPLT (R102). -/
def execCmplt (o : SR) (s : State) : Host.Outcome State Fault Refusal := .next (issueLone s (.s (.cmplt o)))
/-- CMPLTU (R102). -/
def execCmpltu (o : SR) (s : State) : Host.Outcome State Fault Refusal := .next (issueLone s (.s (.cmpltu o)))
/-- CMPLE (R102). -/
def execCmple (o : SR) (s : State) : Host.Outcome State Fault Refusal := .next (issueLone s (.s (.cmple o)))
/-- CMPLEU (R102). -/
def execCmpleu (o : SR) (s : State) : Host.Outcome State Fault Refusal := .next (issueLone s (.s (.cmpleu o)))
/-- GAND (R102). -/
def execGand (o : SR) (s : State) : Host.Outcome State Fault Refusal := .next (issueLone s (.s (.gand o)))
/-- GOR (R102). -/
def execGor (o : SR) (s : State) : Host.Outcome State Fault Refusal := .next (issueLone s (.s (.gor o)))
/-- GXOR (R102). -/
def execGxor (o : SR) (s : State) : Host.Outcome State Fault Refusal := .next (issueLone s (.s (.gxor o)))
/-- GNOT (R102). -/
def execGnot (o : SU) (s : State) : Host.Outcome State Fault Refusal := .next (issueLone s (.s (.gnot o)))
/-- ADD_SI (R100). -/
def execAddSi (o : SI) (s : State) : Host.Outcome State Fault Refusal := .next (issueLone s (.s (.addSi o)))
/-- AND_SI (R100). -/
def execAndSi (o : SI) (s : State) : Host.Outcome State Fault Refusal := .next (issueLone s (.s (.andSi o)))
/-- OR_SI (R100). -/
def execOrSi (o : SI) (s : State) : Host.Outcome State Fault Refusal := .next (issueLone s (.s (.orSi o)))
/-- XOR_SI (R100). -/
def execXorSi (o : SI) (s : State) : Host.Outcome State Fault Refusal := .next (issueLone s (.s (.xorSi o)))
/-- SHL_SI (R100). -/
def execShlSi (o : SI) (s : State) : Host.Outcome State Fault Refusal := .next (issueLone s (.s (.shlSi o)))
/-- SHR_SI (R100). -/
def execShrSi (o : SI) (s : State) : Host.Outcome State Fault Refusal := .next (issueLone s (.s (.shrSi o)))
/-- SRA_SI (R100). -/
def execSraSi (o : SI) (s : State) : Host.Outcome State Fault Refusal := .next (issueLone s (.s (.sraSi o)))
/-- CMPEQ_SI (R102). -/
def execCmpeqSi (o : SI) (s : State) : Host.Outcome State Fault Refusal := .next (issueLone s (.s (.cmpeqSi o)))
/-- CMPLT_SI (R102). -/
def execCmpltSi (o : SI) (s : State) : Host.Outcome State Fault Refusal := .next (issueLone s (.s (.cmpltSi o)))
/-- CMPLTU_SI (R102). -/
def execCmpltuSi (o : SI) (s : State) : Host.Outcome State Fault Refusal := .next (issueLone s (.s (.cmpltuSi o)))
/-- MOVI (R101). -/
def execMovi (o : SJ) (s : State) : Host.Outcome State Fault Refusal := .next (issueLone s (.s (.movi o)))
/-- MOVK_H1 (R101). -/
def execMovkH1 (o : SJ) (s : State) : Host.Outcome State Fault Refusal := .next (issueLone s (.s (.movkH1 o)))
/-- MOVK_H2 (R101). -/
def execMovkH2 (o : SJ) (s : State) : Host.Outcome State Fault Refusal := .next (issueLone s (.s (.movkH2 o)))
/-- MOVK_H3 (R101). -/
def execMovkH3 (o : SJ) (s : State) : Host.Outcome State Fault Refusal := .next (issueLone s (.s (.movkH3 o)))
/-- MOVK_H4 (R101). -/
def execMovkH4 (o : SK) (s : State) : Host.Outcome State Fault Refusal := .next (issueLone s (.s (.movkH4 o)))
/-- ADD_SJ (R100). -/
def execAddSj (o : SJ) (s : State) : Host.Outcome State Fault Refusal := .next (issueLone s (.s (.addSj o)))
/-- AND_SJ (R100). -/
def execAndSj (o : SJ) (s : State) : Host.Outcome State Fault Refusal := .next (issueLone s (.s (.andSj o)))
/-- OR_SJ (R100). -/
def execOrSj (o : SJ) (s : State) : Host.Outcome State Fault Refusal := .next (issueLone s (.s (.orSj o)))
/-- XOR_SJ (R100). -/
def execXorSj (o : SJ) (s : State) : Host.Outcome State Fault Refusal := .next (issueLone s (.s (.xorSj o)))
/-- SLD8 (R105). -/
def execSld8 (o : SM) (s : State) : Host.Outcome State Fault Refusal := .next (issueLone s (.s (.sld8 o)))
/-- SLD16 (R105). -/
def execSld16 (o : SM) (s : State) : Host.Outcome State Fault Refusal := .next (issueLone s (.s (.sld16 o)))
/-- SLD32 (R105). -/
def execSld32 (o : SM) (s : State) : Host.Outcome State Fault Refusal := .next (issueLone s (.s (.sld32 o)))
/-- SLD64 (R105). -/
def execSld64 (o : SM) (s : State) : Host.Outcome State Fault Refusal := .next (issueLone s (.s (.sld64 o)))
/-- SLDZ8 (R105). -/
def execSldz8 (o : SM) (s : State) : Host.Outcome State Fault Refusal := .next (issueLone s (.s (.sldz8 o)))
/-- SLDZ16 (R105). -/
def execSldz16 (o : SM) (s : State) : Host.Outcome State Fault Refusal := .next (issueLone s (.s (.sldz16 o)))
/-- SLDZ32 (R105). -/
def execSldz32 (o : SM) (s : State) : Host.Outcome State Fault Refusal := .next (issueLone s (.s (.sldz32 o)))
/-- SST8 (R105). -/
def execSst8 (o : SM) (s : State) : Host.Outcome State Fault Refusal := .next (issueLone s (.s (.sst8 o)))
/-- SST16 (R105). -/
def execSst16 (o : SM) (s : State) : Host.Outcome State Fault Refusal := .next (issueLone s (.s (.sst16 o)))
/-- SST32 (R105). -/
def execSst32 (o : SM) (s : State) : Host.Outcome State Fault Refusal := .next (issueLone s (.s (.sst32 o)))
/-- SST64 (R105). -/
def execSst64 (o : SM) (s : State) : Host.Outcome State Fault Refusal := .next (issueLone s (.s (.sst64 o)))
/-- LOP3 (R103). -/
def execLop3 (o : Lop) (s : State) : Host.Outcome State Fault Refusal := .next (issueLone s (.s (.lop3 o)))
/-- FSET (R106). -/
def execFset (o : SF) (s : State) : Host.Outcome State Fault Refusal := .next (issueLone s (.s (.fset o)))
/-- FSET_REG (R106). -/
def execFsetReg (o : SFR) (s : State) : Host.Outcome State Fault Refusal := .next (issueLone s (.s (.fsetReg o)))
/-- VROT (R107). -/
def execVrot (o : SV) (s : State) : Host.Outcome State Fault Refusal := .next (issueLone s (.s (.vrot o)))
/-- CPY_FROM_S (R108). -/
def execCpyFromS (o : SX) (s : State) : Host.Outcome State Fault Refusal := .next (issueLone s (.s (.cpyFromS o)))
/-- CPY_TO_S (R108). -/
def execCpyToS (o : SX) (s : State) : Host.Outcome State Fault Refusal := .next (issueLone s (.s (.cpyToS o)))
/-- WDONE (R109). -/
def execWdone (o : SW) (s : State) : Host.Outcome State Fault Refusal := .next (issueLone s (.s (.wdone o)))
/-- MOV_FROM_SYS (R110). -/
def execMovFromSys (o : SY) (s : State) : Host.Outcome State Fault Refusal := .next (issueLone s (.s (.movFromSys o)))
/-- MOV_TO_SYS (R110). -/
def execMovToSys (o : SY) (s : State) : Host.Outcome State Fault Refusal := .next (issueLone s (.s (.movToSys o)))
/-- TRAP (R287). -/
def execTrap (o : SC) (s : State) : Host.Outcome State Fault Refusal := .next (issueLone s (.s (.trap o)))
/-- ESC (R288). -/
def execEsc (o : SS) (s : State) : Host.Outcome State Fault Refusal := .next (issueLone s (.s (.esc o)))
/-- MRET (R289). -/
def execMret (o : SG) (s : State) : Host.Outcome State Fault Refusal := .next (issueLone s (.s (.mret o)))
/-- YIELD (R286). -/
def execYield (o : SG) (s : State) : Host.Outcome State Fault Refusal := .next (issueLone s (.s (.yield o)))
/-- PMQ (R290). -/
def execPmq (o : SY) (s : State) : Host.Outcome State Fault Refusal := .next (issueLone s (.s (.pmq o)))
/-- PMPULL (R290). -/
def execPmpull (o : SC) (s : State) : Host.Outcome State Fault Refusal := .next (issueLone s (.s (.pmpull o)))
/-- CTXSAVE (R291). -/
def execCtxsave (o : SS) (s : State) : Host.Outcome State Fault Refusal := .next (issueLone s (.s (.ctxsave o)))
/-- CTXREST (R291). -/
def execCtxrest (o : SS) (s : State) : Host.Outcome State Fault Refusal := .next (issueLone s (.s (.ctxrest o)))
/-- CTXSW (R286). -/
def execCtxsw (o : SG) (s : State) : Host.Outcome State Fault Refusal := .next (issueLone s (.s (.ctxsw o)))
/-- DSTOP (R342). -/
def execDstop (o : SC) (s : State) : Host.Outcome State Fault Refusal := .next (issueLone s (.s (.dstop o)))
/-- WPSET (R343). -/
def execWpset (o : SN) (s : State) : Host.Outcome State Fault Refusal := .next (issueLone s (.s (.wpset o)))
/-- WPCLR (R343). -/
def execWpclr (o : SN) (s : State) : Host.Outcome State Fault Refusal := .next (issueLone s (.s (.wpclr o)))
/-- RDTICK (R286). -/
def execRdtick (o : SS) (s : State) : Host.Outcome State Fault Refusal := .next (issueLone s (.s (.rdtick o)))
/-- RDCYC (R286). -/
def execRdcyc (o : SS) (s : State) : Host.Outcome State Fault Refusal := .next (issueLone s (.s (.rdcyc o)))
/-- FORWARD_COMPAT_NOP (R57): a syllable of the band, in any slot. -/
def execForwardCompatNop (slot : BitVec 3) (w : W64) (s : State) : Host.Outcome State Fault Refusal := .next (issueLone s (.band slot w))

end Sys2Proof.Machine
end

