-- ==== Sys2Proof/Machine/ExecTile.lean ====
section
/-! DEFINITION. The steps of the tile sequencers: the check and staging of each word, and the life of an entry. -/

namespace Sys2Proof.Machine

/-- TW_MATMUL (R273). -/
def execTwMatmul (t : TileIn) (s : State) : Host.Outcome State Fault Refusal := .next (tileWord 0x01 t s)
/-- TW_MATMULP (R273). -/
def execTwMatmulp (t : TileIn) (s : State) : Host.Outcome State Fault Refusal := .next (tileWord 0x02 t s)
/-- TW_UNARY (R273). -/
def execTwUnary (t : TileIn) (s : State) : Host.Outcome State Fault Refusal := .next (tileWord 0x03 t s)
/-- TW_BINARY (R273). -/
def execTwBinary (t : TileIn) (s : State) : Host.Outcome State Fault Refusal := .next (tileWord 0x04 t s)
/-- TW_REDUCE (R273). -/
def execTwReduce (t : TileIn) (s : State) : Host.Outcome State Fault Refusal := .next (tileWord 0x05 t s)
/-- TW_TRANSPOSE (R273). -/
def execTwTranspose (t : TileIn) (s : State) : Host.Outcome State Fault Refusal := .next (tileWord 0x06 t s)
/-- TW_GATHER (R273). -/
def execTwGather (t : TileIn) (s : State) : Host.Outcome State Fault Refusal := .next (tileWord 0x07 t s)
/-- TW_SCATTERADD (R273). -/
def execTwScatteradd (t : TileIn) (s : State) : Host.Outcome State Fault Refusal := .next (tileWord 0x08 t s)
/-- TW_ALLREDUCE (R275). -/
def execTwAllreduce (t : TileIn) (s : State) : Host.Outcome State Fault Refusal := .next (tileWord 0x09 t s)
/-- TW_PHREDUCE (R273). -/
def execTwPhreduce (t : TileIn) (s : State) : Host.Outcome State Fault Refusal := .next (tileWord 0x0A t s)
/-- TW_CALL (R283). -/
def execTwCall (t : TileIn) (s : State) : Host.Outcome State Fault Refusal := .next (tileWord 0x0B t s)
/-- TW_BARRIER (R275). -/
def execTwBarrier (t : TileIn) (s : State) : Host.Outcome State Fault Refusal := .next (tileWord 0x0C t s)
/-- TW_SFENCE (R275). -/
def execTwSfence (t : TileIn) (s : State) : Host.Outcome State Fault Refusal := .next (tileWord 0x0D t s)
/-- TW_COPY (R273). -/
def execTwCopy (t : TileIn) (s : State) : Host.Outcome State Fault Refusal := .next (tileWord 0x0E t s)
/-- TW_FILL (R273). -/
def execTwFill (t : TileIn) (s : State) : Host.Outcome State Fault Refusal := .next (tileWord 0x0F t s)
/-- TW_QUANT (R273). -/
def execTwQuant (t : TileIn) (s : State) : Host.Outcome State Fault Refusal := .next (tileWord 0x10 t s)
/-- TW_DEQUANT (R273). -/
def execTwDequant (t : TileIn) (s : State) : Host.Outcome State Fault Refusal := .next (tileWord 0x11 t s)
/-- TW_CONVERT (R273). -/
def execTwConvert (t : TileIn) (s : State) : Host.Outcome State Fault Refusal := .next (tileWord 0x12 t s)
/-- TW_RNG (R273). -/
def execTwRng (t : TileIn) (s : State) : Host.Outcome State Fault Refusal := .next (tileWord 0x13 t s)
/-- TW_WADD (R273). -/
def execTwWadd (t : TileIn) (s : State) : Host.Outcome State Fault Refusal := .next (tileWord 0x14 t s)
/-- TW_DRAIN (R273). -/
def execTwDrain (t : TileIn) (s : State) : Host.Outcome State Fault Refusal := .next (tileWord 0x15 t s)
/-- TW_SIGNAL (R273). -/
def execTwSignal (t : TileIn) (s : State) : Host.Outcome State Fault Refusal := .next (tileWord 0x16 t s)
/-- TW_WAIT (R273). -/
def execTwWait (t : TileIn) (s : State) : Host.Outcome State Fault Refusal := .next (tileWord 0x17 t s)
/-- TW_NOP (R273). -/
def execTwNop (t : TileIn) (s : State) : Host.Outcome State Fault Refusal := .next (tileWord 0x18 t s)
/-- TW_FORWARD_BAND (R272). -/
def execTwForwardBand (op : BitVec 4) (t : TileIn) (s : State) : Host.Outcome State Fault Refusal := .next (tileWord (0xF0 + op.toNat) t s)
/-- TILE_STAGE_DONE (R245). -/
def execTileStageDone (e : EntryId) (s : State) : Host.Outcome State Fault Refusal := .next (stageDone s e)
/-- TILE_CHILD_ISSUE (R246). -/
def execTileChildIssue (e : EntryId) (s : State) : Host.Outcome State Fault Refusal := .next (childIssue s e)
/-- TILE_CHILD_COMPLETE (R245). -/
def execTileChildComplete (e : EntryId) (k : BitVec 32) (s : State) : Host.Outcome State Fault Refusal := .next (childComplete s e k.toNat)
/-- TILE_CHILD_FAULT (R279). -/
def execTileChildFault (e : EntryId) (k : BitVec 32) (s : State) : Host.Outcome State Fault Refusal := .next (childFault s e k.toNat)
/-- TILE_JOIN_DONE (R278). -/
def execTileJoinDone (e : EntryId) (s : State) : Host.Outcome State Fault Refusal := .next (joinDone s e)
/-- TILE_COMMIT (R285). -/
def execTileCommit (e : EntryId) (s : State) : Host.Outcome State Fault Refusal := .next (tileCommit s e)
/-- KERNEL_START (R284). -/
def execKernelStart (e : EntryId) (c : CtxId) (s : State) : Host.Outcome State Fault Refusal := .next (kernelStart s e c)

end Sys2Proof.Machine
end

