-- ==== Sys2Proof/Machine/ExecV.lean ====
section
/-! DEFINITION. The instructions of the slots VA and VB: each is the issue, by the context in focus, of a bundle that holds the one syllable; its effect
is the `sem` of its name (Sems.lean), its checks, holds, traps and commit are those of every issue (Issue.lean, Brake.lean). -/

namespace Sys2Proof.Machine

/-- VADD_F32 (R121). -/
def execVaddF32 (sd : Side) (o : VR) (s : State) : Host.Outcome State Fault Refusal := .next (issueLone s (.v sd (.vaddF32 o)))
/-- VSUB_F32 (R121). -/
def execVsubF32 (sd : Side) (o : VR) (s : State) : Host.Outcome State Fault Refusal := .next (issueLone s (.v sd (.vsubF32 o)))
/-- VMUL_F32 (R121). -/
def execVmulF32 (sd : Side) (o : VR) (s : State) : Host.Outcome State Fault Refusal := .next (issueLone s (.v sd (.vmulF32 o)))
/-- VFMA_F32 (R121). -/
def execVfmaF32 (sd : Side) (o : V3) (s : State) : Host.Outcome State Fault Refusal := .next (issueLone s (.v sd (.vfmaF32 o)))
/-- VFMS_F32 (R121). -/
def execVfmsF32 (sd : Side) (o : V3) (s : State) : Host.Outcome State Fault Refusal := .next (issueLone s (.v sd (.vfmsF32 o)))
/-- VFNMA_F32 (R121). -/
def execVfnmaF32 (sd : Side) (o : V3) (s : State) : Host.Outcome State Fault Refusal := .next (issueLone s (.v sd (.vfnmaF32 o)))
/-- VMIN_F32 (R122). -/
def execVminF32 (sd : Side) (o : VR) (s : State) : Host.Outcome State Fault Refusal := .next (issueLone s (.v sd (.vminF32 o)))
/-- VMAX_F32 (R122). -/
def execVmaxF32 (sd : Side) (o : VR) (s : State) : Host.Outcome State Fault Refusal := .next (issueLone s (.v sd (.vmaxF32 o)))
/-- VABS_F32 (R122). -/
def execVabsF32 (sd : Side) (o : VR) (s : State) : Host.Outcome State Fault Refusal := .next (issueLone s (.v sd (.vabsF32 o)))
/-- VNEG_F32 (R122). -/
def execVnegF32 (sd : Side) (o : VR) (s : State) : Host.Outcome State Fault Refusal := .next (issueLone s (.v sd (.vnegF32 o)))
/-- VCMPEQ_F32 (R123). -/
def execVcmpeqF32 (sd : Side) (o : VR) (s : State) : Host.Outcome State Fault Refusal := .next (issueLone s (.v sd (.vcmpeqF32 o)))
/-- VCMPLT_F32 (R123). -/
def execVcmpltF32 (sd : Side) (o : VR) (s : State) : Host.Outcome State Fault Refusal := .next (issueLone s (.v sd (.vcmpltF32 o)))
/-- VCMPLE_F32 (R123). -/
def execVcmpleF32 (sd : Side) (o : VR) (s : State) : Host.Outcome State Fault Refusal := .next (issueLone s (.v sd (.vcmpleF32 o)))
/-- VCMPUN_F32 (R123). -/
def execVcmpunF32 (sd : Side) (o : VR) (s : State) : Host.Outcome State Fault Refusal := .next (issueLone s (.v sd (.vcmpunF32 o)))
/-- VSEL (R123). -/
def execVsel (sd : Side) (o : V3) (s : State) : Host.Outcome State Fault Refusal := .next (issueLone s (.v sd (.vsel o)))
/-- VCLASS_F32 (R122). -/
def execVclassF32 (sd : Side) (o : VR) (s : State) : Host.Outcome State Fault Refusal := .next (issueLone s (.v sd (.vclassF32 o)))
/-- VRECIP_F32 (R124). -/
def execVrecipF32 (sd : Side) (o : VR) (s : State) : Host.Outcome State Fault Refusal := .next (issueLone s (.v sd (.vrecipF32 o)))
/-- VRSQRT_F32 (R124). -/
def execVrsqrtF32 (sd : Side) (o : VR) (s : State) : Host.Outcome State Fault Refusal := .next (issueLone s (.v sd (.vrsqrtF32 o)))
/-- VSQRT_F32 (R124). -/
def execVsqrtF32 (sd : Side) (o : VR) (s : State) : Host.Outcome State Fault Refusal := .next (issueLone s (.v sd (.vsqrtF32 o)))
/-- VEXP2_F32 (R124). -/
def execVexp2F32 (sd : Side) (o : VR) (s : State) : Host.Outcome State Fault Refusal := .next (issueLone s (.v sd (.vexp2F32 o)))
/-- VLOG2_F32 (R124). -/
def execVlog2F32 (sd : Side) (o : VR) (s : State) : Host.Outcome State Fault Refusal := .next (issueLone s (.v sd (.vlog2F32 o)))
/-- VSINPI_F32 (R124). -/
def execVsinpiF32 (sd : Side) (o : VR) (s : State) : Host.Outcome State Fault Refusal := .next (issueLone s (.v sd (.vsinpiF32 o)))
/-- VCOSPI_F32 (R124). -/
def execVcospiF32 (sd : Side) (o : VR) (s : State) : Host.Outcome State Fault Refusal := .next (issueLone s (.v sd (.vcospiF32 o)))
/-- VRECIP_BF16 (R124). -/
def execVrecipBf16 (sd : Side) (o : VR) (s : State) : Host.Outcome State Fault Refusal := .next (issueLone s (.v sd (.vrecipBf16 o)))
/-- VRSQRT_BF16 (R124). -/
def execVrsqrtBf16 (sd : Side) (o : VR) (s : State) : Host.Outcome State Fault Refusal := .next (issueLone s (.v sd (.vrsqrtBf16 o)))
/-- VSQRT_BF16 (R124). -/
def execVsqrtBf16 (sd : Side) (o : VR) (s : State) : Host.Outcome State Fault Refusal := .next (issueLone s (.v sd (.vsqrtBf16 o)))
/-- VEXP2_BF16 (R124). -/
def execVexp2Bf16 (sd : Side) (o : VR) (s : State) : Host.Outcome State Fault Refusal := .next (issueLone s (.v sd (.vexp2Bf16 o)))
/-- VLOG2_BF16 (R124). -/
def execVlog2Bf16 (sd : Side) (o : VR) (s : State) : Host.Outcome State Fault Refusal := .next (issueLone s (.v sd (.vlog2Bf16 o)))
/-- VSINPI_BF16 (R124). -/
def execVsinpiBf16 (sd : Side) (o : VR) (s : State) : Host.Outcome State Fault Refusal := .next (issueLone s (.v sd (.vsinpiBf16 o)))
/-- VCOSPI_BF16 (R124). -/
def execVcospiBf16 (sd : Side) (o : VR) (s : State) : Host.Outcome State Fault Refusal := .next (issueLone s (.v sd (.vcospiBf16 o)))
/-- VADD_BF16 (R125). -/
def execVaddBf16 (sd : Side) (o : VR) (s : State) : Host.Outcome State Fault Refusal := .next (issueLone s (.v sd (.vaddBf16 o)))
/-- VSUB_BF16 (R125). -/
def execVsubBf16 (sd : Side) (o : VR) (s : State) : Host.Outcome State Fault Refusal := .next (issueLone s (.v sd (.vsubBf16 o)))
/-- VMUL_BF16 (R125). -/
def execVmulBf16 (sd : Side) (o : VR) (s : State) : Host.Outcome State Fault Refusal := .next (issueLone s (.v sd (.vmulBf16 o)))
/-- VFMA_BF16 (R125). -/
def execVfmaBf16 (sd : Side) (o : V3) (s : State) : Host.Outcome State Fault Refusal := .next (issueLone s (.v sd (.vfmaBf16 o)))
/-- VMIN_BF16 (R125). -/
def execVminBf16 (sd : Side) (o : VR) (s : State) : Host.Outcome State Fault Refusal := .next (issueLone s (.v sd (.vminBf16 o)))
/-- VMAX_BF16 (R125). -/
def execVmaxBf16 (sd : Side) (o : VR) (s : State) : Host.Outcome State Fault Refusal := .next (issueLone s (.v sd (.vmaxBf16 o)))
/-- VCMPEQ_BF16 (R125). -/
def execVcmpeqBf16 (sd : Side) (o : VR) (s : State) : Host.Outcome State Fault Refusal := .next (issueLone s (.v sd (.vcmpeqBf16 o)))
/-- VCMPLT_BF16 (R125). -/
def execVcmpltBf16 (sd : Side) (o : VR) (s : State) : Host.Outcome State Fault Refusal := .next (issueLone s (.v sd (.vcmpltBf16 o)))
/-- VADD_F16 (R125). -/
def execVaddF16 (sd : Side) (o : VR) (s : State) : Host.Outcome State Fault Refusal := .next (issueLone s (.v sd (.vaddF16 o)))
/-- VSUB_F16 (R125). -/
def execVsubF16 (sd : Side) (o : VR) (s : State) : Host.Outcome State Fault Refusal := .next (issueLone s (.v sd (.vsubF16 o)))
/-- VMUL_F16 (R125). -/
def execVmulF16 (sd : Side) (o : VR) (s : State) : Host.Outcome State Fault Refusal := .next (issueLone s (.v sd (.vmulF16 o)))
/-- VFMA_F16 (R125). -/
def execVfmaF16 (sd : Side) (o : V3) (s : State) : Host.Outcome State Fault Refusal := .next (issueLone s (.v sd (.vfmaF16 o)))
/-- VADD_I32 (R126). -/
def execVaddI32 (sd : Side) (o : VR) (s : State) : Host.Outcome State Fault Refusal := .next (issueLone s (.v sd (.vaddI32 o)))
/-- VSUB_I32 (R126). -/
def execVsubI32 (sd : Side) (o : VR) (s : State) : Host.Outcome State Fault Refusal := .next (issueLone s (.v sd (.vsubI32 o)))
/-- VMUL_I32 (R126). -/
def execVmulI32 (sd : Side) (o : VR) (s : State) : Host.Outcome State Fault Refusal := .next (issueLone s (.v sd (.vmulI32 o)))
/-- VMULH_I32 (R126). -/
def execVmulhI32 (sd : Side) (o : VR) (s : State) : Host.Outcome State Fault Refusal := .next (issueLone s (.v sd (.vmulhI32 o)))
/-- VADDS_I32 (R126). -/
def execVaddsI32 (sd : Side) (o : VR) (s : State) : Host.Outcome State Fault Refusal := .next (issueLone s (.v sd (.vaddsI32 o)))
/-- VSUBS_I32 (R126). -/
def execVsubsI32 (sd : Side) (o : VR) (s : State) : Host.Outcome State Fault Refusal := .next (issueLone s (.v sd (.vsubsI32 o)))
/-- VMIN_I32 (R126). -/
def execVminI32 (sd : Side) (o : VR) (s : State) : Host.Outcome State Fault Refusal := .next (issueLone s (.v sd (.vminI32 o)))
/-- VMAX_I32 (R126). -/
def execVmaxI32 (sd : Side) (o : VR) (s : State) : Host.Outcome State Fault Refusal := .next (issueLone s (.v sd (.vmaxI32 o)))
/-- VMIN_N32 (R126). -/
def execVminN32 (sd : Side) (o : VR) (s : State) : Host.Outcome State Fault Refusal := .next (issueLone s (.v sd (.vminN32 o)))
/-- VMAX_N32 (R126). -/
def execVmaxN32 (sd : Side) (o : VR) (s : State) : Host.Outcome State Fault Refusal := .next (issueLone s (.v sd (.vmaxN32 o)))
/-- VAND (R126). -/
def execVand (sd : Side) (o : VR) (s : State) : Host.Outcome State Fault Refusal := .next (issueLone s (.v sd (.vand o)))
/-- VOR (R126). -/
def execVor (sd : Side) (o : VR) (s : State) : Host.Outcome State Fault Refusal := .next (issueLone s (.v sd (.vor o)))
/-- VXOR (R126). -/
def execVxor (sd : Side) (o : VR) (s : State) : Host.Outcome State Fault Refusal := .next (issueLone s (.v sd (.vxor o)))
/-- VSHL (R127). -/
def execVshl (sd : Side) (o : VR) (s : State) : Host.Outcome State Fault Refusal := .next (issueLone s (.v sd (.vshl o)))
/-- VSHR (R127). -/
def execVshr (sd : Side) (o : VR) (s : State) : Host.Outcome State Fault Refusal := .next (issueLone s (.v sd (.vshr o)))
/-- VSRA (R127). -/
def execVsra (sd : Side) (o : VR) (s : State) : Host.Outcome State Fault Refusal := .next (issueLone s (.v sd (.vsra o)))
/-- VCMPEQ_I32 (R126). -/
def execVcmpeqI32 (sd : Side) (o : VR) (s : State) : Host.Outcome State Fault Refusal := .next (issueLone s (.v sd (.vcmpeqI32 o)))
/-- VCMPLT_I32 (R126). -/
def execVcmpltI32 (sd : Side) (o : VR) (s : State) : Host.Outcome State Fault Refusal := .next (issueLone s (.v sd (.vcmpltI32 o)))
/-- VCMPLT_N32 (R126). -/
def execVcmpltN32 (sd : Side) (o : VR) (s : State) : Host.Outcome State Fault Refusal := .next (issueLone s (.v sd (.vcmpltN32 o)))
/-- VCVT_F32_I32 (R128). -/
def execVcvtF32I32 (sd : Side) (o : VR) (s : State) : Host.Outcome State Fault Refusal := .next (issueLone s (.v sd (.vcvtF32I32 o)))
/-- VCVT_I32_F32 (R128). -/
def execVcvtI32F32 (sd : Side) (o : VR) (s : State) : Host.Outcome State Fault Refusal := .next (issueLone s (.v sd (.vcvtI32F32 o)))
/-- VCVT_F32_BF16 (R128). -/
def execVcvtF32Bf16 (sd : Side) (o : VR) (s : State) : Host.Outcome State Fault Refusal := .next (issueLone s (.v sd (.vcvtF32Bf16 o)))
/-- VCVT_BF16_F32 (R128). -/
def execVcvtBf16F32 (sd : Side) (o : VR) (s : State) : Host.Outcome State Fault Refusal := .next (issueLone s (.v sd (.vcvtBf16F32 o)))
/-- VCVT_F32_F16 (R128). -/
def execVcvtF32F16 (sd : Side) (o : VR) (s : State) : Host.Outcome State Fault Refusal := .next (issueLone s (.v sd (.vcvtF32F16 o)))
/-- VCVT_F16_F32 (R128). -/
def execVcvtF16F32 (sd : Side) (o : VR) (s : State) : Host.Outcome State Fault Refusal := .next (issueLone s (.v sd (.vcvtF16F32 o)))
/-- VCVT_F32_E4M3 (R128). -/
def execVcvtF32E4m3 (sd : Side) (o : VR) (s : State) : Host.Outcome State Fault Refusal := .next (issueLone s (.v sd (.vcvtF32E4m3 o)))
/-- VCVT_E4M3_F32 (R128). -/
def execVcvtE4m3F32 (sd : Side) (o : VR) (s : State) : Host.Outcome State Fault Refusal := .next (issueLone s (.v sd (.vcvtE4m3F32 o)))
/-- VCVT_F32_E5M2 (R128). -/
def execVcvtF32E5m2 (sd : Side) (o : VR) (s : State) : Host.Outcome State Fault Refusal := .next (issueLone s (.v sd (.vcvtF32E5m2 o)))
/-- VCVT_E5M2_F32 (R128). -/
def execVcvtE5m2F32 (sd : Side) (o : VR) (s : State) : Host.Outcome State Fault Refusal := .next (issueLone s (.v sd (.vcvtE5m2F32 o)))
/-- VQUANT_Q4 (R129). -/
def execVquantQ4 (sd : Side) (o : VR) (s : State) : Host.Outcome State Fault Refusal := .next (issueLone s (.v sd (.vquantQ4 o)))
/-- VDEQUANT_Q4 (R129). -/
def execVdequantQ4 (sd : Side) (o : VR) (s : State) : Host.Outcome State Fault Refusal := .next (issueLone s (.v sd (.vdequantQ4 o)))
/-- VQUANT_Q8 (R129). -/
def execVquantQ8 (sd : Side) (o : VR) (s : State) : Host.Outcome State Fault Refusal := .next (issueLone s (.v sd (.vquantQ8 o)))
/-- VPERM (R130). -/
def execVperm (sd : Side) (o : VR) (s : State) : Host.Outcome State Fault Refusal := .next (issueLone s (.v sd (.vperm o)))
/-- VROTL (R127). -/
def execVrotl (sd : Side) (o : VR) (s : State) : Host.Outcome State Fault Refusal := .next (issueLone s (.v sd (.vrotl o)))
/-- VBCAST (R130). -/
def execVbcast (sd : Side) (o : VR) (s : State) : Host.Outcome State Fault Refusal := .next (issueLone s (.v sd (.vbcast o)))
/-- VZIP (R130). -/
def execVzip (sd : Side) (o : VR) (s : State) : Host.Outcome State Fault Refusal := .next (issueLone s (.v sd (.vzip o)))
/-- VUNZIP (R130). -/
def execVunzip (sd : Side) (o : VR) (s : State) : Host.Outcome State Fault Refusal := .next (issueLone s (.v sd (.vunzip o)))
/-- VREDSUM_F32 (R131). -/
def execVredsumF32 (sd : Side) (o : VR) (s : State) : Host.Outcome State Fault Refusal := .next (issueLone s (.v sd (.vredsumF32 o)))
/-- VREDMAX_F32 (R131). -/
def execVredmaxF32 (sd : Side) (o : VR) (s : State) : Host.Outcome State Fault Refusal := .next (issueLone s (.v sd (.vredmaxF32 o)))
/-- VREDMIN_F32 (R131). -/
def execVredminF32 (sd : Side) (o : VR) (s : State) : Host.Outcome State Fault Refusal := .next (issueLone s (.v sd (.vredminF32 o)))
/-- VREDSUM_I32 (R131). -/
def execVredsumI32 (sd : Side) (o : VR) (s : State) : Host.Outcome State Fault Refusal := .next (issueLone s (.v sd (.vredsumI32 o)))
/-- VMAND (R132). -/
def execVmand (sd : Side) (o : VR) (s : State) : Host.Outcome State Fault Refusal := .next (issueLone s (.v sd (.vmand o)))
/-- VMOR (R132). -/
def execVmor (sd : Side) (o : VR) (s : State) : Host.Outcome State Fault Refusal := .next (issueLone s (.v sd (.vmor o)))
/-- VMXOR (R132). -/
def execVmxor (sd : Side) (o : VR) (s : State) : Host.Outcome State Fault Refusal := .next (issueLone s (.v sd (.vmxor o)))
/-- VMNOT (R132). -/
def execVmnot (sd : Side) (o : VR) (s : State) : Host.Outcome State Fault Refusal := .next (issueLone s (.v sd (.vmnot o)))
/-- VRNG (R133). -/
def execVrng (sd : Side) (o : VR) (s : State) : Host.Outcome State Fault Refusal := .next (issueLone s (.v sd (.vrng o)))
/-- VRNGSET (R133). -/
def execVrngset (sd : Side) (o : VR) (s : State) : Host.Outcome State Fault Refusal := .next (issueLone s (.v sd (.vrngset o)))
/-- VXFER (R134). -/
def execVxfer (sd : Side) (o : VR) (s : State) : Host.Outcome State Fault Refusal := .next (issueLone s (.v sd (.vxfer o)))
/-- VLD_F32 (R135). -/
def execVldF32 (sd : Side) (o : VM) (s : State) : Host.Outcome State Fault Refusal := .next (issueLone s (.v sd (.vldF32 o)))
/-- VLD_I32 (R135). -/
def execVldI32 (sd : Side) (o : VM) (s : State) : Host.Outcome State Fault Refusal := .next (issueLone s (.v sd (.vldI32 o)))
/-- VLD_BF16 (R135). -/
def execVldBf16 (sd : Side) (o : VM) (s : State) : Host.Outcome State Fault Refusal := .next (issueLone s (.v sd (.vldBf16 o)))
/-- VLD_F16 (R135). -/
def execVldF16 (sd : Side) (o : VM) (s : State) : Host.Outcome State Fault Refusal := .next (issueLone s (.v sd (.vldF16 o)))
/-- VST_F32 (R135). -/
def execVstF32 (sd : Side) (o : VM) (s : State) : Host.Outcome State Fault Refusal := .next (issueLone s (.v sd (.vstF32 o)))
/-- VST_I32 (R135). -/
def execVstI32 (sd : Side) (o : VM) (s : State) : Host.Outcome State Fault Refusal := .next (issueLone s (.v sd (.vstI32 o)))
/-- VST_BF16 (R135). -/
def execVstBf16 (sd : Side) (o : VM) (s : State) : Host.Outcome State Fault Refusal := .next (issueLone s (.v sd (.vstBf16 o)))
/-- VST_F16 (R135). -/
def execVstF16 (sd : Side) (o : VM) (s : State) : Host.Outcome State Fault Refusal := .next (issueLone s (.v sd (.vstF16 o)))
/-- VPMUL_P16 (R154). -/
def execVpmulP16 (sd : Side) (o : VR) (s : State) : Host.Outcome State Fault Refusal := .next (issueLone s (.v sd (.vpmulP16 o)))
/-- VPMUL_P8 (R154). -/
def execVpmulP8 (sd : Side) (o : VR) (s : State) : Host.Outcome State Fault Refusal := .next (issueLone s (.v sd (.vpmulP8 o)))
/-- VPCMP_P16 (R155). -/
def execVpcmpP16 (sd : Side) (o : VR) (s : State) : Host.Outcome State Fault Refusal := .next (issueLone s (.v sd (.vpcmpP16 o)))
/-- VPSC_P16 (R154). -/
def execVpscP16 (sd : Side) (o : VR) (s : State) : Host.Outcome State Fault Refusal := .next (issueLone s (.v sd (.vpscP16 o)))
/-- VPSUM_P16 (R156). -/
def execVpsumP16 (sd : Side) (o : VR) (s : State) : Host.Outcome State Fault Refusal := .next (issueLone s (.v sd (.vpsumP16 o)))
/-- VPRES_P16 (R157). -/
def execVpresP16 (sd : Side) (o : VR) (s : State) : Host.Outcome State Fault Refusal := .next (issueLone s (.v sd (.vpresP16 o)))
/-- VPLEN_P16 (R157). -/
def execVplenP16 (sd : Side) (o : VR) (s : State) : Host.Outcome State Fault Refusal := .next (issueLone s (.v sd (.vplenP16 o)))
/-- VPCVT_P8 (R158). -/
def execVpcvtP8 (sd : Side) (o : VR) (s : State) : Host.Outcome State Fault Refusal := .next (issueLone s (.v sd (.vpcvtP8 o)))

end Sys2Proof.Machine
end

