-- ==== Sys2Proof/Machine/Dispatch.lean ====
section
/-! DEFINITION. One arm per instruction: the one place where an instruction finds its meaning. -/

namespace Sys2Proof.Machine

def exec (i : Instr) (s : State) : Host.Outcome State Fault Refusal :=
  match i with
  | .bundleIssue k => Sys2Proof.Machine.execBundleIssue k s
  | .brakeRelease cl => Sys2Proof.Machine.execBrakeRelease cl s
  | .boundaryAdmit cl => Sys2Proof.Machine.execBoundaryAdmit cl s
  | .brakeTimeout cl => Sys2Proof.Machine.execBrakeTimeout cl s
  | .formRowIssue c slot => Sys2Proof.Machine.execFormRowIssue c slot s
  | .resultLand c => Sys2Proof.Machine.execResultLand c s
  | .forwardCompatNop slot w => Sys2Proof.Machine.execForwardCompatNop slot w s
  | .add o => Sys2Proof.Machine.execAdd o s
  | .sub o => Sys2Proof.Machine.execSub o s
  | .mul o => Sys2Proof.Machine.execMul o s
  | .mulh o => Sys2Proof.Machine.execMulh o s
  | .mulhu o => Sys2Proof.Machine.execMulhu o s
  | .and o => Sys2Proof.Machine.execAnd o s
  | .or o => Sys2Proof.Machine.execOr o s
  | .xor o => Sys2Proof.Machine.execXor o s
  | .andn o => Sys2Proof.Machine.execAndn o s
  | .shl o => Sys2Proof.Machine.execShl o s
  | .shr o => Sys2Proof.Machine.execShr o s
  | .sra o => Sys2Proof.Machine.execSra o s
  | .rotl o => Sys2Proof.Machine.execRotl o s
  | .min o => Sys2Proof.Machine.execMin o s
  | .max o => Sys2Proof.Machine.execMax o s
  | .minu o => Sys2Proof.Machine.execMinu o s
  | .maxu o => Sys2Proof.Machine.execMaxu o s
  | .popc o => Sys2Proof.Machine.execPopc o s
  | .clz o => Sys2Proof.Machine.execClz o s
  | .ctz o => Sys2Proof.Machine.execCtz o s
  | .bext o => Sys2Proof.Machine.execBext o s
  | .bins o => Sys2Proof.Machine.execBins o s
  | .cmpeq o => Sys2Proof.Machine.execCmpeq o s
  | .cmpne o => Sys2Proof.Machine.execCmpne o s
  | .cmplt o => Sys2Proof.Machine.execCmplt o s
  | .cmpltu o => Sys2Proof.Machine.execCmpltu o s
  | .cmple o => Sys2Proof.Machine.execCmple o s
  | .cmpleu o => Sys2Proof.Machine.execCmpleu o s
  | .gand o => Sys2Proof.Machine.execGand o s
  | .gor o => Sys2Proof.Machine.execGor o s
  | .gxor o => Sys2Proof.Machine.execGxor o s
  | .gnot o => Sys2Proof.Machine.execGnot o s
  | .addSi o => Sys2Proof.Machine.execAddSi o s
  | .andSi o => Sys2Proof.Machine.execAndSi o s
  | .orSi o => Sys2Proof.Machine.execOrSi o s
  | .xorSi o => Sys2Proof.Machine.execXorSi o s
  | .shlSi o => Sys2Proof.Machine.execShlSi o s
  | .shrSi o => Sys2Proof.Machine.execShrSi o s
  | .sraSi o => Sys2Proof.Machine.execSraSi o s
  | .cmpeqSi o => Sys2Proof.Machine.execCmpeqSi o s
  | .cmpltSi o => Sys2Proof.Machine.execCmpltSi o s
  | .cmpltuSi o => Sys2Proof.Machine.execCmpltuSi o s
  | .movi o => Sys2Proof.Machine.execMovi o s
  | .movkH1 o => Sys2Proof.Machine.execMovkH1 o s
  | .movkH2 o => Sys2Proof.Machine.execMovkH2 o s
  | .movkH3 o => Sys2Proof.Machine.execMovkH3 o s
  | .movkH4 o => Sys2Proof.Machine.execMovkH4 o s
  | .addSj o => Sys2Proof.Machine.execAddSj o s
  | .andSj o => Sys2Proof.Machine.execAndSj o s
  | .orSj o => Sys2Proof.Machine.execOrSj o s
  | .xorSj o => Sys2Proof.Machine.execXorSj o s
  | .sld8 o => Sys2Proof.Machine.execSld8 o s
  | .sld16 o => Sys2Proof.Machine.execSld16 o s
  | .sld32 o => Sys2Proof.Machine.execSld32 o s
  | .sld64 o => Sys2Proof.Machine.execSld64 o s
  | .sldz8 o => Sys2Proof.Machine.execSldz8 o s
  | .sldz16 o => Sys2Proof.Machine.execSldz16 o s
  | .sldz32 o => Sys2Proof.Machine.execSldz32 o s
  | .sst8 o => Sys2Proof.Machine.execSst8 o s
  | .sst16 o => Sys2Proof.Machine.execSst16 o s
  | .sst32 o => Sys2Proof.Machine.execSst32 o s
  | .sst64 o => Sys2Proof.Machine.execSst64 o s
  | .lop3 o => Sys2Proof.Machine.execLop3 o s
  | .fset o => Sys2Proof.Machine.execFset o s
  | .fsetReg o => Sys2Proof.Machine.execFsetReg o s
  | .vrot o => Sys2Proof.Machine.execVrot o s
  | .cpyFromS o => Sys2Proof.Machine.execCpyFromS o s
  | .cpyToS o => Sys2Proof.Machine.execCpyToS o s
  | .wdone o => Sys2Proof.Machine.execWdone o s
  | .movFromSys o => Sys2Proof.Machine.execMovFromSys o s
  | .movToSys o => Sys2Proof.Machine.execMovToSys o s
  | .trap o => Sys2Proof.Machine.execTrap o s
  | .esc o => Sys2Proof.Machine.execEsc o s
  | .mret o => Sys2Proof.Machine.execMret o s
  | .yield o => Sys2Proof.Machine.execYield o s
  | .pmq o => Sys2Proof.Machine.execPmq o s
  | .pmpull o => Sys2Proof.Machine.execPmpull o s
  | .ctxsave o => Sys2Proof.Machine.execCtxsave o s
  | .ctxrest o => Sys2Proof.Machine.execCtxrest o s
  | .ctxsw o => Sys2Proof.Machine.execCtxsw o s
  | .dstop o => Sys2Proof.Machine.execDstop o s
  | .wpset o => Sys2Proof.Machine.execWpset o s
  | .wpclr o => Sys2Proof.Machine.execWpclr o s
  | .rdtick o => Sys2Proof.Machine.execRdtick o s
  | .rdcyc o => Sys2Proof.Machine.execRdcyc o s
  | .br o => Sys2Proof.Machine.execBr o s
  | .call o => Sys2Proof.Machine.execCall o s
  | .ret o => Sys2Proof.Machine.execRet o s
  | .loop o => Sys2Proof.Machine.execLoop o s
  | .loopImm o => Sys2Proof.Machine.execLoopImm o s
  | .lend o => Sys2Proof.Machine.execLend o s
  | .lexit o => Sys2Proof.Machine.execLexit o s
  | .bstep o => Sys2Proof.Machine.execBstep o s
  | .bset o => Sys2Proof.Machine.execBset o s
  | .dict o => Sys2Proof.Machine.execDict o s
  | .ifence o => Sys2Proof.Machine.execIfence o s
  | .kend o => Sys2Proof.Machine.execKend o s
  | .qset o => Sys2Proof.Machine.execQset o s
  | .kld o => Sys2Proof.Machine.execKld o s
  | .kldp o => Sys2Proof.Machine.execKldp o s
  | .kfill o => Sys2Proof.Machine.execKfill o s
  | .kcpy o => Sys2Proof.Machine.execKcpy o s
  | .vaddF32 sd o => Sys2Proof.Machine.execVaddF32 sd o s
  | .vsubF32 sd o => Sys2Proof.Machine.execVsubF32 sd o s
  | .vmulF32 sd o => Sys2Proof.Machine.execVmulF32 sd o s
  | .vfmaF32 sd o => Sys2Proof.Machine.execVfmaF32 sd o s
  | .vfmsF32 sd o => Sys2Proof.Machine.execVfmsF32 sd o s
  | .vfnmaF32 sd o => Sys2Proof.Machine.execVfnmaF32 sd o s
  | .vminF32 sd o => Sys2Proof.Machine.execVminF32 sd o s
  | .vmaxF32 sd o => Sys2Proof.Machine.execVmaxF32 sd o s
  | .vabsF32 sd o => Sys2Proof.Machine.execVabsF32 sd o s
  | .vnegF32 sd o => Sys2Proof.Machine.execVnegF32 sd o s
  | .vcmpeqF32 sd o => Sys2Proof.Machine.execVcmpeqF32 sd o s
  | .vcmpltF32 sd o => Sys2Proof.Machine.execVcmpltF32 sd o s
  | .vcmpleF32 sd o => Sys2Proof.Machine.execVcmpleF32 sd o s
  | .vcmpunF32 sd o => Sys2Proof.Machine.execVcmpunF32 sd o s
  | .vsel sd o => Sys2Proof.Machine.execVsel sd o s
  | .vclassF32 sd o => Sys2Proof.Machine.execVclassF32 sd o s
  | .vrecipF32 sd o => Sys2Proof.Machine.execVrecipF32 sd o s
  | .vrsqrtF32 sd o => Sys2Proof.Machine.execVrsqrtF32 sd o s
  | .vsqrtF32 sd o => Sys2Proof.Machine.execVsqrtF32 sd o s
  | .vexp2F32 sd o => Sys2Proof.Machine.execVexp2F32 sd o s
  | .vlog2F32 sd o => Sys2Proof.Machine.execVlog2F32 sd o s
  | .vsinpiF32 sd o => Sys2Proof.Machine.execVsinpiF32 sd o s
  | .vcospiF32 sd o => Sys2Proof.Machine.execVcospiF32 sd o s
  | .vrecipBf16 sd o => Sys2Proof.Machine.execVrecipBf16 sd o s
  | .vrsqrtBf16 sd o => Sys2Proof.Machine.execVrsqrtBf16 sd o s
  | .vsqrtBf16 sd o => Sys2Proof.Machine.execVsqrtBf16 sd o s
  | .vexp2Bf16 sd o => Sys2Proof.Machine.execVexp2Bf16 sd o s
  | .vlog2Bf16 sd o => Sys2Proof.Machine.execVlog2Bf16 sd o s
  | .vsinpiBf16 sd o => Sys2Proof.Machine.execVsinpiBf16 sd o s
  | .vcospiBf16 sd o => Sys2Proof.Machine.execVcospiBf16 sd o s
  | .vaddBf16 sd o => Sys2Proof.Machine.execVaddBf16 sd o s
  | .vsubBf16 sd o => Sys2Proof.Machine.execVsubBf16 sd o s
  | .vmulBf16 sd o => Sys2Proof.Machine.execVmulBf16 sd o s
  | .vfmaBf16 sd o => Sys2Proof.Machine.execVfmaBf16 sd o s
  | .vminBf16 sd o => Sys2Proof.Machine.execVminBf16 sd o s
  | .vmaxBf16 sd o => Sys2Proof.Machine.execVmaxBf16 sd o s
  | .vcmpeqBf16 sd o => Sys2Proof.Machine.execVcmpeqBf16 sd o s
  | .vcmpltBf16 sd o => Sys2Proof.Machine.execVcmpltBf16 sd o s
  | .vaddF16 sd o => Sys2Proof.Machine.execVaddF16 sd o s
  | .vsubF16 sd o => Sys2Proof.Machine.execVsubF16 sd o s
  | .vmulF16 sd o => Sys2Proof.Machine.execVmulF16 sd o s
  | .vfmaF16 sd o => Sys2Proof.Machine.execVfmaF16 sd o s
  | .vaddI32 sd o => Sys2Proof.Machine.execVaddI32 sd o s
  | .vsubI32 sd o => Sys2Proof.Machine.execVsubI32 sd o s
  | .vmulI32 sd o => Sys2Proof.Machine.execVmulI32 sd o s
  | .vmulhI32 sd o => Sys2Proof.Machine.execVmulhI32 sd o s
  | .vaddsI32 sd o => Sys2Proof.Machine.execVaddsI32 sd o s
  | .vsubsI32 sd o => Sys2Proof.Machine.execVsubsI32 sd o s
  | .vminI32 sd o => Sys2Proof.Machine.execVminI32 sd o s
  | .vmaxI32 sd o => Sys2Proof.Machine.execVmaxI32 sd o s
  | .vminN32 sd o => Sys2Proof.Machine.execVminN32 sd o s
  | .vmaxN32 sd o => Sys2Proof.Machine.execVmaxN32 sd o s
  | .vand sd o => Sys2Proof.Machine.execVand sd o s
  | .vor sd o => Sys2Proof.Machine.execVor sd o s
  | .vxor sd o => Sys2Proof.Machine.execVxor sd o s
  | .vshl sd o => Sys2Proof.Machine.execVshl sd o s
  | .vshr sd o => Sys2Proof.Machine.execVshr sd o s
  | .vsra sd o => Sys2Proof.Machine.execVsra sd o s
  | .vcmpeqI32 sd o => Sys2Proof.Machine.execVcmpeqI32 sd o s
  | .vcmpltI32 sd o => Sys2Proof.Machine.execVcmpltI32 sd o s
  | .vcmpltN32 sd o => Sys2Proof.Machine.execVcmpltN32 sd o s
  | .vcvtF32I32 sd o => Sys2Proof.Machine.execVcvtF32I32 sd o s
  | .vcvtI32F32 sd o => Sys2Proof.Machine.execVcvtI32F32 sd o s
  | .vcvtF32Bf16 sd o => Sys2Proof.Machine.execVcvtF32Bf16 sd o s
  | .vcvtBf16F32 sd o => Sys2Proof.Machine.execVcvtBf16F32 sd o s
  | .vcvtF32F16 sd o => Sys2Proof.Machine.execVcvtF32F16 sd o s
  | .vcvtF16F32 sd o => Sys2Proof.Machine.execVcvtF16F32 sd o s
  | .vcvtF32E4m3 sd o => Sys2Proof.Machine.execVcvtF32E4m3 sd o s
  | .vcvtE4m3F32 sd o => Sys2Proof.Machine.execVcvtE4m3F32 sd o s
  | .vcvtF32E5m2 sd o => Sys2Proof.Machine.execVcvtF32E5m2 sd o s
  | .vcvtE5m2F32 sd o => Sys2Proof.Machine.execVcvtE5m2F32 sd o s
  | .vquantQ4 sd o => Sys2Proof.Machine.execVquantQ4 sd o s
  | .vdequantQ4 sd o => Sys2Proof.Machine.execVdequantQ4 sd o s
  | .vquantQ8 sd o => Sys2Proof.Machine.execVquantQ8 sd o s
  | .vperm sd o => Sys2Proof.Machine.execVperm sd o s
  | .vrotl sd o => Sys2Proof.Machine.execVrotl sd o s
  | .vbcast sd o => Sys2Proof.Machine.execVbcast sd o s
  | .vzip sd o => Sys2Proof.Machine.execVzip sd o s
  | .vunzip sd o => Sys2Proof.Machine.execVunzip sd o s
  | .vredsumF32 sd o => Sys2Proof.Machine.execVredsumF32 sd o s
  | .vredmaxF32 sd o => Sys2Proof.Machine.execVredmaxF32 sd o s
  | .vredminF32 sd o => Sys2Proof.Machine.execVredminF32 sd o s
  | .vredsumI32 sd o => Sys2Proof.Machine.execVredsumI32 sd o s
  | .vmand sd o => Sys2Proof.Machine.execVmand sd o s
  | .vmor sd o => Sys2Proof.Machine.execVmor sd o s
  | .vmxor sd o => Sys2Proof.Machine.execVmxor sd o s
  | .vmnot sd o => Sys2Proof.Machine.execVmnot sd o s
  | .vrng sd o => Sys2Proof.Machine.execVrng sd o s
  | .vrngset sd o => Sys2Proof.Machine.execVrngset sd o s
  | .vxfer sd o => Sys2Proof.Machine.execVxfer sd o s
  | .vldF32 sd o => Sys2Proof.Machine.execVldF32 sd o s
  | .vldI32 sd o => Sys2Proof.Machine.execVldI32 sd o s
  | .vldBf16 sd o => Sys2Proof.Machine.execVldBf16 sd o s
  | .vldF16 sd o => Sys2Proof.Machine.execVldF16 sd o s
  | .vstF32 sd o => Sys2Proof.Machine.execVstF32 sd o s
  | .vstI32 sd o => Sys2Proof.Machine.execVstI32 sd o s
  | .vstBf16 sd o => Sys2Proof.Machine.execVstBf16 sd o s
  | .vstF16 sd o => Sys2Proof.Machine.execVstF16 sd o s
  | .vpmulP16 sd o => Sys2Proof.Machine.execVpmulP16 sd o s
  | .vpmulP8 sd o => Sys2Proof.Machine.execVpmulP8 sd o s
  | .vpcmpP16 sd o => Sys2Proof.Machine.execVpcmpP16 sd o s
  | .vpscP16 sd o => Sys2Proof.Machine.execVpscP16 sd o s
  | .vpsumP16 sd o => Sys2Proof.Machine.execVpsumP16 sd o s
  | .vpresP16 sd o => Sys2Proof.Machine.execVpresP16 sd o s
  | .vplenP16 sd o => Sys2Proof.Machine.execVplenP16 sd o s
  | .vpcvtP8 sd o => Sys2Proof.Machine.execVpcvtP8 sd o s
  | .mpush o => Sys2Proof.Machine.execMpush o s
  | .mshift o => Sys2Proof.Machine.execMshift o s
  | .macc o => Sys2Proof.Machine.execMacc o s
  | .maccp o => Sys2Proof.Machine.execMaccp o s
  | .mdrain o => Sys2Proof.Machine.execMdrain o s
  | .manch o => Sys2Proof.Machine.execManch o s
  | .mzero o => Sys2Proof.Machine.execMzero o s
  | .mrow o => Sys2Proof.Machine.execMrow o s
  | .mexact o => Sys2Proof.Machine.execMexact o s
  | .mdrainv o => Sys2Proof.Machine.execMdrainv o s
  | .copy1d sd o => Sys2Proof.Machine.execCopy1d sd o s
  | .copy2d sd o => Sys2Proof.Machine.execCopy2d sd o s
  | .copy3d sd o => Sys2Proof.Machine.execCopy3d sd o s
  | .gather sd o => Sys2Proof.Machine.execGather sd o s
  | .scatter sd o => Sys2Proof.Machine.execScatter sd o s
  | .mcast sd o => Sys2Proof.Machine.execMcast sd o s
  | .send sd o => Sys2Proof.Machine.execSend sd o s
  | .recv sd o => Sys2Proof.Machine.execRecv sd o s
  | .bankWadd sd o => Sys2Proof.Machine.execBankWadd sd o s
  | .bankAdd sd o => Sys2Proof.Machine.execBankAdd sd o s
  | .bankMax sd o => Sys2Proof.Machine.execBankMax sd o s
  | .bankMin sd o => Sys2Proof.Machine.execBankMin sd o s
  | .barArrive sd o => Sys2Proof.Machine.execBarArrive sd o s
  | .barWait sd o => Sys2Proof.Machine.execBarWait sd o s
  | .sfence sd o => Sys2Proof.Machine.execSfence sd o s
  | .srst sd o => Sys2Proof.Machine.execSrst sd o s
  | .copy1dCs sd o => Sys2Proof.Machine.execCopy1dCs sd o s
  | .copy2dCs sd o => Sys2Proof.Machine.execCopy2dCs sd o s
  | .copy3dCs sd o => Sys2Proof.Machine.execCopy3dCs sd o s
  | .gatherCs sd o => Sys2Proof.Machine.execGatherCs sd o s
  | .scatterCs sd o => Sys2Proof.Machine.execScatterCs sd o s
  | .st32 sd o => Sys2Proof.Machine.execSt32 sd o s
  | .st64 sd o => Sys2Proof.Machine.execSt64 sd o s
  | .ld64 sd o => Sys2Proof.Machine.execLd64 sd o s
  | .atomAdd sd o => Sys2Proof.Machine.execAtomAdd sd o s
  | .atomAnd sd o => Sys2Proof.Machine.execAtomAnd sd o s
  | .atomOr sd o => Sys2Proof.Machine.execAtomOr sd o s
  | .atomXor sd o => Sys2Proof.Machine.execAtomXor sd o s
  | .atomMax sd o => Sys2Proof.Machine.execAtomMax sd o s
  | .atomMin sd o => Sys2Proof.Machine.execAtomMin sd o s
  | .atomSwap sd o => Sys2Proof.Machine.execAtomSwap sd o s
  | .atomCas sd o => Sys2Proof.Machine.execAtomCas sd o s
  | .msaCas4 sd o => Sys2Proof.Machine.execMsaCas4 sd o s
  | .msaEnq sd o => Sys2Proof.Machine.execMsaEnq sd o s
  | .msaDeq sd o => Sys2Proof.Machine.execMsaDeq sd o s
  | .msaChase sd o => Sys2Proof.Machine.execMsaChase sd o s
  | .scLd64 sd o => Sys2Proof.Machine.execScLd64 sd o s
  | .scSt64 sd o => Sys2Proof.Machine.execScSt64 sd o s
  | .scSwap sd o => Sys2Proof.Machine.execScSwap sd o s
  | .scAdd sd o => Sys2Proof.Machine.execScAdd sd o s
  | .transferComplete c ch t => Sys2Proof.Machine.execTransferComplete c ch t s
  | .releaseWriteSend c ch tid => Sys2Proof.Machine.execReleaseWriteSend c ch tid s
  | .sendArrival cl => Sys2Proof.Machine.execSendArrival cl s
  | .mcastLanding cl => Sys2Proof.Machine.execMcastLanding cl s
  | .barrierArrivalSend c bar => Sys2Proof.Machine.execBarrierArrivalSend c bar s
  | .barrierRootArrival bar => Sys2Proof.Machine.execBarrierRootArrival bar s
  | .barrierFlipReach bar cl => Sys2Proof.Machine.execBarrierFlipReach bar cl s
  | .scPerform c ch tid => Sys2Proof.Machine.execScPerform c ch tid s
  | .streamPacketArrive p => Sys2Proof.Machine.execStreamPacketArrive p s
  | .stream0PacketArrive p => Sys2Proof.Machine.execStream0PacketArrive p s
  | .ackReceive a => Sys2Proof.Machine.execAckReceive a s
  | .packetResendTimeout k => Sys2Proof.Machine.execPacketResendTimeout k s
  | .planeFail plane => Sys2Proof.Machine.execPlaneFail plane s
  | .streamResync c ch tid => Sys2Proof.Machine.execStreamResync c ch tid s
  | .resyncReceive r => Sys2Proof.Machine.execResyncReceive r s
  | .pairRekey peer plane => Sys2Proof.Machine.execPairRekey peer plane s
  | .replicaWriteApply die => Sys2Proof.Machine.execReplicaWriteApply die s
  | .replicaReadServe c ch tid => Sys2Proof.Machine.execReplicaReadServe c ch tid s
  | .migrationCutover page => Sys2Proof.Machine.execMigrationCutover page s
  | .pageWalkDone region va => Sys2Proof.Machine.execPageWalkDone region va s
  | .twMatmul t => Sys2Proof.Machine.execTwMatmul t s
  | .twMatmulp t => Sys2Proof.Machine.execTwMatmulp t s
  | .twUnary t => Sys2Proof.Machine.execTwUnary t s
  | .twBinary t => Sys2Proof.Machine.execTwBinary t s
  | .twReduce t => Sys2Proof.Machine.execTwReduce t s
  | .twTranspose t => Sys2Proof.Machine.execTwTranspose t s
  | .twGather t => Sys2Proof.Machine.execTwGather t s
  | .twScatteradd t => Sys2Proof.Machine.execTwScatteradd t s
  | .twAllreduce t => Sys2Proof.Machine.execTwAllreduce t s
  | .twPhreduce t => Sys2Proof.Machine.execTwPhreduce t s
  | .twCall t => Sys2Proof.Machine.execTwCall t s
  | .twBarrier t => Sys2Proof.Machine.execTwBarrier t s
  | .twSfence t => Sys2Proof.Machine.execTwSfence t s
  | .twCopy t => Sys2Proof.Machine.execTwCopy t s
  | .twFill t => Sys2Proof.Machine.execTwFill t s
  | .twQuant t => Sys2Proof.Machine.execTwQuant t s
  | .twDequant t => Sys2Proof.Machine.execTwDequant t s
  | .twConvert t => Sys2Proof.Machine.execTwConvert t s
  | .twRng t => Sys2Proof.Machine.execTwRng t s
  | .twWadd t => Sys2Proof.Machine.execTwWadd t s
  | .twDrain t => Sys2Proof.Machine.execTwDrain t s
  | .twSignal t => Sys2Proof.Machine.execTwSignal t s
  | .twWait t => Sys2Proof.Machine.execTwWait t s
  | .twNop t => Sys2Proof.Machine.execTwNop t s
  | .twForwardBand op t => Sys2Proof.Machine.execTwForwardBand op t s
  | .tileStageDone e => Sys2Proof.Machine.execTileStageDone e s
  | .tileChildIssue e => Sys2Proof.Machine.execTileChildIssue e s
  | .tileChildComplete e k => Sys2Proof.Machine.execTileChildComplete e k s
  | .tileChildFault e k => Sys2Proof.Machine.execTileChildFault e k s
  | .tileJoinDone e => Sys2Proof.Machine.execTileJoinDone e s
  | .tileCommit e => Sys2Proof.Machine.execTileCommit e s
  | .kernelStart e c => Sys2Proof.Machine.execKernelStart e c s
  | .promotion core => Sys2Proof.Machine.execPromotion core s
  | .starvationMark core => Sys2Proof.Machine.execStarvationMark core s
  | .yieldEligible c => Sys2Proof.Machine.execYieldEligible c s
  | .preemption c => Sys2Proof.Machine.execPreemption c s
  | .progressTimeout region => Sys2Proof.Machine.execProgressTimeout region s
  | .escAnswer c ans => Sys2Proof.Machine.execEscAnswer c ans s
  | .ctxRequestDecided c => Sys2Proof.Machine.execCtxRequestDecided c s
  | .contextSave c => Sys2Proof.Machine.execContextSave c s
  | .unitDepartureDone cl fails => Sys2Proof.Machine.execUnitDepartureDone cl fails s
  | .saveFailed cl => Sys2Proof.Machine.execSaveFailed cl s
  | .contextRestore c region image => Sys2Proof.Machine.execContextRestore c region image s
  | .pullLand c unit => Sys2Proof.Machine.execPullLand c unit s
  | .restoreUnreachable c unit => Sys2Proof.Machine.execRestoreUnreachable c unit s
  | .directoryReread c unit => Sys2Proof.Machine.execDirectoryReread c unit s
  | .stopLanding c => Sys2Proof.Machine.execStopLanding c s
  | .debuggerStopRequest c code => Sys2Proof.Machine.execDebuggerStopRequest c code s
  | .watchChannelMatch c ch tid => Sys2Proof.Machine.execWatchChannelMatch c ch tid s
  | .samplePoint cl => Sys2Proof.Machine.execSamplePoint cl s
  | .segmentRollover cl => Sys2Proof.Machine.execSegmentRollover cl s
  | .traceDrain cl => Sys2Proof.Machine.execTraceDrain cl s
  | .ringEnable k => Sys2Proof.Machine.execRingEnable k s
  | .ringRestart k => Sys2Proof.Machine.execRingRestart k s
  | .registerWrite k bytes => Sys2Proof.Machine.execRegisterWrite k bytes s
  | .ringPacketTake k => Sys2Proof.Machine.execRingPacketTake k s
  | .submit c => Sys2Proof.Machine.execSubmit c s
  | .regionInstall c => Sys2Proof.Machine.execRegionInstall c s
  | .regionRemove c => Sys2Proof.Machine.execRegionRemove c s
  | .kernelRegister c => Sys2Proof.Machine.execKernelRegister c s
  | .map c => Sys2Proof.Machine.execMap c s
  | .unmap c => Sys2Proof.Machine.execUnmap c s
  | .traceSet c => Sys2Proof.Machine.execTraceSet c s
  | .dumpSet c => Sys2Proof.Machine.execDumpSet c s
  | .exportSet c => Sys2Proof.Machine.execExportSet c s
  | .savePool c => Sys2Proof.Machine.execSavePool c s
  | .mailboxMessage src dst m => Sys2Proof.Machine.execMailboxMessage src dst m s
  | .getVersion => Sys2Proof.Machine.execGetVersion s
  | .getCapabilities flags => Sys2Proof.Machine.execGetCapabilities flags s
  | .negotiateAlgorithms shake slh => Sys2Proof.Machine.execNegotiateAlgorithms shake slh s
  | .getDigests => Sys2Proof.Machine.execGetDigests s
  | .getCertificate cslot off len => Sys2Proof.Machine.execGetCertificate cslot off len s
  | .challenge cslot nonce => Sys2Proof.Machine.execChallenge cslot nonce s
  | .getMeasurements idx sign nonce => Sys2Proof.Machine.execGetMeasurements idx sign nonce s
  | .keyExchange share nonce => Sys2Proof.Machine.execKeyExchange share nonce s
  | .finish mac => Sys2Proof.Machine.execFinish mac s
  | .endSession => Sys2Proof.Machine.execEndSession s
  | .unsupportedRequest code => Sys2Proof.Machine.execUnsupportedRequest code s
  | .firmwareImageWrite image sig version => Sys2Proof.Machine.execFirmwareImageWrite image sig version s
  | .functionSwitch f => Sys2Proof.Machine.execFunctionSwitch f s
  | .firmwareRemeasure f digest => Sys2Proof.Machine.execFirmwareRemeasure f digest s
  | .packageColdReset => Sys2Proof.Machine.execPackageColdReset s
  | .packageWarmReset => Sys2Proof.Machine.execPackageWarmReset s
  | .hostDieReset => Sys2Proof.Machine.execHostDieReset s
  | .computeDieReset die => Sys2Proof.Machine.execComputeDieReset die s
  | .clusterClear cl => Sys2Proof.Machine.execClusterClear cl s
  | .coreReset core => Sys2Proof.Machine.execCoreReset core s
  | .engineReset e => Sys2Proof.Machine.execEngineReset e s
  | .firmwareCoreReset f => Sys2Proof.Machine.execFirmwareCoreReset f s
  | .tamperEvent k => Sys2Proof.Machine.execTamperEvent k s
  | .clockRatioChange cl n => Sys2Proof.Machine.execClockRatioChange cl n s
  | .thermalShutdown => Sys2Proof.Machine.execThermalShutdown s
  | .telemetryPeriodic ty => Sys2Proof.Machine.execTelemetryPeriodic ty s
  | .peerWithdraw region p => Sys2Proof.Machine.execPeerWithdraw region p s
  | .debuggerAttach region on => Sys2Proof.Machine.execDebuggerAttach region on s
  | .pageMigrationStart region va die => Sys2Proof.Machine.execPageMigrationStart region va die s
  | .pageReplication region va dies => Sys2Proof.Machine.execPageReplication region va dies s
  | .telemetryRequest ty => Sys2Proof.Machine.execTelemetryRequest ty s

end Sys2Proof.Machine
end

