-- ==== Sys2Proof/Machine/Cycle.lean ====
section
/-! DEFINITION. The order in which the machine takes the steps of its own: what is due in a cycle, one step for each, and the passage to the next
cycle (01 R14, R20-R24; log entry 4). Every step is that of an instruction of the same name. -/

namespace Sys2Proof.Machine

/-! ### Clocks (01 R14, 18 R339) -/

/-- Whether a cluster's clock has a cycle in the present period: `n` of 19 periods have one at ratio `n`. -/
def activeNow (s : State) (k : Cluster) : Bool := k.started && decide (s.now * k.ratio.toNat / 19 < (s.now + 1) * k.ratio.toNat / 19)
/-- Clusters that have a cycle now. -/
def activeClusters (s : State) : List Nat := (List.range 32).filter fun k => activeNow s (getCl s k)

/-! ### What is due in a cycle -/

/-- Arrivals and flips of some barriers (10 R231). -/
def barDues (level place : Nat) (bars : Tab BarRoot) : List Due :=
  bars.flatMap fun p =>
    let b : BarRef := ⟨⟨.ofNat 2 level, .ofNat 4 p.1⟩, .ofNat 5 place⟩
    (if p.2.inFlight.isEmpty then [] else [Due.barArr b]) ++ (if p.2.flips.isEmpty then [] else [Due.barFlip b (.ofNat 5 place)]) ++
      p.2.pend.map fun c => Due.barFlip b (.ofNat 5 c.1)
/-- Rows of a context that are to issue: of V slots, or of copy channels. -/
def rowDues (s : State) (copy : Bool) (c : CtxId) : List Due :=
  ((getCtx s c).run.rows.filter fun j => decide (6 ≤ j.slot) == copy).map fun j => Due.row c (.ofNat 3 j.slot)
/-- Whether a context has something to issue, a hold to end, or rows whose waits brake its cluster. -/
def issueDue (s : State) (c : CtxId) : List Due :=
  let x := getCtx s c
  if x.run.hold.isSome || mayIssue x || !x.run.rows.isEmpty || x.run.rowPort.isSome then [.issue c] else []
/-- Barrier arrivals of a context that can be sent (10 R231). -/
def arrivalDues (s : State) (c : CtxId) : List Due :=
  let x := getCtx s c
  (x.prog.leaves.filter fun l => !l.sent && !l.flipped && arrivalReady x l).map fun l => Due.barSend c l.id
/-- A kernel that has started, or an image that has been loaded, waits for its slot's first cycle (12 R247, 13 R284). -/
def loadDues (s : State) (c : CtxId) : List Due :=
  let x := getCtx s c
  if x.run.state = .loading ∨ x.prog.builtin then (match x.prog.entry with
    | some e => if x.prog.image = 0 then [.kstart e c] else []
    | none => []) else []
/-- Marks of starvation and yield that are due (12 R250, R260). -/
def markDues (s : State) (c : CtxId) : List Due :=
  let x := getCtx s c
  (if !(isPrim s c) && !x.prog.starved && decide (256 * forCtx effStarve s x ≤ x.prog.starve) then [Due.starve c.core] else []) ++
    (if !x.prog.eligible && decide (forCtx effYield s x ≤ x.prog.spin) then [Due.yield_ c] else [])
/-- The steps of one cycle of a cluster: roles, barriers, landings, the brake, the primaries, the secondaries, marks, samples. -/
def clusterDues (s : State) (cl : Nat) : List Due :=
  let k := getCl s cl
  let id : ClId := .ofNat 5 cl
  let here := (ctxsOf s cl).filter fun c => (getCtx s c).run.state != .empty
  let prims := here.filter (isPrim s)
  let secs := here.filter fun c => !(isPrim s c)
  ((List.range 8).filter fun i => (getCore s (8 * cl + i)).vacant).map (fun i => Due.promote (.ofNat 8 (8 * cl + i))) ++
    here.flatMap (loadDues s) ++ (here.filter fun c => !(getCtx s c).run.sb.isEmpty).map Due.land ++ barDues 1 cl k.bars ++
    (if k.net.isEmpty then [] else [.sendArr id]) ++ (if k.win.isEmpty then [] else [.mcastLand id]) ++
    (if k.brake.isNone then [] else [.release id, .watchdog id]) ++
    prims.flatMap (issueDue s) ++ prims.flatMap (rowDues s false) ++ prims.flatMap (rowDues s true) ++
    secs.flatMap (issueDue s) ++ secs.flatMap (rowDues s false) ++ secs.flatMap (rowDues s true) ++
    here.flatMap (arrivalDues s) ++ here.flatMap (markDues s) ++
    (if here.any fun c => sampleAt s cl (getCtx s c).prog.region then [.sample id] else []) ++
    (if 2 ^ 31 ≤ trDelta s cl then [.segment id] else [])

/-- Transfers of a context with their channels. -/
def xfersOf (s : State) (c : CtxId) : List (Side × Xfer) :=
  let x := getCtx s c
  (x.con.c0.xfers.map fun t => (Side.a, t)) ++ x.con.c1.xfers.map fun t => (Side.b, t)
/-- SC operations on their way, by key (09 R187). -/
def scDues (s : State) (cs : List CtxId) : List Due :=
  let l := (cs.flatMap fun c => (xfersOf s c).filterMap fun p => match p.2.phase with
    | .timed a => some (2 * a + (if p.1 = .b then 1 else 0), Due.scDo c p.1 p.2.tid)
    | _ => none)
  (sortBy (fun a b => decide (a.1 ≤ b.1)) l).map (·.2)
/-- The steps by which a context's transfers go on (10 R206, 09 R179, 10 R235). -/
def transferDues (s : State) (c : CtxId) : List Due :=
  (xfersOf s c).flatMap fun p => match p.2.phase with
    | .timed _ => []
    | .atBarrier => []
    | .fenced => if (cView p.2.op).kind = .fence then [Due.complete c p.1 p.2.tid] else [Due.resync c p.1 p.2.tid]
    | _ => Due.complete c p.1 p.2.tid :: (if releases p.2.op then [Due.relSend c p.1 p.2.tid] else [])
/-- What a cluster's sack hoist does next, in the order of 16 R322: a demand pull, a departure, a pull asked for, a prefetch. -/
def hoistDues (s : State) (cl : Nat) : List Due :=
  let k := getCl s cl
  let asked := k.hoist.filter fun j => j.kind == 0 && j.pendSince.isNone
  let pull (j : HoistJob) : Due := .pull j.ctx (.ofNat 10 j.unit)
  let demand := sortBy (fun a b => decide (a.demand.getD 0 ≤ b.demand.getD 0)) (asked.filter fun j => j.demand.isSome)
  let again := (k.hoist.filter fun j => j.kind == 2 || (j.kind == 0 && j.pendSince.isSome)).map fun j => Due.reread j.ctx (.ofNat 10 j.unit)
  let cs := ctxsOf s cl
  let ahead := ((cs.filter (isPrim s)) ++ cs.filter fun c => !(isPrim s c)).findSome? fun c =>
    let x := getCtx s c
    if x.prog.absent.isEmpty then none else ((recencyList x).find? fun u => isAbsent x u && (pullJob s c u).isNone).map fun u => Due.pull c (.ofNat 10 u)
  again ++ (demand.take 1).map pull ++ (if (nextWrite s cl).isSome then [.depart (.ofNat 5 cl)] else []) ++
    (if k.hoist.any fun j => j.kind == 2 then [.saveFail (.ofNat 5 cl)] else []) ++ ((asked.filter fun j => j.demand.isNone).take 1).map pull ++ ahead.toList
/-- A cluster that no region of its tenant may use any more is cleared (15 R299). -/
def staleTenant (s : State) (cl : Nat) : Bool :=
  let k := getCl s cl
  k.tenant != 0 && k.clearing == 0 && !(s.regions.any fun r => r.id != 0 && effTenant s r.id == k.tenant.toNat && bitAt (effClusters s r.id) cl)
/-- Requests of a monitor, saves and restores of a context that are under way. -/
def saveDues (s : State) (c : CtxId) : List Due :=
  let x := getCtx s c
  (if x.mon.ctxReq.isSome then [Due.ctxReq c] else []) ++ (if x.run.state = .saving then [.save c] else []) ++ (if x.run.state = .loading && x.prog.image != 0 then [.restore c] else [])
/-- The steps of a tile sequencer's entry: a core-level word that waits for a start tries the primary slot, then the secondary (12 R248). -/
def entryDues (s : State) (p : EntryId × Entry) : List Due :=
  if p.1.level = 0 ∧ p.2.state = .stage then
    let c := primOf s p.1.place.toNat
    [.kstart p.1 c, .kstart p.1 (otherSlot c)]
  else [.tile p.1]
/-- Entries of the tile sequencers, regions of higher priority first, those of one priority in turn after the region that was served last (12 R246). -/
def entriesByPrio (s : State) : List (EntryId × Entry) :=
  let key := fun (p : EntryId × Entry) => (7 - effPrio s p.1.region) * 2 ^ 32 + (p.1.region - s.turn - 1).toNat
  sortBy (fun a b => decide (key a ≤ key b)) s.seqs
/-- What goes at its own pace: it is taken as soon as it can be (log entry 4). -/
def paceDues (s : State) (cs : List CtxId) : List Due :=
  cs.flatMap (transferDues s) ++
    (List.range 9).flatMap (fun d => barDues (if d = 8 then 3 else 2) (if d = 8 then 0 else d) (getDie s d).bars) ++
    s.repWrites.map (fun w => Due.replica (.ofNat 4 w.dst)) ++ cs.flatMap (saveDues s) ++
    (s.clusters.map (·.1)).flatMap (fun cl => hoistDues s cl ++ (if staleTenant s cl then [Due.clear (.ofNat 5 cl)] else []) ++
      (getCl s cl).trace.map fun _ => Due.drain (.ofNat 5 cl)) ++
    (entriesByPrio s).flatMap (entryDues s) ++ (s.fw.rings.filter fun p => p.2.enable && !p.2.stopped).map fun p => Due.ring (.ofNat 6 p.1)
/-- Packets whose timers have run out (09 R184) and regions whose progress timers have (12 R263). -/
def timerDues (s : State) : List Due :=
  (s.fabric.held.filter fun h => decide (h.expires ≤ tick s)).map (fun h => Due.resend h.key) ++
    (s.regions.filter fun r => r.id != 0 && decide (1024 * effTimeout s r.id ≤ r.timer)).map fun r => Due.timeout r.id
/-- Everything due in the present cycle, in order. -/
def duesOf (s : State) : List Due :=
  let cs := residents s fun _ _ => true
  (activeClusters s).flatMap (clusterDues s) ++ scDues s cs ++ timerDues s ++ (if s.auto then paceDues s cs else []) ++
    ((activeClusters s).filter fun cl => (getCl s cl).brake.isSome).map fun cl => Due.letIn (.ofNat 5 cl)

/-! ### One step -/

/-- The fields of a tile word at an entry. -/
def tileInOf (e : EntryId) (w : BitVec 128) : TileIn :=
  { e := e, level := w.extractLsb' 116 4, fmt := w.extractLsb' 112 4, acq := w.extractLsb' 109 3, rel := w.extractLsb' 106 3, stream := w.extractLsb' 102 4
    replay := w.extractLsb' 101 1, sd := w.extractLsb' 100 1, rsv := w.extractLsb' 96 4, shape := w.extractLsb' 64 32, desc := w.extractLsb' 0 64 }
/-- The next step of a tile sequencer's entry (12 R245). -/
def tileStep (s : State) (e : EntryId) : State :=
  let x := getEntry s e
  let w := wordOfEntry x
  let own := e.level == 3 && classD (twOp w)
  match x.state with
  | .free => s
  | .check => tileWord (twOp w) (tileInOf e w) s
  | .stage => if own then tileWord (twOp w) (tileInOf e w) s else stageDone s e
  | .issue => childIssue s e
  | .wait =>
    if own then tileWord (twOp w) (tileInOf e w) s
    else match x.doom with
    | some (c, d) => faultEntry s e c d []
    | none =>
      match (List.range x.children.length).find? fun k => (childEntry s e k).any fun i => (getEntry s i).state == .fault with
      | some k => childFault s e k
      | none => if x.children.any fun c => !c.issued then childIssue s e else childComplete s e 0
  | .join => joinDone s e
  | .commit => tileCommit s e
  | .fault => tileCommit s e
/-- The step of what is due. -/
def runDue (s : State) (d : Due) : State :=
  match d with
  | .land c => landResults s c
  | .sendArr cl => sendArrival s cl.toNat
  | .mcastLand cl => mcastLanding s cl.toNat
  | .barArr b => rootArrival s b
  | .barFlip b cl => flipReach s b cl.toNat
  | .barSend c id => sendArrivalOf s c id
  | .scDo c ch t => scStep s c ch t
  | .complete c ch t => transferStep s c ch t
  | .relSend c ch t => releaseStep s c ch t
  | .resync c ch t => streamResync s c ch t
  | .resend k => resendTimeout s k
  | .promote k => promotion s k.toNat
  | .starve k => starvationMark s k.toNat
  | .yield_ c => yieldEligible s c
  | .timeout r => progressTimeout s r
  | .release cl => brakeRelease s cl.toNat
  | .watchdog cl => brakeTimeout s cl.toNat
  | .row c slot => formRow s c slot
  | .issue c => let t := bundleIssue s c; { t with todo := arrivalDues t c ++ t.todo }
  | .sample cl => samplePoint s cl.toNat
  | .segment cl => segRollover s cl.toNat
  | .drain cl => drainTrace s cl.toNat
  | .ctxReq c => ctxDecided s c
  | .save c => contextSave s c
  | .depart cl => departureDone s cl.toNat false
  | .pull c u => pullLand s c u.toNat
  | .reread c u => directoryReread s c u.toNat
  | .replica d => applyReplica s d.toNat
  | .tile e => tileStep s e
  | .kstart e c => kernelStart s e c
  | .ring k => ringTake s k.toNat
  | .letIn cl => boundaryAdmit s cl.toNat
  | .clear cl => clusterClear s cl.toNat
  | .restore c => contextRestore s c (getCtx s c).prog.region (getCtx s c).prog.image
  | .saveFail cl => saveFailed s cl.toNat
/-- The step of a command that the command core has handed on (19 R357). -/
def runCommand (s : State) (op : Nat) (c : Cmd) : State :=
  match op with
  | 1 => submit s c
  | 2 => regionInstall s c
  | 3 => regionRemove s c
  | 4 => kernelRegister s c
  | 5 => mapCmd s c
  | 6 => unmapCmd s c
  | 7 => traceSet s c
  | 8 => dumpSet s c
  | 9 => exportSet s c
  | 10 => savePool s c
  | _ => s

/-! ### The next cycle -/

/-- The counters of a resident context at the end of a cycle: `braked` says that its cluster's brake is applied, `own` that its own time moves, `waits`
that it waits, `late` that its rows run on; `wall` is the cycle's number (12 R250, R260; 13 R286; log entry 30). -/
def endCtx (prim braked own waits late : Bool) (wall : Nat) (x : Ctx) : Ctx :=
  { x with
    prog := { x.prog with spin := x.prog.spin + b2n waits, starve := x.prog.starve + b2n (!prim && x.run.ready && x.run.state == .run && !waits) }
    run := { x.run with
      cyc := x.run.cyc + b2n (own && x.run.state != .saving && x.run.state != .loading), touch := [], issuedNow := 0, ready := false
      rowPort := x.run.rowPort.filter fun p => decide (wall < p.2.2)
      rows := if braked && late then x.run.rows.map fun j => if j.clustered then { j with early := j.early + 1 } else j else x.run.rows } }
/-- The end of a cluster's cycle: arrivals that nothing took are held, counters move, cluster time moves unless the brake is applied (01 R23). -/
def endCluster (s : State) (cl : Nat) : State :=
  let s := keepArrivals s cl
  let k := getCl s cl
  let braked := k.brake.isSome
  let s := (ctxsOf s cl).foldl (fun s c =>
    let x := getCtx s c
    if x.run.state = .empty then s
    else setCtx s c (endCtx (isPrim s c) braked (!braked || !(isPrim s c) || x.mon.active) (waitsNow s c) (x.run.state == .saving || waitsRows s c) k.wall x)) s
  let rw := k.brake.any (·.rwOnly)
  let s := modCl s cl fun k => { k with
    wall := k.wall + 1, ctime := if braked then k.ctime else k.ctime + 1, clearing := k.clearing - 1
    net := if rw then k.net.map fun r => { r with due := r.due - 1 } else k.net }
  if k.clearing = 1 then newSegment (modCl s cl fun k => { k with tenant := 0 }) cl 1 (getCl s cl).ratio else s
/-- A region's progress timer in one tick (12 R262). -/
def timerTick (s : State) (r : Region) : Region :=
  let cs := regionCtxs s r.id
  if cs.any fun c => !(waitsNow s c) then { r with timer := 0 }
  else if (!cs.isEmpty || !r.saved.isEmpty) && r.saved.all (·.waiter.isSome) then { r with timer := r.timer + 1 }
  else r
/-- What moves with the tick: progress timers, mailboxes. -/
def endTick (s : State) : State := { s with regions := s.regions.map (timerTick s), fw := takeMail s.fw }
/-- The machine goes on to the next period of 1.9 GHz, and finds what is due in it. -/
def nextCycle (s : State) : State :=
  let s := (activeClusters s).foldl endCluster s
  let s := if tick { s with now := s.now + 1 } = tick s then s else endTick s
  let s := { s with now := s.now + 1 }
  { s with todo := duesOf s }

/-! ### A word where the next step fetches it (log entry 1) -/

/-- The context that runs the word: every unit in its footprint, its first instruction page mapped, a bundle due in the next cycle. -/
def wordCtx : Ctx := { ctl := { imap := 1 }, run := { state := .run }, prog := { footprint := List.range 800 } }
/-- The bundle that holds a word of the opcode table alone, in the slot whose reading of it stands. -/
def wordBundle (nbits w : Nat) : List Byte :=
  let y := tableSyl nbits w
  let k := match y with
    | some y => y.slot.num
    | none => if nbits = 64 then 3 else 0
  let lend := match y with
    | some y => match lentRead wordCtx y with
      | some (.a, _) => 4
      | some (.b, _) => 1
      | none => 0
    | none => 0
  leBytes 4 (2 ^ (31 - k) + (255 - 2 ^ (7 - k)) * 2 ^ 16 + lend) ++ leBytes (nbits / 8) w
/-- Puts a word where the next step fetches it: a booted part, one context in core 0 that runs, its bundle at the pc. -/
def placeWord (s : State) (nbits w : Nat) : State :=
  { s with
    cid := ⟨0, false⟩, cx := wordCtx
    cores := tabSet s.cores 0 { map0 := [(0, 1)], imem := cellBlit [] 0 (wordBundle nbits w) }
    clusters := tabSet s.clusters 0 { wall := 1, ctime := 1, started := true }
    fw := { s.fw with boot := 7 }, oracle := [], commands := [], todo := [.issue ⟨0, false⟩] }

end Sys2Proof.Machine
end

