-- ==== Sys2Proof/Machine/Step.lean ====
section
/-! DEFINITION. One step of the machine: an outside or asynchronous step that is due, a step of the boot, a command, a step due in the present
cycle, or the passage to the next cycle (log entry 4). -/

namespace Sys2Proof.Machine

/-- The machine's own next step. -/
def ownStep (s : State) : State :=
  if 1 ≤ s.fw.boot ∧ s.fw.boot ≤ 6 then bootStep s
  else match s.commands with
    | p :: t => runCommand { s with commands := t } p.1 p.2
    | [] => match s.todo with
      | d :: t => runDue { s with todo := t } d
      | [] => nextCycle s

/-- One step: the first entry of the oracle once its time has come, else the machine's own. -/
def step (s : State) : Host.Outcome State Fault Refusal :=
  match s.oracle with
  | (t, i) :: l => if t ≤ s.now then exec i { s with oracle := l } else .next (ownStep s)
  | [] => .next (ownStep s)

/-- The state in which the next step fetches and issues a word of the opcode table (log entry 1). -/
def State.withFetchWord (s : State) (nbits w : Nat) : State := placeWord s nbits w

end Sys2Proof.Machine
end

