-- ==== Sys2Proof/Safety.lean ====
section
/-! DEFINITION. The terms in which claims speak: when the context that issues can issue a bundle of one syllable at once, what such a bundle sees and
leaves, what a step leaves as it was, and the canonical form of every memory. -/

namespace Sys2Proof.Machine

/-! ### A context that issues at once -/

/-- Nothing holds the issuing context: it runs code and no built-in kernel (13 R284), no result is pending, no row is to issue, no stop or trap waits, no transfer of it waits for a clock or for the
window of a stream (09 R177, R178, R181), its cluster's brake is not applied. -/
structure Quiet (s : State) : Prop where
  mode : s.cx.run.state = if s.cx.mon.active then .monitor else .run
  builtin : s.cx.prog.builtin = false
  board : s.cx.run.sb = []
  rows : s.cx.run.rows = []
  waiting : s.cx.run.waiting = false
  rowPort : s.cx.run.rowPort = none
  hold : s.cx.run.hold = none
  parked : s.cx.run.parkedOn = none
  port : s.cx.run.portUntil = none
  order : s.cx.run.itemUntil = 0
  banks : s.cx.run.touch = []
  slots : s.cx.run.issuedNow = 0
  dstop : s.cx.run.dstop = none
  watch : s.cx.run.watchStop = none
  timing : s.cx.run.timing = none
  brakeTrap : s.cx.run.brakeTrap = none
  post : s.cx.run.post = none
  first : s.cx.ctl.rptidx = 0
  unbraked : (getCl s (ctxCl s.cid)).brake = none
  prompt : ∀ ch, ∀ q ∈ (chanOf s.cx ch).xfers, lateXfer s s.cid ch q = false
/-- The issuing context is quiet and alone in its cluster: nothing is in the exchange network or a multicast window, every other slot is EMPTY. -/
structure Calm (s : State) : Prop extends Quiet s where
  net : (getCl s (ctxCl s.cid)).net = []
  win : (getCl s (ctxCl s.cid)).win = []
  alone : ∀ c : CtxId, ctxCl c = ctxCl s.cid → c ≠ s.cid → getCtx s c = {}

/-- Every unit is in the footprint of the issuing context and present (16 R317). -/
def AllPresent (s : State) : Prop := (∀ u, u < 800 → u ∈ s.cx.prog.footprint) ∧ s.cx.prog.absent = []

/-- The one slot of a bundle of one syllable, with the record it leaves. -/
def loneSlot (y : Syl) : Pick := { slot := y.slot.num, syl := y, record := if y.slot.num = 1 then none else some { word := .ofNat 64 (encodeSyl y), disp := 0 } }
/-- The issuing context as the slot sees it. -/
def loneView (s : State) (y : Syl) : Ctx := prepare s.cx (loneBun s.cx y) [loneSlot y]
/-- What the slot's issue sees. -/
def loneIss (s : State) (y : Syl) : Iss := issOf (loneView s y) s.cx.r.pc (loneBun s.cx y).len (loneSlot y)
/-- The state in which the slot's effect takes place. -/
def loneStart (s : State) (y : Syl) : State := { s with cx := loneView s y }
/-- The bundle passes the checks at decode of 03 R44. -/
def PassesChecks (s : State) (y : Syl) : Prop :=
  slots8.forM (slotCheck (loneView s y) (loneBun s.cx y) ((List.range 16).map (cycleReads s (doSwaps s.cx [loneSlot y]) [loneSlot y])) [lonePick y]) = .ok ()
/-- The state after the commit, where the slot's effect leaves `t`. -/
def loneCommit (s : State) (y : Syl) (t : State) : State :=
  commit s (loneView s y) (loneBun s.cx y) (usedMask (loneBun s.cx y) [lonePick y]) [loneSlot y] [] t

/-! ### What a step leaves as it was -/

/-- Every byte of main memory, of shared memory and of the issuing context's scratchpad reads as before. -/
def SameMemory (s t : State) : Prop :=
  (∀ a, cellGet t.mem a = cellGet s.mem a) ∧ (∀ d a, cellGet (getDie t d).dsm a = cellGet (getDie s d).dsm a) ∧
    ∀ a, cellGet t.cx.prog.scratch a = cellGet s.cx.prog.scratch a

/-- `t` is `s` with the issuing context as in `x`, running on; only what every issue moves is left open: the record of its slot (03 R33),
the recency stamps of touched units and the starvation counter, which starts again. -/
structure Leaves (s t : State) (x : Ctx) : Prop where
  outside : t = { s with cx := t.cx }
  r : t.cx.r = x.r
  va : t.cx.va = x.va
  vb : t.cx.vb = x.vb
  m : t.cx.m = x.m
  sys : t.cx.sys = x.sys
  mon : t.cx.mon = x.mon
  con : t.cx.con = x.con
  ctl : t.cx.ctl = { x.ctl with sticky := t.cx.ctl.sticky }
  prog : t.cx.prog = { x.prog with starve := 0, recency := t.cx.prog.recency }
  state : t.cx.run.state = s.cx.run.state
  hold : t.cx.run.hold = none
  parked : t.cx.run.parkedOn = none

/-! ### What an instruction of a slot does when it issues -/

/-- A calm context is about to issue a bundle of the one syllable, whose operands the encoding admits and whose guard is true. -/
def Ready (s : State) (y : Syl) : Prop := Calm s ∧ wfSyl y = true ∧ guardOn s.cx.r (guardOf y) = true
/-- The s register that an operand names. -/
def sv (s : State) (n : BitVec 6) : W64 := sGet s.cx.r n.toNat
/-- The guard that an operand names. -/
def gv (s : State) (n : BitVec 6) : Bool := gGet s.cx.r n.toNat

/-- The instruction writes one s register with a value that `P` describes; s0 stays zero, the pc moves to the next bundle, and nothing else
changes: no register, flag, special register, byte of memory, other context or part of the package. -/
def WritesS (i : Instr) (y : SSyl) (n : BitVec 6) (P : State → W64 → Prop) : Prop :=
  ∀ s, Ready s (.s y) → ∃ t v, exec i s = .next t ∧ P s v ∧
    Leaves s t { s.cx with r := { sSet s.cx.r n.toNat v with pc := s.cx.r.pc + 8 } } ∧ SameMemory s t
/-- The same with the value itself. -/
def WritesSVal (i : Instr) (y : SSyl) (n : BitVec 6) (f : State → W64) : Prop := WritesS i y n fun s v => v = f s
/-- The instruction writes one of g1 to g7 and nothing else. -/
def WritesG (i : Instr) (y : SSyl) (n : BitVec 6) (f : State → Bool) : Prop :=
  ∀ s, Ready s (.s y) → ∃ t, exec i s = .next t ∧
    Leaves s t { s.cx with r := { gSet s.cx.r n.toNat (f s) with pc := s.cx.r.pc + 8 } } ∧ SameMemory s t
/-- The run control of a context whose waiting for ports, results or a receive ends with a trap. -/
def endTry (r : Run) : Run :=
  { r with portUntil := none, itemUntil := 0, waiting := false, ready := false, state := if r.state = .wait then .run else r.state }
/-- The instruction traps with `code` and `val`, reported for `slot`: the context enters its monitor (or, in the monitor, escalates) as
takeTrap says, and nothing else of the bundle is done. -/
def Traps (i : Instr) (s : State) (code : Byte) (val : W64) (slot : Nat) : Prop :=
  exec i s = .next (takeTrap (putRun s (endTry s.cx.run)) s.cid { code := code, val := val, slot := some slot })

/-- Every unit of a list is in the footprint of the issuing context and present (16 R317). -/
def UnitsPresent (s : State) (us : List Nat) : Prop := ∀ u ∈ us, u ∈ s.cx.prog.footprint ∧ u ∉ s.cx.prog.absent
/-- No watchpoint of the issuing context is armed (18 R343). -/
def Unwatched (s : State) : Prop := ∀ (k : Nat) (w : Watch), s.cx.mon.watch[k]? = some w → w.armed = false
/-- A byte of the issuing context's scratchpad. -/
def scrByte (s : State) (a : Nat) : Byte := cellGet s.cx.prog.scratch a
/-- The address of a scalar access of `n` bytes, as the meanings compute it (05 R97). -/
def scalarAddr (s : State) (o : SM) (n : Nat) : Except Stop Nat := scrAddr (bGet s.cx.r o.b.toNat) (o.off.toInt * n) n n
/-- The context's program memory after stores: only the scratchpad, the spin counter and the mark of `yield` differ (12 R260). -/
def stored (p : Prog) (scratch : Memory) : Prog := { p with scratch := scratch, spin := 0, yielded := false }
/-- Main memory and shared memory read as before, and the scratchpad outside `n` bytes from `a`. -/
def SameOutside (s t : State) (a n : Nat) : Prop :=
  (∀ b, cellGet t.mem b = cellGet s.mem b) ∧ (∀ d b, cellGet (getDie t d).dsm b = cellGet (getDie s d).dsm b) ∧
    ∀ b, b < a ∨ a + n ≤ b → scrByte t b = scrByte s b

/-! ### Vector syllables (05 R119) -/

/-- The row that an operand names. -/
def vrow (s : State) (sd : Side) (n : BitVec 11) : VRow := rowGet s.cx sd (phys (vfile s.cx sd) n.toNat)
/-- Row `r` of an operand of a form (05 R119). -/
def vrowAt (s : State) (sd : Side) (n : BitVec 11) (r : Nat) : VRow := rowGet s.cx sd (phys (vfile s.cx sd) (n.toNat + r))
/-- The file whose generator row `r` draws from, where a row draws `n` times (05 R119, 04 R92). -/
def genAt (s : State) (sd : Side) (n r : Nat) : VFile := { vfile s.cx sd with ctr := (vfile s.cx sd).ctr + .ofNat 128 (16 * n * r) }
/-- The active form of a vector syllable, after the swap of the issue. -/
def vform (s : State) (sd : Side) (y : VSyl) (form : BitVec 2) : W64 := formWord (loneView s (.v sd y)).ctl (formIdx (vSlot sd) form.toNat)
/-- Lane `l` is active: below the columns of the active form and in the mask. -/
def laneOn (s : State) (sd : Side) (y : VSyl) (form : BitVec 2) (mask l : Nat) : Bool :=
  decide (l < formCols (vform s sd y form)) && (mask == 0 || (maskGet s.cx sd mask).getLsbD l)
/-- A vector syllable is about to issue that passes the checks at decode, with every unit present. -/
def VReady (s : State) (sd : Side) (y : VSyl) : Prop := Ready s (.v sd y) ∧ PassesChecks s (.v sd y) ∧ AllPresent s
/-- The rows after the first still take their cycles, one each; what they write stands, usable at their own times (05 R119, R120). -/
def RowsLeft (s t : State) (sd : Side) (y : VSyl) (form : BitVec 2) : Prop :=
  let rows := formRows (vform s sd y form)
  t.cx.run.rows.map (fun j => (j.slot, j.syl, j.row, j.rows, j.due)) =
    if rows = 1 then [] else [((Syl.v sd y).slot.num, .v sd y, 1, rows, (getCl s (ctxCl s.cid)).wall + 1)]
/-- Everything of the issuing context but its vector file `f` of side `sd` and its flags `fl`, after a vector syllable. -/
def vAfter (s : State) (sd : Side) (y : VSyl) (f : VFile) (fl : BitVec 5) : Ctx :=
  { setVFile (loneView s (.v sd y)) sd f with r := { s.cx.r with pc := s.cx.r.pc + 12 }, sys := { s.cx.sys with fflags := fl } }
/-- Registers `p` that none of the rows of a form from `vd` on is. -/
def OffRows (s : State) (sd : Side) (vd : BitVec 11) (rows p : Nat) : Prop := ∀ r, r < rows → p ≠ phys (vfile s.cx sd) (vd.toNat + r)
/-- The syllable writes `f` to the active lanes of every row of its form, row `r` to register `vd` + r, and raises the flags of the active lanes; the
other lanes, registers, masks and all else stay, but for the generator's counter, which `n` draws a row advance. -/
def WritesLanes (i : Instr) (sd : Side) (y : VSyl) (form : BitVec 2) (mask : Nat) (vd : BitVec 11) (n : Nat) (f : State → Nat → Nat → Nat × BitVec 5) : Prop :=
  ∀ s, VReady s sd y →
    let rows := formRows (vform s sd y form)
    ∃ t, exec i s = .next t ∧ SameMemory s t ∧ RowsLeft s t sd y form ∧
    Leaves s t (vAfter s sd y { vfile s.cx sd with rows := (vfile t.cx sd).rows, ctr := (vfile s.cx sd).ctr + .ofNat 128 (16 * n * rows) } t.cx.sys.fflags) ∧
    (∀ r l, r < rows → l < 64 → lane 32 (rowGet t.cx sd (phys (vfile s.cx sd) (vd.toNat + r))) l =
      if laneOn s sd y form mask l then .ofNat 32 (f s r l).1 else lane 32 (vrowAt s sd vd r) l) ∧
    (∀ p, OffRows s sd vd rows p → rowGet t.cx sd p = rowGet s.cx sd p) ∧
    ∀ k, k < 5 → t.cx.sys.fflags.getLsbD k =
      (s.cx.sys.fflags.getLsbD k || (List.range rows).any fun r => (List.range 64).any fun l => laneOn s sd y form mask l && (f s r l).2.getLsbD k)
/-- The same for a value of 32 bits without flags or draws. -/
def WritesWords (i : Instr) (sd : Side) (y : VSyl) (form : BitVec 2) (mask : Nat) (vd : BitVec 11) (f : State → Nat → Nat → W32) : Prop :=
  WritesLanes i sd y form mask vd 0 fun s r l => ((f s r l).toNat, 0)
/-- The syllable writes the bits of the active lanes in `n` masks from `vd` on; the other bits, masks and all else stay. -/
def WritesMasks (i : Instr) (sd : Side) (y : VSyl) (o : VR) (n : Nat) (f : State → Nat → Nat → Bool) : Prop :=
  ∀ s, VReady s sd y → ∃ t, exec i s = .next t ∧ SameMemory s t ∧ t.cx.run.rows = [] ∧
    Leaves s t (vAfter s sd y { vfile s.cx sd with masks := (vfile t.cx sd).masks } s.cx.sys.fflags) ∧
    (∀ k, k < n → ∀ l, l < 64 → (maskGet t.cx sd (o.vd.toNat + k)).getLsbD l =
      if laneOn s sd y o.form o.mask.toNat l then f s k l else (maskGet s.cx sd (o.vd.toNat + k)).getLsbD l) ∧
    ∀ m, m < o.vd.toNat ∨ o.vd.toNat + n ≤ m → maskGet t.cx sd m = maskGet s.cx sd m
/-- Byte address of lane `l` of row `i` of a vector access, as the meanings compute it (05 R135). -/
def vmLane (s : State) (o : VM) (i l : Nat) : Int := (bGet s.cx.r o.b.toNat).toNat + o.off.toInt + 256 * i + 4 * l

/-! ### Matrix syllables (06 R144) -/

/-- A matrix syllable is about to issue that passes the checks at decode, with every unit present. -/
def MReady (s : State) (y : MSyl) : Prop := Ready s (.m y) ∧ PassesChecks s (.m y) ∧ AllPresent s
/-- The issuing context with M state `m` and flags `fl`, after a matrix syllable. -/
def mAfter (s : State) (y : MSyl) (m : Mat) (fl : BitVec 5) : Ctx :=
  { loneView s (.m y) with r := { s.cx.r with pc := s.cx.r.pc + 12 }, m := m, sys := { s.cx.sys with fflags := fl } }
/-- The state in which an accumulate fetches its edges: its own units are touched. -/
def beatStart (s : State) (y : MSyl) (o : MO) : State :=
  match touch (loneStart s (.m y)) (beatUnits o (loneIss s (.m y))) with
  | .ok t => t
  | .error _ => loneStart s (.m y)
/-- The state in which a drain writes: its row is touched. -/
def drainStart (s : State) (o : MO) : State :=
  match touch (loneStart s (.m (.mdrain o))) [accUnit o.acc.toNat o.row.toNat] with
  | .ok t => t
  | .error _ => loneStart s (.m (.mdrain o))
/-- `Leaves` for a beat that reads panels: the horizon may take in the replies' clocks (09 R177), and the counter of free values may move. -/
def BeatLeaves (s t : State) (x : Ctx) : Prop := Leaves s { t with free := s.free } { x with prog := { x.prog with horizon := t.cx.prog.horizon } }
/-- The cells of one tile read as `f`, those of the other as before. -/
def CellsOf (s t : State) (acc : BitVec 1) (f : Nat → Nat → Wide) : Prop :=
  ∀ u i j, u < 2 → i < 128 → j < 128 → lane 256 (accGet t.cx u i) j = if u = acc.toNat then f i j else lane 256 (accGet s.cx u i) j

/-! ### Copy syllables (10 R205-R212) -/

/-- The value of the register that a copy syllable names at place `i` of its list (10 R207). -/
def cArg (s : State) (sd : Side) (op : CSyl) (i : Nat) : W64 := (((cView op).regs[i]?).map (deGet s.cx.r sd)).getD 0
/-- A copy syllable is about to issue that passes the checks at decode: the registers it names are not pending, its channel has room, no transfer that is
still incomplete has its identifier (10 R206), no watchpoint is armed. -/
def CReady (s : State) (sd : Side) (op : CSyl) : Prop :=
  Ready s (.c sd op) ∧ PassesChecks s (.c sd op) ∧ (∀ n ∈ (cView op).regs ++ (cView op).outs, pendingOf s.cx sd n = none) ∧
    (chanOf s.cx sd).xfers.length + (chanOf s.cx sd).fails.length < 64 ∧ (∀ q ∈ (chanOf s.cx sd).xfers, q.tid ≠ (chanOf s.cx sd).tid + 1) ∧ Unwatched s
/-- Rows of the syllable's form, and a bracketed address in row `i`, as the meanings compute them (10 R209). -/
def cCount (s : State) (sd : Side) (op : CSyl) : Nat := cRows (loneIss s (.c sd op)) sd op
def cAt (s : State) (sd : Side) (op : CSyl) (a : W64) (i : Nat) : W64 := cAddr (loneIss s (.c sd op)) sd op a i
/-- The addresses that the syllable names lie in this package by their class, and its stream is not broken (10 R210, 09 R185). -/
def AtHome (s : State) (sd : Side) (op : CSyl) : Prop :=
  ((cView op).ax = true → (cArg s sd op 0).toNat / 2 ^ 60 ≠ 0xC) ∧ ((cView op).ay = true → (cArg s sd op 1).toNat / 2 ^ 60 ≠ 0xC) ∧
    ((cView op).stream = 0 ∨ s.cx.con.broken.getLsbD (cView op).stream.toNat = false)
/-- The issuing context after a copy syllable: its channels and stream counters, and the marks of a write (12 R260) and of a mate's window (10 R216). -/
def cAfter (s t : State) (sd : Side) (op : CSyl) (mate : Bool) : Ctx :=
  let w := kindWrites (cView op).kind
  { loneView s (.c sd op) with
    r := { s.cx.r with pc := s.cx.r.pc + 8 }, con := t.cx.con
    prog := { s.cx.prog with kind01 := s.cx.prog.kind01 || mate, spin := if w then 0 else s.cx.prog.spin, yielded := s.cx.prog.yielded && !w } }
/-- The syllable issued transfer `q` under the next identifier of its channel, with the values of its registers; nothing else of the context moved. -/
structure Issued (s t : State) (sd : Side) (op : CSyl) (q : Xfer) : Prop where
  tid : q.tid = (chanOf s.cx sd).tid + 1
  op_ : q.op = op
  args : ∀ (i n : Nat), (cView op).regs[i]? = some n → q.args[i]? = some (deGet s.cx.r sd n)
  x : q.x = cArg s sd op 0
  y : q.y = cArg s sd op 1
  bundle : q.bundle = s.cx.r.pc
  chan : chanOf t.cx sd = { chanOf s.cx sd with tid := q.tid, xfers := (chanOf s.cx sd).xfers ++ [q] }
  other : chanOf t.cx (otherSide sd) = chanOf s.cx (otherSide sd)
  source : t.cx.con.tag = s.cx.con.tag ∧ t.cx.con.broken = s.cx.con.broken
  memory : SameMemory s t
  left : Leaves s { t with clusters := s.clusters } (cAfter s t sd op (namesMate q))
/-- Slot of a copy channel. -/
def chSlot (sd : Side) : Nat := if sd = .a then 6 else 7

/-! ### The monitor (13 R289) -/

/-- `y` is `x` just after its monitor was entered: the trap record is set, s48 to s63 and the sticky records are exchanged with the monitor's bank, the
pc stands at 0x3_C000; the rest is as in `x`. -/
structure Entered (x y : Ctx) (cause : BitVec 13) (val : W64) (pc : W32) (rpt : BitVec 4) : Prop where
  mcause : y.mon.mcause = cause
  mtval : y.mon.mtval = val
  mepc : y.mon.mepc = .ofNat 18 pc.toNat
  mrpt : y.mon.mrpt = rpt
  active : y.mon.active = true
  at_ : y.r.pc = 0x3C000
  state : y.run.state = .monitor
  rpt0 : y.ctl.rptidx = 0
  low : ∀ n, n < 48 → sGet y.r n = sGet x.r n
  high : ∀ k, k < 16 → sGet y.r (48 + k) = (x.mon.bank[k]?).getD 0 ∧ (y.mon.bank[k]?).getD 0 = sGet x.r (48 + k)
  sticky : y.ctl.sticky = x.mon.bankSticky ∧ y.mon.bankSticky = x.ctl.sticky
  regs : y.r.g = x.r.g ∧ y.r.q = x.r.q ∧ y.r.b = x.r.b ∧ y.r.bstep = x.r.bstep ∧ y.r.loops = x.r.loops ∧ y.r.rstack = x.r.rstack ∧ y.r.d = x.r.d ∧ y.r.e = x.r.e
  files : y.va = x.va ∧ y.vb = x.vb ∧ y.m = x.m ∧ y.sys = x.sys ∧ y.con = x.con ∧ y.ctl.forms = x.ctl.forms ∧ y.prog.scratch = x.prog.scratch
/-- `y` is `x` just after the return of `mret`: the banks are exchanged back, the pc and the repetition come from the trap record. -/
structure Returned (x y : Ctx) : Prop where
  active : y.mon.active = false
  at_ : y.r.pc = .ofNat 32 (x.mon.mepc.toNat / 4 * 4)
  rpt : y.ctl.rptidx = x.mon.mrpt
  state : y.run.state = .run
  low : ∀ n, n < 48 → sGet y.r n = sGet x.r n
  high : ∀ k, k < 16 → sGet y.r (48 + k) = (x.mon.bank[k]?).getD 0 ∧ (y.mon.bank[k]?).getD 0 = sGet x.r (48 + k)
  sticky : y.ctl.sticky = x.mon.bankSticky
  regs : y.r.g = x.r.g ∧ y.r.q = x.r.q ∧ y.r.b = x.r.b ∧ y.r.bstep = x.r.bstep ∧ y.r.loops = x.r.loops ∧ y.r.rstack = x.r.rstack ∧ y.r.d = x.r.d ∧ y.r.e = x.r.e
  files : y.va = x.va ∧ y.vb = x.vb ∧ y.m = x.m ∧ y.sys = x.sys ∧ y.con = x.con ∧ y.ctl.forms = x.ctl.forms ∧ y.prog.scratch = x.prog.scratch

/-! ### What a step of the package changes -/

/-- Only context `c` differs: it is `x`. -/
structure CtxTo (s t : State) (c : CtxId) (x : Ctx) : Prop where
  outside : t = { s with cx := t.cx, others := t.others }
  at_ : getCtx t c = x
  rest : ∀ d, d ≠ c → getCtx t d = getCtx s d
/-- Only cluster `k` differs: it is `x`. -/
structure ClTo (s t : State) (k : Nat) (x : Cluster) : Prop where
  outside : t = { s with clusters := t.clusters }
  at_ : getCl t k = x
  rest : ∀ j, j ≠ k → getCl t j = getCl s j
/-- Only core `k` differs: it is `x`. -/
structure CoreTo (s t : State) (k : Nat) (x : CoreSt) : Prop where
  outside : t = { s with cores := t.cores }
  at_ : getCore t k = x
  rest : ∀ j, j ≠ k → getCore t j = getCore s j
/-- Only die `k` differs: it is `x`. -/
structure DieTo (s t : State) (k : Nat) (x : Die) : Prop where
  outside : t = { s with dies := t.dies }
  at_ : getDie t k = x
  rest : ∀ j, j ≠ k → getDie t j = getDie s j
/-- Only region `id` differs, by `f`. -/
structure RegionTo (s t : State) (id : W32) (f : Region → Region) : Prop where
  outside : t = { s with regions := t.regions }
  at_ : findRegion t id = (findRegion s id).map f
  rest : ∀ j, j ≠ id → findRegion t j = findRegion s j

/-- Only the tile sequencer entry `e` differs: it is `x`. -/
structure EntryTo (s t : State) (e : EntryId) (x : Entry) : Prop where
  outside : t = { s with seqs := t.seqs }
  at_ : getEntry t e = x
  rest : ∀ d, d ≠ e → getEntry t d = getEntry s d

/-! ### Transfers -/

/-- A channel without one of its transfers. -/
def leftChan (x : Ctx) (ch : Side) (tid : W32) : Chan := { chanOf x ch with xfers := (chanOf x ch).xfers.filter fun u => u.tid != tid }
/-- A context whose transfer has completed; the rest is as in `x`. -/
def doneXfer (x : Ctx) (ch : Side) (tid : W32) : Ctx := setChan x ch (leftChan x ch tid)
/-- A context whose transfer has failed: the failure list of its channel holds its status (10 R212). -/
def failedXfer (x : Ctx) (ch : Side) (tid : W32) (e : Byte) : Ctx :=
  setChan x ch { leftChan x ch tid with fails := insertFail (tid, e) (chanOf x ch).fails }
/-- A transfer that nothing holds up and that stays inside the package: its runs are known, no earlier command of its channel acquires,
nothing that it releases is outstanding, its stream is free, its cluster is not braked and no watchpoint watches it (09 R179, R181, 01 R24, 18 R345). -/
structure Performs (s : State) (c : CtxId) (ch : Side) (q : Xfer) : Prop where
  found : findXfer (getCtx s c) ch q.tid = some q
  status : q.status = 0
  acquire : acquireBlocked (getCtx s c) ch q = false
  release : releaseBlocked s c (getCtx s c) ch q = false
  stream : streamBlocked (getCtx s c) ch q = false
  planned : q.planned = true
  numbered : q.numbered = true
  here : isFar s c q.x.toNat = false ∧ isFar s c q.y.toNat = false
  unbraked : (getCl s (ctxCl c)).brake = none
  unwatched : q.watched = true ∨ ∀ (k : Nat) (w : Watch), (getCtx s c).mon.watch[k]? = some w → w.armed = false
/-- An access of `n` bytes inside one 4 KiB unit of shared memory, at offset `off` of die `d`. -/
def InDsm (s : State) (c : CtxId) (a : W64) (n : Nat) (rights : Need) (d off : Nat) : Prop :=
  a.toNat / 2 ^ 60 = 0xB ∧ 0 < n ∧ a.toNat % 4096 + n ≤ 4096 ∧ ∃ g, siteOf s c a.toNat n rights = .ok g ∧ g.place = .dsm d off
/-- The bytes `l` stand in the shared memory of die `d` from `off` on; main memory, every scratchpad and the rest of shared memory are as before. -/
def DsmTo (s t : State) (d off : Nat) (l : List Byte) : Prop :=
  t.mem = s.mem ∧ (∀ c, (getCtx t c).prog.scratch = (getCtx s c).prog.scratch) ∧
    ∀ e a, cellGet (getDie t e).dsm a = if e = d ∧ off ≤ a ∧ a < off + l.length then (l[a - off]?).getD 0 else cellGet (getDie s e).dsm a
/-- A word of 8 bytes of shared memory. -/
def dsmWord (s : State) (d off : Nat) : W64 := .ofNat 64 (leNat (cellRead (getDie s d).dsm off 8))

/-! ### Host commands (19 R359) -/

/-- The completion record of a command that commits no tile word: result, no reports, op, index. -/
def answer (c : Cmd) (op result : Nat) : List Byte :=
  [.ofNat 8 result, 0, .ofNat 8 op, 0] ++ List.replicate 4 0 ++ leBytes 8 c.index.toNat ++ List.replicate 15 0 ++ [1] ++ List.replicate 160 0
/-- The command is answered: its record stands at its completion address, if it asks for one. -/
def Answered (s t : State) (c : Cmd) (op result : Nat) : Prop := t = if c.cpl = 0 then s else appStore s c.cpl.toNat (answer c op result)
/-- The command names a region of the ring's tenant. -/
def Owns (s : State) (c : Cmd) : Prop := c.region ≠ 0 ∧ (findRegion s c.region).isSome = true ∧ effTenant (asInstalled s) c.region = c.tenant.toNat

/-! ### Canonical memories -/

/-- Main memory is in canonical form. -/
def MemoryWf (s : State) : Prop := Memory.wf s.mem

end Sys2Proof.Machine
end

