-- ==== Sys2Proof/Certificates/Slice0/Obligations.lean ====
section
/-! DEFINITION. The statements for the provers. Each docstring names the rule of spec/ it formalises. -/

section

open Sys2Proof Sys2Proof.Machine

/-- 05 R100, R101: the two-operand and immediate integer operations of the S slot, `movi` among them. -/
def Obligations.ScalarArithmetic : Prop :=
  (∀ o : SR,
    WritesSVal (.add o) (.add o) o.rd (fun s => sv s o.ra + sv s o.rb) ∧
    WritesSVal (.sub o) (.sub o) o.rd (fun s => sv s o.ra - sv s o.rb) ∧
    WritesSVal (.mul o) (.mul o) o.rd (fun s => .ofNat 64 ((sv s o.ra).toNat * (sv s o.rb).toNat)) ∧
    WritesSVal (.mulh o) (.mulh o) o.rd (fun s => .ofInt 64 ((sv s o.ra).toInt * (sv s o.rb).toInt / 2 ^ 64)) ∧
    WritesSVal (.mulhu o) (.mulhu o) o.rd (fun s => .ofNat 64 ((sv s o.ra).toNat * (sv s o.rb).toNat / 2 ^ 64)) ∧
    WritesSVal (.and o) (.and o) o.rd (fun s => sv s o.ra &&& sv s o.rb) ∧
    WritesSVal (.or o) (.or o) o.rd (fun s => sv s o.ra ||| sv s o.rb) ∧
    WritesSVal (.xor o) (.xor o) o.rd (fun s => sv s o.ra ^^^ sv s o.rb) ∧
    WritesSVal (.andn o) (.andn o) o.rd (fun s => sv s o.ra &&& ~~~(sv s o.rb)) ∧
    WritesSVal (.shl o) (.shl o) o.rd (fun s => sv s o.ra <<< ((sv s o.rb) &&& 63).toNat) ∧
    WritesSVal (.shr o) (.shr o) o.rd (fun s => sv s o.ra >>> ((sv s o.rb) &&& 63).toNat) ∧
    WritesSVal (.sra o) (.sra o) o.rd (fun s => (sv s o.ra).sshiftRight ((sv s o.rb) &&& 63).toNat) ∧
    WritesSVal (.rotl o) (.rotl o) o.rd (fun s => (sv s o.ra).rotateLeft ((sv s o.rb) &&& 63).toNat) ∧
    WritesSVal (.min o) (.min o) o.rd (fun s => if (sv s o.ra).toInt ≤ (sv s o.rb).toInt then sv s o.ra else sv s o.rb) ∧
    WritesSVal (.max o) (.max o) o.rd (fun s => if (sv s o.ra).toInt ≤ (sv s o.rb).toInt then sv s o.rb else sv s o.ra) ∧
    WritesSVal (.minu o) (.minu o) o.rd (fun s => if (sv s o.ra).toNat ≤ (sv s o.rb).toNat then sv s o.ra else sv s o.rb) ∧
    WritesSVal (.maxu o) (.maxu o) o.rd (fun s => if (sv s o.ra).toNat ≤ (sv s o.rb).toNat then sv s o.rb else sv s o.ra)) ∧
  (∀ o : SI,
    WritesSVal (.addSi o) (.addSi o) o.rd (fun s => sv s o.ra + o.imm.signExtend 64) ∧
    WritesSVal (.andSi o) (.andSi o) o.rd (fun s => sv s o.ra &&& o.imm.signExtend 64) ∧
    WritesSVal (.orSi o) (.orSi o) o.rd (fun s => sv s o.ra ||| o.imm.signExtend 64) ∧
    WritesSVal (.xorSi o) (.xorSi o) o.rd (fun s => sv s o.ra ^^^ o.imm.signExtend 64) ∧
    WritesSVal (.shlSi o) (.shlSi o) o.rd (fun s => sv s o.ra <<< o.imm.toNat) ∧
    WritesSVal (.shrSi o) (.shrSi o) o.rd (fun s => sv s o.ra >>> o.imm.toNat) ∧
    WritesSVal (.sraSi o) (.sraSi o) o.rd (fun s => (sv s o.ra).sshiftRight o.imm.toNat)) ∧
  ∀ o : SJ,
    WritesSVal (.movi o) (.movi o) o.rd (fun _ => o.imm.signExtend 64) ∧
    WritesSVal (.addSj o) (.addSj o) o.rd (fun s => sv s o.rd + o.imm.signExtend 64) ∧
    WritesSVal (.andSj o) (.andSj o) o.rd (fun s => sv s o.rd &&& o.imm.signExtend 64) ∧
    WritesSVal (.orSj o) (.orSj o) o.rd (fun s => sv s o.rd ||| o.imm.signExtend 64) ∧
    WritesSVal (.xorSj o) (.xorSj o) o.rd (fun s => sv s o.rd ^^^ o.imm.signExtend 64)

/-- 05 R100, R101, R103, R104: bit counts, bit fields, `movk` and `lop3`, bit by bit. 05 R102: compares write one of g1 to g7, guard logic combines
guards, g0 reads true. -/
def Obligations.ScalarBitsAndGuards : Prop :=
  ((∀ o : SU,
     WritesSVal (.popc o) (.popc o) o.rd (fun s => .ofNat 64 ((List.range 64).filter fun i => (sv s o.ra).getLsbD i).length) ∧
     WritesS (.clz o) (.clz o) o.rd (fun s v => v.toNat ≤ 64 ∧ (sv s o.ra).toNat < 2 ^ (64 - v.toNat) ∧ (v.toNat < 64 → 2 ^ (63 - v.toNat) ≤ (sv s o.ra).toNat)) ∧
     WritesS (.ctz o) (.ctz o) o.rd (fun s v => v.toNat ≤ 64 ∧ (∀ i, i < v.toNat → (sv s o.ra).getLsbD i = false) ∧
       (v.toNat < 64 → (sv s o.ra).getLsbD v.toNat = true))) ∧
   (∀ o : SR,
     WritesS (.bext o) (.bext o) o.rd (fun s v => ∀ i, i < 64 → v.getLsbD i =
       (decide (i ≤ ((sv s o.rb).toNat / 256) % 64) && (sv s o.ra).getLsbD ((sv s o.rb).toNat % 64 + i))) ∧
     WritesS (.bins o) (.bins o) o.rd (fun s v => ∀ i, i < 64 → v.getLsbD i =
       if (sv s o.rb).toNat % 64 ≤ i ∧ i ≤ (sv s o.rb).toNat % 64 + ((sv s o.rb).toNat / 256) % 64 then (sv s o.ra).getLsbD (i - (sv s o.rb).toNat % 64)
       else (sv s o.rd).getLsbD i)) ∧
   (∀ o : SJ,
     WritesS (.movkH1 o) (.movkH1 o) o.rd (fun s v => ∀ i, i < 64 → v.getLsbD i = if 14 ≤ i ∧ i < 28 then o.imm.getLsbD (i - 14) else (sv s o.rd).getLsbD i) ∧
     WritesS (.movkH2 o) (.movkH2 o) o.rd (fun s v => ∀ i, i < 64 → v.getLsbD i = if 28 ≤ i ∧ i < 42 then o.imm.getLsbD (i - 28) else (sv s o.rd).getLsbD i) ∧
     WritesS (.movkH3 o) (.movkH3 o) o.rd (fun s v => ∀ i, i < 64 → v.getLsbD i = if 42 ≤ i ∧ i < 56 then o.imm.getLsbD (i - 42) else (sv s o.rd).getLsbD i)) ∧
   (∀ o : SK, WritesS (.movkH4 o) (.movkH4 o) o.rd (fun s v => ∀ i, i < 64 → v.getLsbD i = if 56 ≤ i then o.imm.getLsbD (i - 56) else (sv s o.rd).getLsbD i)) ∧
   ∀ o : Lop, WritesS (.lop3 o) (.lop3 o) o.rd (fun s v => ∀ i, i < 64 → v.getLsbD i =
     (o.th ++ o.tl).getLsbD (4 * ((sv s o.ra).getLsbD i).toNat + 2 * ((sv s o.rb).getLsbD i).toNat + ((sv s o.rd).getLsbD i).toNat))) ∧
  ((∀ o : SR,
     WritesG (.cmpeq o) (.cmpeq o) o.rd (fun s => decide (sv s o.ra = sv s o.rb)) ∧
     WritesG (.cmpne o) (.cmpne o) o.rd (fun s => decide (sv s o.ra ≠ sv s o.rb)) ∧
     WritesG (.cmplt o) (.cmplt o) o.rd (fun s => decide ((sv s o.ra).toInt < (sv s o.rb).toInt)) ∧
     WritesG (.cmpltu o) (.cmpltu o) o.rd (fun s => decide ((sv s o.ra).toNat < (sv s o.rb).toNat)) ∧
     WritesG (.cmple o) (.cmple o) o.rd (fun s => decide ((sv s o.ra).toInt ≤ (sv s o.rb).toInt)) ∧
     WritesG (.cmpleu o) (.cmpleu o) o.rd (fun s => decide ((sv s o.ra).toNat ≤ (sv s o.rb).toNat)) ∧
     WritesG (.gand o) (.gand o) o.rd (fun s => gv s o.ra && gv s o.rb) ∧
     WritesG (.gor o) (.gor o) o.rd (fun s => gv s o.ra || gv s o.rb) ∧
     WritesG (.gxor o) (.gxor o) o.rd (fun s => gv s o.ra != gv s o.rb)) ∧
   (∀ o : SU, WritesG (.gnot o) (.gnot o) o.rd (fun s => !(gv s o.ra))) ∧
   ∀ o : SI,
     WritesG (.cmpeqSi o) (.cmpeqSi o) o.rd (fun s => decide (sv s o.ra = o.imm.signExtend 64)) ∧
     WritesG (.cmpltSi o) (.cmpltSi o) o.rd (fun s => decide ((sv s o.ra).toInt < o.imm.toInt)) ∧
     WritesG (.cmpltuSi o) (.cmpltuSi o) o.rd (fun s => decide ((sv s o.ra).toNat < (o.imm.signExtend 64).toNat)))

/-- 05 R97: the address is the exact sum of the zero-extended base and the offset, checked for alignment, then for the 2 MiB of the scratchpad. 05
R97, 16 R317: a scalar access whose address is misaligned or out of range, or whose block lies outside the footprint, traps and does nothing else. It
rests on the model's own readings of log entry 74. -/
def Obligations.ScalarAddresses : Prop :=
  (∀ (base : W32) (off : Int) (size align : Nat), 0 < align →
     let a : Int := base.toNat + off
     (a % align ≠ 0 → scrAddr base off size align = .error (.trap { code := 0x0C, val := BitVec.ofInt 64 a })) ∧
     (a % align = 0 → (a < 0 ∨ 0x200000 < a + size) → scrAddr base off size align = .error (.trap { code := 0x0D, val := BitVec.ofInt 64 a })) ∧
     (a % align = 0 → 0 ≤ a → a + size ≤ 0x200000 → scrAddr base off size align = .ok a.toNat)) ∧
  (∀ o : SM, ∀ p ∈ [(Instr.sld8 o, SSyl.sld8 o, 1), (.sld16 o, .sld16 o, 2), (.sld32 o, .sld32 o, 4), (.sld64 o, .sld64 o, 8), (.sldz8 o, .sldz8 o, 1),
       (.sldz16 o, .sldz16 o, 2), (.sldz32 o, .sldz32 o, 4), (.sst8 o, .sst8 o, 1), (.sst16 o, .sst16 o, 2), (.sst32 o, .sst32 o, 4), (.sst64 o, .sst64 o, 8)],
     ∀ s, Ready s (.s p.2.1) →
       (∀ c v, scalarAddr s o p.2.2 = .error (.trap { code := c, val := v }) → Traps p.1 s c v 0) ∧
       (∀ a, scalarAddr s o p.2.2 = .ok a → a / 4096 ∉ s.cx.prog.footprint → Traps p.1 s 0x0A (.ofNat 64 (a / 4096)) 0))

/-- 05 R105, R97: the scalar loads extend the little-endian bytes at the address; nothing else changes. -/
def Obligations.ScalarLoads : Prop :=
  let load := fun (i : Instr) (y : SSyl) (o : SM) (n : Nat) (f : State → Nat → W64) =>
    ∀ s a, Ready s (.s y) → scalarAddr s o n = .ok a → UnitsPresent s [a / 4096] → ∃ t, exec i s = .next t ∧
      Leaves s t { s.cx with r := { sSet s.cx.r o.r.toNat (f s a) with pc := s.cx.r.pc + 8 } } ∧ SameMemory s t
  ∀ o : SM,
    load (.sld8 o) (.sld8 o) o 1 (fun s a => (scrByte s a).signExtend 64) ∧
    load (.sld16 o) (.sld16 o) o 2 (fun s a => (scrByte s (a + 1) ++ scrByte s a).signExtend 64) ∧
    load (.sld32 o) (.sld32 o) o 4 (fun s a => (scrByte s (a + 3) ++ scrByte s (a + 2) ++ scrByte s (a + 1) ++ scrByte s a).signExtend 64) ∧
    load (.sld64 o) (.sld64 o) o 8 (fun s a => scrByte s (a + 7) ++ scrByte s (a + 6) ++ scrByte s (a + 5) ++ scrByte s (a + 4) ++ scrByte s (a + 3) ++
      scrByte s (a + 2) ++ scrByte s (a + 1) ++ scrByte s a) ∧
    load (.sldz8 o) (.sldz8 o) o 1 (fun s a => (scrByte s a).setWidth 64) ∧
    load (.sldz16 o) (.sldz16 o) o 2 (fun s a => (scrByte s (a + 1) ++ scrByte s a).setWidth 64) ∧
    load (.sldz32 o) (.sldz32 o) o 4 (fun s a => (scrByte s (a + 3) ++ scrByte s (a + 2) ++ scrByte s (a + 1) ++ scrByte s a).setWidth 64)

/-- 05 R105, R97: the scalar stores write the low bytes of the register at the address, little-endian, and no other byte. -/
def Obligations.ScalarStores : Prop :=
  let store := fun (i : Instr) (y : SSyl) (o : SM) (n : Nat) =>
    ∀ s a, Ready s (.s y) → Unwatched s → scalarAddr s o n = .ok a → UnitsPresent s [a / 4096] → ∃ t, exec i s = .next t ∧
      Leaves s t { s.cx with r := { s.cx.r with pc := s.cx.r.pc + 8 }, prog := stored s.cx.prog t.cx.prog.scratch } ∧
      (∀ k, k < n → scrByte t (a + k) = ((sv s o.r) >>> (8 * k)).setWidth 8) ∧ SameOutside s t a n
  ∀ o : SM, store (.sst8 o) (.sst8 o) o 1 ∧ store (.sst16 o) (.sst16 o) o 2 ∧ store (.sst32 o) (.sst32 o) o 4 ∧ store (.sst64 o) (.sst64 o) o 8

/-- 05 R106, 03 R47: `fset` writes one field of the shadow of one form, in both variants; a value outside its range traps with ILLEGAL_FORM. 05 R107:
`vrot` sets the region of a file and its rotation count to 0; a base that is no multiple of 16 traps; a name at or above the base is mapped. It rests
on the model's own readings of log entry 11. -/
def Obligations.Forms : Prop :=
  (let write := fun (i : Instr) (y : SSyl) (slot : BitVec 3) (form fld : BitVec 2) (v : State → Int) =>
     ∀ s, Ready s (.s y) →
       let ok := (fld = 0 ∧ 1 ≤ v s ∧ v s ≤ 16) ∨ (fld = 1 ∧ 1 ≤ v s ∧ v s ≤ 64) ∨ (fld = 2 ∧ -2048 ≤ v s ∧ v s ≤ 2047) ∨
         (fld = 3 ∧ -(2 ^ 31) ≤ v s ∧ v s < 2 ^ 31)
       let k := formIdx slot.toNat form.toNat + 1
       (ok → ∃ t, exec i s = .next t ∧
         Leaves s t { s.cx with r := { s.cx.r with pc := s.cx.r.pc + 8 }, ctl := { s.cx.ctl with forms := t.cx.ctl.forms } } ∧ SameMemory s t ∧
         (∀ j, j ≠ k → t.cx.ctl.forms[j]? = s.cx.ctl.forms[j]?) ∧
         let w := formWord s.cx.ctl k
         let w' := formWord t.cx.ctl k
         ((formRows w' : Int) = if fld = 0 then v s else formRows w) ∧ ((formCols w' : Int) = if fld = 1 then v s else formCols w) ∧
         (formStep w' = if fld = 2 then v s else formStep w) ∧ (formAstep w' = if fld = 3 then v s else formAstep w)) ∧
       (¬ ok → Traps i s 0x04 0 0)
   (∀ o : SF, write (.fset o) (.fset o) o.slot o.form o.fld fun _ => o.imm.toInt) ∧
   ∀ o : SFR, write (.fsetReg o) (.fsetReg o) o.slot o.form o.fld fun s => (sv s o.s).toInt) ∧
  ((∀ (o : SV) s, Ready s (.s (.vrot o)) →
     (o.base.toNat % 16 = 0 → ∃ t, exec (.vrot o) s = .next t ∧ SameMemory s t ∧ Leaves s t
       (if o.file = 0 then { s.cx with r := { s.cx.r with pc := s.cx.r.pc + 8 }, va := { s.cx.va with base := o.base, rot := 0 } }
        else { s.cx with r := { s.cx.r with pc := s.cx.r.pc + 8 }, vb := { s.cx.vb with base := o.base, rot := 0 } })) ∧
     (o.base.toNat % 16 ≠ 0 → Traps (.vrot o) s 0x04 0 0)) ∧
   ∀ (f : VFile) n, f.rot.toNat < 2048 - f.base.toNat → n < 2048 →
     (f.base = 0 → phys f n = n) ∧ (f.base ≠ 0 → n < f.base.toNat → phys f n = n) ∧
     (f.base ≠ 0 → f.base.toNat ≤ n →
       (phys f n : Int) = f.base.toNat + ((n : Int) - f.base.toNat - f.rot.toNat) % (2048 - f.base.toNat)))

/-- 05 R108: `cpy` into and out of the b, l, d, e and vector files. -/
def Obligations.FileCopies : Prop :=
  (∀ (o : SX) s, Ready s (.s (.cpyFromS o)) →
    (o.file = 0 → ∃ t, exec (.cpyFromS o) s = .next t ∧ SameMemory s t ∧
      Leaves s t { s.cx with r := { s.cx.r with pc := s.cx.r.pc + 8, b := cellSet s.cx.r.b o.reg.toNat ((sv s o.s).setWidth 32) } }) ∧
    (o.file = 2 → pendingOf s.cx .a o.reg.toNat = none → ∃ t, exec (.cpyFromS o) s = .next t ∧ SameMemory s t ∧
      Leaves s t { s.cx with r := { s.cx.r with pc := s.cx.r.pc + 8, d := cellSet s.cx.r.d o.reg.toNat (sv s o.s) } }) ∧
    (o.file = 3 → pendingOf s.cx .b o.reg.toNat = none → ∃ t, exec (.cpyFromS o) s = .next t ∧ SameMemory s t ∧
      Leaves s t { s.cx with r := { s.cx.r with pc := s.cx.r.pc + 8, e := cellSet s.cx.r.e o.reg.toNat (sv s o.s) } }) ∧
    (∀ sd, o.file = (if sd = Side.a then 4 else 5) → AllPresent s → ∃ t, exec (.cpyFromS o) s = .next t ∧ SameMemory s t ∧
      Leaves s t { setVFile s.cx sd { vfile s.cx sd with rows := (vfile t.cx sd).rows } with r := { s.cx.r with pc := s.cx.r.pc + 8 } } ∧
      (∀ l, l < 64 → lane 32 (rowGet t.cx sd (phys (vfile s.cx sd) o.reg.toNat)) l = (sv s o.s).setWidth 32) ∧
      ∀ n, n ≠ phys (vfile s.cx sd) o.reg.toNat → rowGet t.cx sd n = rowGet s.cx sd n)) ∧
  ∀ (o : SX) s, Ready s (.s (.cpyToS o)) → ∀ v : W64,
    ((o.file = 0 ∧ v = (bGet s.cx.r o.reg.toNat).setWidth 64) ∨
     (o.file = 1 ∧ o.reg.toNat % 4 = 0 ∧ v = (loopGet s.cx.r (o.reg.toNat / 4)).count.setWidth 64) ∨
     (o.file = 1 ∧ o.reg.toNat % 4 = 1 ∧ v = (loopGet s.cx.r (o.reg.toNat / 4)).stages.setWidth 64) ∨
     (o.file = 1 ∧ o.reg.toNat % 4 = 2 ∧ v = .ofNat 64 ((loopGet s.cx.r (o.reg.toNat / 4)).iter % 2 ^ 32)) ∨
     (o.file = 2 ∧ pendingOf s.cx .a o.reg.toNat = none ∧ v = cellGet s.cx.r.d o.reg.toNat) ∨
     (o.file = 3 ∧ pendingOf s.cx .b o.reg.toNat = none ∧ v = cellGet s.cx.r.e o.reg.toNat) ∨
     (o.file = 4 ∧ AllPresent s ∧ v = (lane 32 (rowGet s.cx .a (phys s.cx.va o.reg.toNat)) 0).signExtend 64) ∨
     (o.file = 5 ∧ AllPresent s ∧ v = (lane 32 (rowGet s.cx .b (phys s.cx.vb o.reg.toNat)) 0).signExtend 64)) →
    ∃ t, exec (.cpyToS o) s = .next t ∧ Leaves s t { s.cx with r := { sSet s.cx.r o.s.toNat v with pc := s.cx.r.pc + 8 } } ∧ SameMemory s t

/-- 05 R110, 13 R292: `mov` reads every system register, kernel ones in either mode, the monitor's own in the monitor; only the s register changes.
05 R110, 01 R8, 13 R292: `mov` writes each system register as its fields' access codes allow. It rests on the model's own readings of log entry 29. -/
def Obligations.SystemRegisters : Prop :=
  (let rd := fun (n : Nat) (H : State → Prop) (P : State → W64 → Prop) => ∀ (o : SY) s, o.n.toNat = n → Ready s (.s (.movFromSys o)) → H s →
     ∃ t v, exec (.movFromSys o) s = .next t ∧ P s v ∧ Leaves s t { s.cx with r := { sSet s.cx.r o.s.toNat v with pc := s.cx.r.pc + 8 } } ∧ SameMemory s t
   let is := fun (f : State → W64) (s : State) (v : W64) => v = f s
   let any := fun (_ : State) => True
   let mon := fun (s : State) => s.cx.mon.active = true
   rd 0x00 any (is fun s => s.cx.sys.fflags.setWidth 64) ∧
   rd 0x01 any (fun s v =>
     v.getLsbD 0 = s.cx.m.t0.sat ∧ v.getLsbD 1 = s.cx.m.t0.lost ∧ v.extractLsb' 2 2 = 0 ∧ v.getLsbD 4 = s.cx.m.t1.sat ∧ v.getLsbD 5 = s.cx.m.t1.lost ∧
     v.extractLsb' 6 2 = s.cx.m.t0.mode ∧ v.extractLsb' 8 2 = s.cx.m.t1.mode ∧ v.extractLsb' 10 6 = 0 ∧ v.extractLsb' 16 11 = s.cx.m.t0.anchor ∧
     v.extractLsb' 27 5 = 0 ∧ v.extractLsb' 32 11 = s.cx.m.t1.anchor ∧ v.extractLsb' 43 21 = 0) ∧
   rd 0x02 any (is fun s => s.cx.sys.pthresh.setWidth 64) ∧
   rd 0x03 any (is fun s => if s.cx.mon.active then s.cx.mon.mrpt.setWidth 64 else 0) ∧
   rd 0x04 any (fun s v => v.getLsbD 63 = s.cx.ctl.dictLoaded ∧ v.extractLsb' 18 45 = 0 ∧ v.extractLsb' 6 12 = s.cx.ctl.dictOff ∧ v.extractLsb' 0 6 = 0) ∧
   rd 0x05 any (is fun s => s.cx.ctl.imap) ∧
   rd 0x08 any (is fun s => s.cx.va.key.extractLsb' 0 64) ∧ rd 0x09 any (is fun s => s.cx.va.key.extractLsb' 64 64) ∧
   rd 0x0A any (is fun s => s.cx.va.ctr.extractLsb' 0 64) ∧ rd 0x0B any (is fun s => s.cx.va.ctr.extractLsb' 64 64) ∧
   rd 0x0C any (is fun s => s.cx.vb.key.extractLsb' 0 64) ∧ rd 0x0D any (is fun s => s.cx.vb.key.extractLsb' 64 64) ∧
   rd 0x0E any (is fun s => s.cx.vb.ctr.extractLsb' 0 64) ∧ rd 0x0F any (is fun s => s.cx.vb.ctr.extractLsb' 64 64) ∧
   rd 0x10 any (is fun s => s.cx.con.c0.tid.setWidth 64) ∧ rd 0x12 any (is fun s => s.cx.con.c1.tid.setWidth 64) ∧
   rd 0x11 any (is fun s => ((s.cx.con.c0.xfers.head?.map (·.tid)).getD (s.cx.con.c0.tid + 1)).setWidth 64) ∧
   rd 0x13 any (is fun s => ((s.cx.con.c1.xfers.head?.map (·.tid)).getD (s.cx.con.c1.tid + 1)).setWidth 64) ∧
   rd 0x14 any (is fun s => s.cx.m.mpa) ∧ rd 0x15 any (is fun s => s.cx.m.mpb) ∧ rd 0x16 any (is fun s => s.cx.m.mpd) ∧
   rd 0x17 any (is fun s => s.cx.m.rowprog.setWidth 64) ∧ rd 0x18 any (is fun s => s.cx.sys.sfsel.setWidth 64) ∧
   rd 0x19 any (is fun s => (cellGet s.cx.sys.tags s.cx.sys.sfsel.toNat).setWidth 64) ∧
   rd 0x1A any (fun s v => v.extractLsb' 0 11 = s.cx.va.base ∧ v.extractLsb' 11 5 = 0 ∧ v.extractLsb' 16 11 = s.cx.va.rot ∧ v.extractLsb' 27 37 = 0) ∧
   rd 0x1B any (fun s v => v.extractLsb' 0 11 = s.cx.vb.base ∧ v.extractLsb' 11 5 = 0 ∧ v.extractLsb' 16 11 = s.cx.vb.rot ∧ v.extractLsb' 27 37 = 0) ∧
   (∀ k, k < 16 → rd (0x40 + k) any (is fun s => maskGet s.cx .a k) ∧ rd (0x50 + k) any (is fun s => maskGet s.cx .b k)) ∧
   rd 0x200 mon (is fun s => s.cx.mon.mcause.setWidth 64) ∧ rd 0x201 mon (is fun s => (s.cx.mon.mepc &&& 0x3FFFC).setWidth 64) ∧
   rd 0x202 mon (is fun s => s.cx.mon.mrpt.setWidth 64) ∧ rd 0x203 mon (is fun s => s.cx.mon.mtval) ∧
   rd 0x204 mon (fun s v => v.getLsbD 0 = s.cx.mon.dbg ∧ v.getLsbD 1 = s.cx.mon.esc ∧ v.extractLsb' 2 62 = 0) ∧ rd 0x205 mon (is fun _ => 0x3C000) ∧
   rd 0x220 mon (fun s v => v.extractLsb' 0 8 = s.cx.mon.ctxCode ∧ v.getLsbD 8 = s.cx.mon.ctxBusy ∧ v.extractLsb' 9 55 = 0) ∧
   (∀ k, k < 8 → rd (0x208 + k) mon (is fun s => (s.cx.mon.mscratch[k]?).getD 0)) ∧
   (∀ k, k < 4 → rd (0x210 + k) mon (is fun s => (s.cx.mon.wpaddr[k]?).getD 0) ∧ rd (0x214 + k) mon (is fun s => (s.cx.mon.wpmask[k]?).getD 0)) ∧
   ∀ (o : SY) s, 0x200 ≤ o.n.toNat → Ready s (.s (.movFromSys o)) → s.cx.mon.active = false → Traps (.movFromSys o) s 0x0A 0 0) ∧
  (let wr := fun (n : Nat) (H : State → W64 → Prop) (f : Ctx → W64 → Ctx) => ∀ (o : SY) s, o.n.toNat = n → Ready s (.s (.movToSys o)) → H s (sv s o.s) →
     ∃ t, exec (.movToSys o) s = .next t ∧ Leaves s t { f s.cx (sv s o.s) with r := { s.cx.r with pc := s.cx.r.pc + 8 } } ∧ SameMemory s t
   let any := fun (_ : State) (_ : W64) => True
   let mon := fun (s : State) (_ : W64) => s.cx.mon.active = true
   let rot := fun (_ : State) (v : W64) => let b := v.extractLsb' 0 11; let r := v.extractLsb' 16 11
     b.toNat % 16 = 0 ∧ (b = 0 → r = 0) ∧ (b ≠ 0 → r.toNat < 2048 - b.toNat)
   wr 0x00 any (fun x v => { x with sys := { x.sys with fflags := x.sys.fflags &&& ~~~(v.setWidth 5) } }) ∧
   wr 0x01 any (fun x v =>
     let t0 := { x.m.t0 with sat := x.m.t0.sat && !(v.getLsbD 0), lost := x.m.t0.lost && !(v.getLsbD 1) }
     let t1 := { x.m.t1 with sat := x.m.t1.sat && !(v.getLsbD 4), lost := x.m.t1.lost && !(v.getLsbD 5) }
     { x with m := { x.m with t0 := t0, t1 := t1 } }) ∧
   wr 0x02 any (fun x v => { x with sys := { x.sys with pthresh := v.setWidth 32 } }) ∧
   (∀ n ∈ [0x03, 0x05, 0x10, 0x11, 0x12, 0x13, 0x17], wr n any fun x _ => x) ∧
   wr 0x08 any (fun x v => { x with va := { x.va with key := x.va.key.extractLsb' 64 64 ++ v } }) ∧
   wr 0x09 any (fun x v => { x with va := { x.va with key := v ++ x.va.key.extractLsb' 0 64 } }) ∧
   wr 0x0A any (fun x v => { x with va := { x.va with ctr := x.va.ctr.extractLsb' 64 64 ++ v } }) ∧
   wr 0x0B any (fun x v => { x with va := { x.va with ctr := v ++ x.va.ctr.extractLsb' 0 64 } }) ∧
   wr 0x0C any (fun x v => { x with vb := { x.vb with key := x.vb.key.extractLsb' 64 64 ++ v } }) ∧
   wr 0x0D any (fun x v => { x with vb := { x.vb with key := v ++ x.vb.key.extractLsb' 0 64 } }) ∧
   wr 0x0E any (fun x v => { x with vb := { x.vb with ctr := x.vb.ctr.extractLsb' 64 64 ++ v } }) ∧
   wr 0x0F any (fun x v => { x with vb := { x.vb with ctr := v ++ x.vb.ctr.extractLsb' 0 64 } }) ∧
   wr 0x14 any (fun x v => { x with m := { x.m with mpa := v } }) ∧ wr 0x15 any (fun x v => { x with m := { x.m with mpb := v } }) ∧
   wr 0x16 any (fun x v => { x with m := { x.m with mpd := v } }) ∧ wr 0x18 any (fun x v => { x with sys := { x.sys with sfsel := v.setWidth 9 } }) ∧
   wr 0x19 any (fun x v => { x with sys := { x.sys with tags := cellSet x.sys.tags x.sys.sfsel.toNat (v.setWidth 8) } }) ∧
   wr 0x1A rot (fun x v => { x with va := { x.va with base := v.extractLsb' 0 11, rot := v.extractLsb' 16 11 } }) ∧
   wr 0x1B rot (fun x v => { x with vb := { x.vb with base := v.extractLsb' 0 11, rot := v.extractLsb' 16 11 } }) ∧
   (∀ k, k < 16 → wr (0x40 + k) any (fun x v => maskSet x .a k v) ∧ wr (0x50 + k) any (fun x v => maskSet x .b k v)) ∧
   (∀ n ∈ [0x200, 0x203, 0x204, 0x205, 0x220], wr n mon fun x _ => x) ∧
   wr 0x201 mon (fun x v => { x with mon := { x.mon with mepc := v.setWidth 18 &&& 0x3FFFC } }) ∧
   wr 0x202 mon (fun x v => { x with mon := { x.mon with mrpt := v.setWidth 4 } }) ∧
   (∀ k, k < 8 → wr (0x208 + k) mon fun x v => { x with mon := { x.mon with mscratch := x.mon.mscratch.setIfInBounds k v } }) ∧
   (∀ k, k < 4 → wr (0x210 + k) mon (fun x v => { x with mon := { x.mon with wpaddr := x.mon.wpaddr.setIfInBounds k v } }) ∧
     wr (0x214 + k) mon fun x v => { x with mon := { x.mon with wpmask := x.mon.wpmask.setIfInBounds k v } }) ∧
   ∀ (o : SY) s, Ready s (.s (.movToSys o)) →
     (0x200 ≤ o.n.toNat → s.cx.mon.active = false → Traps (.movToSys o) s 0x0A 0 0) ∧ (o.n = 4 → Traps (.movToSys o) s 0x0A 0 0) ∧
     (o.n = 0x1A ∨ o.n = 0x1B → ¬ rot s (sv s o.s) → Traps (.movToSys o) s 0x04 0 0))

/-- 13 R289: entering the monitor sets %mcause, %mepc, %mrpt and %mtval, exchanges s48-s63 and the sticky records with the monitor's bank and sets
the pc to 0x3_C000; everything else stays. 13 R289, R288: a fault in monitor code does not enter the monitor again: it escalates, with its cause in
%mcause, and the context waits for the firmware's answer. It rests on the model's own readings of log entry 12. -/
def Obligations.TrapEntry : Prop :=
  (∀ s (t : Trap), s.cx.mon.active = false → t.dropFail = none → t.staged = none →
     let u := takeTrap s s.cid t
     u = { s with cx := u.cx } ∧
     Entered s.cx u.cx (.ofNat 13 (t.code.toNat + 256 * (t.slot.getD 0 % 8) + (if t.chan = some .b then 2048 else 0) + (if isPrim s s.cid then 0 else 4096)))
       t.val s.cx.r.pc s.cx.ctl.rptidx) ∧
  (∀ s (t : Trap), s.cx.mon.active = true → t.dropFail = none → t.staged = none →
     let u := takeTrap s s.cid t
     u.cx.r = s.cx.r ∧ u.cx.mon.active = true ∧ u.cx.mon.esc = true ∧ u.cx.mon.mcause.extractLsb' 0 8 = t.code ∧ u.cx.mon.mtval = t.val ∧
       u.cx.run.hold = some (.esc 0 true) ∧ u.mem = s.mem ∧ u.others = s.others ∧ u.clusters = s.clusters ∧
       ∃ e, u.fw = { s.fw with escLog := s.fw.escLog ++ [e] } ∧ e.2.2.1 = t.val)

/-- 13 R287, R288, R289: `trap` commits its bundle and enters the monitor with the following bundle's address; in the monitor it acts as `esc` with
s0; `esc` waits for the firmware; `mret` exchanges the banks back and resumes. 13 R286: a monitor-only instruction issued by kernel code traps with
PERMISSION and does nothing. -/
def Obligations.MonitorCalls : Prop :=
  ((∀ (o : SC) s, Ready s (.s (.trap o)) → s.cx.mon.active = false → ∃ t, exec (.trap o) s = .next t ∧ t = { s with cx := t.cx } ∧
     Entered { s.cx with ctl := (loneView s (.s (.trap o))).ctl } t.cx (.ofNat 13 (0x28 + (if isPrim s s.cid then 0 else 4096))) (o.n.setWidth 64) (s.cx.r.pc + 8) 0) ∧
   (∀ (o : SC) s, Ready s (.s (.trap o)) → s.cx.mon.active = true → ∃ t, exec (.trap o) s = .next t ∧ t.cx.r = { s.cx.r with pc := s.cx.r.pc + 8 } ∧
     t.cx.mon = { s.cx.mon with esc := true } ∧ t.cx.run.hold = some (.esc 0 false) ∧ t.mem = s.mem ∧
     t.fw = { s.fw with escLog := s.fw.escLog ++ [(s.cx.mon.mcause.setWidth 64, s.cx.mon.mepc.setWidth 64, s.cx.mon.mtval, 0)] }) ∧
   (∀ (o : SS) s, Ready s (.s (.esc o)) → s.cx.mon.active = true → ∃ t, exec (.esc o) s = .next t ∧ t.cx.r = { s.cx.r with pc := s.cx.r.pc + 8 } ∧
     t.cx.mon = { s.cx.mon with esc := true } ∧ t.cx.run.hold = some (.esc o.s false) ∧ t.mem = s.mem ∧
     t.fw = { s.fw with escLog := s.fw.escLog ++ [(s.cx.mon.mcause.setWidth 64, s.cx.mon.mepc.setWidth 64, s.cx.mon.mtval, sv s o.s)] }) ∧
   ∀ (o : SG) s, Ready s (.s (.mret o)) → s.cx.mon.active = true → ∃ t, exec (.mret o) s = .next t ∧ t = { s with cx := t.cx } ∧
     Returned { s.cx with ctl := (loneView s (.s (.mret o))).ctl } t.cx) ∧
  (∀ s, s.cx.mon.active = false →
     (∀ o, Ready s (.s (.esc o)) → Traps (.esc o) s 0x0A 0 0) ∧ (∀ o, Ready s (.s (.mret o)) → Traps (.mret o) s 0x0A 0 0) ∧
     (∀ o, Ready s (.s (.ctxsave o)) → Traps (.ctxsave o) s 0x0A 0 0) ∧ (∀ o, Ready s (.s (.ctxrest o)) → Traps (.ctxrest o) s 0x0A 0 0) ∧
     (∀ o, Ready s (.s (.ctxsw o)) → Traps (.ctxsw o) s 0x0A 0 0) ∧ (∀ o, Ready s (.s (.wpset o)) → Traps (.wpset o) s 0x0A 0 0) ∧
     (∀ o, Ready s (.s (.wpclr o)) → Traps (.wpclr o) s 0x0A 0 0))

/-- 13 R286, R290, R291, 18 R342, R343: the system instructions that leave the context running. It rests on the model's own readings of log entry 48. -/
def Obligations.SystemInstructions : Prop :=
  let next := fun (s : State) => { s.cx.r with pc := s.cx.r.pc + 8 }
  (∀ (o : SG) s, Ready s (.s (.yield o)) → ∃ t, exec (.yield o) s = .next t ∧ SameMemory s t ∧
    Leaves s t { s.cx with r := next s, prog := { s.cx.prog with yielded := true } }) ∧
  (∀ (o : SY), WritesS (.pmq o) (.pmq o) o.s fun s v =>
    let u := match o.n.toNat / 4096 with | 0 => o.n.toNat | 1 => 512 + o.n.toNat % 4096 | 2 => 640 + o.n.toNat % 4096 | _ => 768 + o.n.toNat % 4096
    (u ∉ s.cx.prog.footprint → v = 3) ∧ (u ∈ s.cx.prog.footprint → u ∈ s.cx.prog.absent → v = 1) ∧ (u ∈ s.cx.prog.footprint → u ∉ s.cx.prog.absent → v = 0)) ∧
  (∀ (o : SC) s, Ready s (.s (.pmpull o)) → ∃ t, exec (.pmpull o) s = .next t ∧ t.cx.r = next s ∧ t.mem = s.mem ∧ t.cx.prog.absent = s.cx.prog.absent ∧
    let u := match o.n.toNat / 4096 with | 0 => o.n.toNat | 1 => 512 + o.n.toNat % 4096 | 2 => 640 + o.n.toNat % 4096 | _ => 768 + o.n.toNat % 4096
    (u ∉ s.cx.prog.footprint ∨ u ∉ s.cx.prog.absent → t.clusters = s.clusters) ∧
    (u ∈ s.cx.prog.footprint → u ∈ s.cx.prog.absent → ∃ j ∈ (getCl t (ctxCl s.cid)).hoist, j.kind = 0 ∧ j.ctx = s.cid ∧ j.unit = u)) ∧
  (∀ (o : SS) s, Ready s (.s (.ctxsave o)) → s.cx.mon.active = true → ∃ t, exec (.ctxsave o) s = .next t ∧ SameMemory s t ∧
    Leaves s t { s.cx with r := next s, mon := { s.cx.mon with ctxBusy := true, ctxReq := some (false, sv s o.s) } }) ∧
  (∀ (o : SS) s, Ready s (.s (.ctxrest o)) → s.cx.mon.active = true → ∃ t, exec (.ctxrest o) s = .next t ∧ SameMemory s t ∧
    Leaves s t { s.cx with r := next s, mon := { s.cx.mon with ctxBusy := true, ctxReq := some (true, sv s o.s) } }) ∧
  (∀ (o : SG) s, Ready s (.s (.ctxsw o)) → s.cx.mon.active = true → isPrim s s.cid = true → Traps (.ctxsw o) s 0x0A 0 0) ∧
  (∀ (o : SG) s, Quiet s → guardOn s.cx.r o.g = true → s.cx.mon.active = true → isPrim s s.cid = true →
    let c := otherSlot s.cid
    (getCtx s c).run.state ≠ .empty → (getCtx s c).prog.tenant = s.cx.prog.tenant → ∃ t, exec (.ctxsw o) s = .next t ∧ t.cx.r = next s ∧ t.mem = s.mem ∧
      t.clusters = s.clusters ∧ getCtx t c = { getCtx s c with prog := { (getCtx s c).prog with starved := true } }) ∧
  (∀ (o : SC) s, Ready s (.s (.dstop o)) → ∃ t, exec (.dstop o) s = .next t ∧ SameMemory s t ∧ Leaves s t { s.cx with r := next s } ∧
    t.cx.run.dstop = if s.cx.mon.dbg then some o.n else none) ∧
  (∀ (o : SN) s, Ready s (.s (.wpset o)) → s.cx.mon.active = true → ∃ t, exec (.wpset o) s = .next t ∧ SameMemory s t ∧
    let w : Watch := { addr := (s.cx.mon.wpaddr[o.n.toNat]?).getD 0, mask := (s.cx.mon.wpmask[o.n.toNat]?).getD 0, armed := true }
    Leaves s t { s.cx with r := next s, mon := { s.cx.mon with watch := s.cx.mon.watch.setIfInBounds o.n.toNat w } }) ∧
  (∀ (o : SN) s, Ready s (.s (.wpclr o)) → s.cx.mon.active = true → ∃ t, exec (.wpclr o) s = .next t ∧ SameMemory s t ∧
    Leaves s t { s.cx with r := next s, mon := { s.cx.mon with watch := t.cx.mon.watch } } ∧
    (∀ w, t.cx.mon.watch[o.n.toNat]? = some w → w.armed = false) ∧ ∀ k, k ≠ o.n.toNat → t.cx.mon.watch[k]? = s.cx.mon.watch[k]?) ∧
  (∀ o : SS, WritesSVal (.rdtick o) (.rdtick o) o.s fun s => .ofNat 64 (10 * s.now / 19)) ∧
  ∀ o : SS, WritesSVal (.rdcyc o) (.rdcyc o) o.s fun s => .ofNat 64 s.cx.run.cyc

/-- 05 R109, 10 R212: `wdone` on a complete transfer passes; on one not issued it traps with ILLEGAL_FORM; on an incomplete one the context waits; a
failure recorded for it, or for an older one, is reported as a trap at the `wdone`. -/
def Obligations.WaitDone : Prop :=
  ∀ (o : SW) s, Ready s (.s (.wdone o)) →
    let c := if o.ch = 0 then s.cx.con.c0 else s.cx.con.c1
    let u : W32 := (sv s o.s).setWidth 32
    let done : W32 := (c.xfers.head?.map (·.tid)).getD (c.tid + 1)
    let issued := (c.tid - u).toNat < 2 ^ 31
    let complete := 1 ≤ (done - u).toNat ∧ (done - u).toNat ≤ 2 ^ 31
    let bad := c.fails.find? fun f => decide ((u - f.1).toNat < 2 ^ 31)
    (¬ issued → Traps (.wdone o) s 0x04 0 0) ∧
    (issued → complete → bad = none → ∃ t, exec (.wdone o) s = .next t ∧ Leaves s t { s.cx with r := { s.cx.r with pc := s.cx.r.pc + 8 } } ∧ SameMemory s t) ∧
    (issued → ¬ complete → ∃ t, exec (.wdone o) s = .next t ∧ SameMemory s t ∧ t.cx.r = { s.cx.r with pc := s.cx.r.pc + 8 } ∧
      t.cx.run.hold = some (.wdone (if o.ch = 0 then .a else .b) u) ∧ t.cx.con = s.cx.con ∧ t.cx.run.heldPc = s.cx.r.pc) ∧
    ∀ f, issued → complete → bad = some f → s.cx.mon.active = false → ∃ t, exec (.wdone o) s = .next t ∧ t.cx.mon.active = true ∧
      t.cx.mon.mcause.extractLsb' 0 8 = f.2 ∧ t.cx.mon.mtval = f.1.setWidth 64 ∧ t.cx.r.pc = 0x3C000 ∧ t.cx.mon.mepc = s.cx.r.pc.setWidth 18 ∧
      t.cx.mon.mcause.getLsbD 11 = (o.ch == 1) ∧ f ∉ (if o.ch = 0 then t.cx.con.c0 else t.cx.con.c1).fails

/-- 05 R111: `br`, `call` and `ret` go to their targets; the target issues two cycles later than a following bundle would; a `call` on a full and a
`ret` on an empty return stack trap. 05 R115, R116, R117: `bset`, `bstep` and `qset` write their registers; `ifence` delays the next bundle by 12
cycles. -/
def Obligations.BranchesAndPredicates : Prop :=
  (let target := fun (s : State) (off : BitVec 20) => s.cx.r.pc + off.signExtend 32 * 4
   (∀ (o : LB) s, Ready s (.l (.br o)) → ∃ t, exec (.br o) s = .next t ∧ SameMemory s t ∧ t.cx.run.gap = 2 ∧
     Leaves s t { s.cx with r := { s.cx.r with pc := target s o.off } }) ∧
   (∀ (o : LB) s, Ready s (.l (.call o)) →
     (s.cx.r.rstack.length < 8 → ∃ t, exec (.call o) s = .next t ∧ SameMemory s t ∧ t.cx.run.gap = 2 ∧
       Leaves s t { s.cx with r := { s.cx.r with pc := target s o.off, rstack := s.cx.r.rstack ++ [s.cx.r.pc + 8] } }) ∧
     (8 ≤ s.cx.r.rstack.length → Traps (.call o) s 0x04 0 1)) ∧
   ∀ (o : SG) s, Ready s (.l (.ret o)) →
     (∀ l a, s.cx.r.rstack = l ++ [a] → ∃ t, exec (.ret o) s = .next t ∧ SameMemory s t ∧ t.cx.run.gap = 2 ∧
       Leaves s t { s.cx with r := { s.cx.r with pc := a, rstack := l } }) ∧
     (s.cx.r.rstack = [] → Traps (.ret o) s 0x04 0 1)) ∧
  ((∀ (o : LS) s, Ready s (.l (.bset o)) → ∃ t, exec (.bset o) s = .next t ∧ SameMemory s t ∧
     Leaves s t { s.cx with r := { s.cx.r with pc := s.cx.r.pc + 8, b := cellSet s.cx.r.b o.b.toNat (o.imm.signExtend 32) } }) ∧
   (∀ (o : LS) s, Ready s (.l (.bstep o)) → ∃ t, exec (.bstep o) s = .next t ∧ SameMemory s t ∧
     Leaves s t { s.cx with r := { s.cx.r with pc := s.cx.r.pc + 8, bstep := cellSet s.cx.r.bstep o.b.toNat (o.imm.signExtend 32) } }) ∧
   (∀ (o : LQ) s, Ready s (.l (.qset o)) → ∃ t, exec (.qset o) s = .next t ∧ SameMemory s t ∧
     Leaves s t { s.cx with r := { s.cx.r with pc := s.cx.r.pc + 8, q := o.q } }) ∧
   ∀ (o : SG) s, Ready s (.l (.ifence o)) → ∃ t, exec (.ifence o) s = .next t ∧ SameMemory s t ∧ t.cx.run.gap = 12 ∧
     Leaves s t { s.cx with r := { s.cx.r with pc := s.cx.r.pc + 8 } })

/-- 05 R112: `loop` starts its loop at the next bundle with its stage predicates; a count of 2^32 or more traps. 05 R113, R114: `lend` rotates the
regions, steps the bases, counts the pass, and goes back to the start at no cost or ends the loop; `lexit` makes the next `lend` end it; both trap on
an inactive loop. -/
def Obligations.Loops : Prop :=
  (let starts := fun (s t : State) (n cnt stages : Nat) =>
     SameMemory s t ∧ Leaves s t { s.cx with r := { s.cx.r with pc := s.cx.r.pc + 8, loops := t.cx.r.loops, q := t.cx.r.q } } ∧
     (∀ k, k ≠ n → loopGet t.cx.r k = loopGet s.cx.r k) ∧
     (let l := loopGet t.cx.r n
      l.count.toNat = cnt ∧ l.stages.toNat = stages ∧ l.iter = 0 ∧ l.passes = (if 1 ≤ cnt then cnt + stages - 1 else 1) ∧
      l.start = s.cx.r.pc + 8 ∧ l.active = true ∧ l.exit = false) ∧
     ∀ j, j < 8 → qGet t.cx.r j = if j = 0 then decide (1 ≤ cnt) else if j < stages then false else qGet s.cx.r j
   (∀ (o : LI) s, Ready s (.l (.loopImm o)) → ∃ t, exec (.loopImm o) s = .next t ∧ starts s t o.l.toNat o.cnt.toNat (o.st.toNat + 1)) ∧
   ∀ (o : LP) s, Ready s (.l (.loop o)) →
     ((sv s o.s).toNat < 2 ^ 32 → ∃ t, exec (.loop o) s = .next t ∧ starts s t o.l.toNat (sv s o.s).toNat (o.st.toNat + 1)) ∧
     (2 ^ 32 ≤ (sv s o.s).toNat → Traps (.loop o) s 0x04 0 1)) ∧
  (let turned := fun (f : VFile) => if f.base = 0 then f else { f with rot := .ofNat 11 ((f.rot.toNat + 1) % (2048 - f.base.toNat)) }
   (∀ (o : LE) s, Ready s (.l (.lend o)) →
     let l := loopGet s.cx.r o.l.toNat
     let again : Bool := decide (l.iter + 1 < l.passes) && !l.exit
     (l.active = true → ∃ t, exec (.lend o) s = .next t ∧ SameMemory s t ∧ t.cx.run.gap = 0 ∧
       Leaves s t { s.cx with
         r := { s.cx.r with pc := if again then l.start else s.cx.r.pc + 8, b := t.cx.r.b, loops := t.cx.r.loops, q := t.cx.r.q }
         va := turned s.cx.va, vb := turned s.cx.vb } ∧
       (∀ k, k < 8 → bGet t.cx.r k = bGet s.cx.r k + cellGet s.cx.r.bstep k) ∧ (∀ k, k ≠ o.l.toNat → loopGet t.cx.r k = loopGet s.cx.r k) ∧
       loopGet t.cx.r o.l.toNat = { l with iter := l.iter + 1, active := again } ∧
       ∀ j, j < 8 → qGet t.cx.r j =
         if again && decide (j < l.stages.toNat) then (if j = 0 then decide (l.iter + 1 < l.count.toNat) else qGet s.cx.r (j - 1)) else qGet s.cx.r j) ∧
     (l.active = false → Traps (.lend o) s 0x04 0 1)) ∧
   ∀ (o : LE) s, Ready s (.l (.lexit o)) →
     let l := loopGet s.cx.r o.l.toNat
     (l.active = true → ∃ t, exec (.lexit o) s = .next t ∧ SameMemory s t ∧
       Leaves s t { s.cx with r := { s.cx.r with pc := s.cx.r.pc + 8, loops := t.cx.r.loops } } ∧
       loopGet t.cx.r o.l.toNat = { l with exit := true } ∧ ∀ k, k ≠ o.l.toNat → loopGet t.cx.r k = loopGet s.cx.r k) ∧
     (l.active = false → Traps (.lexit o) s 0x04 0 1))

/-- 03 R36: `dict` loads the 15 entries from 960 bytes of instruction space and records the offset; the next bundle waits 24 cycles more; kernel code
cannot load from the monitor's pages, and an unmapped byte traps. 05 R118, 10 R212, R216: `kend` ends the run of a context whose transfers are
complete, reports a recorded failure as a trap, waits otherwise, and traps while an unfinished kind 01 use is marked. -/
def Obligations.TemplateLoadAndRunEnd : Prop :=
  (∀ (o : LD) s, Ready s (.l (.dict o)) →
     let off := 64 * o.off.toNat
     let allowed := s.cx.mon.active = true ∨ off + 960 ≤ 0x3C000
     (¬ allowed → Traps (.dict o) s 0x0A (.ofNat 64 (max off 0x3C000)) 1) ∧
     (allowed → ∀ k, k < 960 → fetchByte s s.cid s.cx (off + k) = none → (∀ j, j < k → fetchByte s s.cid s.cx (off + j) ≠ none) →
       Traps (.dict o) s 0x08 (.ofNat 64 (off + k)) 1) ∧
     (allowed → (∀ k, k < 960 → fetchByte s s.cid s.cx (off + k) ≠ none) → ∃ t, exec (.dict o) s = .next t ∧ SameMemory s t ∧ t.cx.run.gap = 24 ∧
       Leaves s t { s.cx with r := { s.cx.r with pc := s.cx.r.pc + 8 }, ctl := { s.cx.ctl with tmpl := t.cx.ctl.tmpl, dictLoaded := true, dictOff := o.off } } ∧
       t.cx.ctl.tmpl.length = 15 ∧
       ∀ k e, t.cx.ctl.tmpl[k]? = some e → ∀ j, j < 64 → fetchByte s s.cid s.cx (off + 64 * k + j) = some (lane 8 e j))) ∧
  (∀ (o : SG) s, Ready s (.l (.kend o)) →
     let c := s.cx.con
     let idle := c.c0.xfers = [] ∧ c.c1.xfers = []
     (s.cx.prog.kind01 = true → Traps (.kend o) s 0x04 0 1) ∧
     (s.cx.prog.kind01 = false → idle → c.c0.fails = [] → c.c1.fails = [] → ∃ t, exec (.kend o) s = .next t ∧ getCtx t s.cid = {} ∧ t.mem = s.mem ∧
       t.others = s.others ∧ t.clusters = s.clusters ∧ (getCore t s.cid.core.toNat).left.head? = some (s.cid.sec, s.cx.prog.region, c) ∧
       (isPrim s s.cid = true → (getCore t s.cid.core.toNat).vacant = true) ∧
       ∀ e, s.cx.prog.entry = some e → (getEntry t e).state = .commit ∧
         ∀ k, findKernel s s.cx.prog.region s.cx.prog.kernel = some k → (getEntry t e).out = outputTiles s.cx k) ∧
     (s.cx.prog.kind01 = false → ¬ idle → ∃ t, exec (.kend o) s = .next t ∧ SameMemory s t ∧ t.cx.r = { s.cx.r with pc := s.cx.r.pc + 8 } ∧
       t.cx.run.hold = some .kend ∧ t.cx.con = c ∧ t.cx.run.heldPc = s.cx.r.pc) ∧
     ∀ ch f, s.cx.prog.kind01 = false → idle → s.cx.mon.active = false → (if ch = Side.a then c.c0.fails.head? = some f else c.c0.fails = [] ∧ c.c1.fails.head? = some f) →
       ∃ t, exec (.kend o) s = .next t ∧ t.cx.mon.active = true ∧ t.cx.mon.mcause.extractLsb' 0 8 = f.2 ∧ t.cx.mon.mtval = f.1.setWidth 64 ∧ t.cx.r.pc = 0x3C000 ∧
         t.cx.mon.mepc = s.cx.r.pc.setWidth 18 ∧ t.cx.mon.mcause.getLsbD 11 = (ch == .b) ∧ f ∉ (chanOf t.cx ch).fails)

/-- 06 R142: the K slot writes one scale latch: 128 bytes, the scale bytes of 128 records of a panel, one byte everywhere, another latch. -/
def Obligations.ScaleLatches : Prop :=
  let sets := fun (s t : State) (x : Nat) (f : Nat → Byte) => SameMemory s t ∧
    Leaves s t { s.cx with r := { s.cx.r with pc := s.cx.r.pc + 8 }, m := { s.cx.m with latch := t.cx.m.latch } } ∧
    (∀ k, k < 128 → lane 8 (latchGet t.cx.m x) k = f k) ∧ ∀ y, y ≠ x → latchGet t.cx.m y = latchGet s.cx.m y
  (∀ (o : KL) s, Ready s (.k (.kld o)) →
    let a := (bGet s.cx.r o.b.toNat).toNat + 128 * o.off.toNat
    (a + 128 ≤ 0x200000 → UnitsPresent s [a / 4096, (a + 127) / 4096] → ∃ t, exec (.kld o) s = .next t ∧ sets s t o.x.toNat fun k => scrByte s (a + k)) ∧
    (0x200000 < a + 128 → Traps (.kld o) s 0x0D (.ofNat 64 a) 2)) ∧
  (∀ (o : KL) s, Ready s (.k (.kldp o)) →
    let b := (bGet s.cx.r o.b.toNat).toNat
    let code := (tagAt s.cx b).toNat / 4
    let z := if code = 0x18 then 17 else 33
    let at_ := fun p => let n := o.off.toNat * 128 + p; b + n / (4096 / z) * 4096 + n % (4096 / z) * z + (z - 1)
    let good := fun p => at_ p < 0x200000 ∧ tagAt s.cx (at_ p) = tagAt s.cx b
    let panel := b % 4096 = 0 ∧ b < 0x200000 ∧ (code = 0x18 ∨ code = 0x19)
    (b % 4096 ≠ 0 → Traps (.kldp o) s 0x0C (.ofNat 64 b) 2) ∧ (b % 4096 = 0 → 0x200000 ≤ b → Traps (.kldp o) s 0x0D (.ofNat 64 b) 2) ∧
    (b % 4096 = 0 → b < 0x200000 → code ≠ 0x18 → code ≠ 0x19 → Traps (.kldp o) s 0x0B (.ofNat 64 b) 2) ∧
    (panel → ∀ p, p < 128 → (∀ q, q < p → good q) → 0x200000 ≤ at_ p → Traps (.kldp o) s 0x0D (.ofNat 64 (at_ p)) 2) ∧
    (panel → ∀ p, p < 128 → (∀ q, q < p → good q) → at_ p < 0x200000 → tagAt s.cx (at_ p) ≠ tagAt s.cx b → Traps (.kldp o) s 0x0B (.ofNat 64 (at_ p)) 2) ∧
    (panel → (∀ p, p < 128 → good p) → AllPresent s → ∃ t, exec (.kldp o) s = .next t ∧ sets s t o.x.toNat fun p => scrByte s (at_ p))) ∧
  (∀ (o : KF) s, Ready s (.k (.kfill o)) → ∃ t, exec (.kfill o) s = .next t ∧ sets s t o.x.toNat fun _ => o.v) ∧
  ∀ (o : KC) s, Ready s (.k (.kcpy o)) → ∃ t, exec (.kcpy o) s = .next t ∧ sets s t o.x.toNat fun k => lane 8 (latchGet s.cx.m o.y.toNat) k

/-- 05 R121, R122, R124, 04 R71-R75: FP32 lanes; an operation that rounds does so once in its mode and raises its flags; a draw of the generator is
taken in stochastic mode only. 05 R124, R125: two 16-bit elements a lane, the even element with the first draw and the odd one with the second. -/
def Obligations.VectorFloats : Prop :=
  (∀ sd : Side,
     let n := fun (rm : BitVec 3) => if rm = 4 then 1 else 0
     let u := fun (rm : BitVec 3) (s : State) r l => drawU (genAt s sd (n rm) r) 0 l
     let one := fun (i : Instr) (y : VSyl) (o : VR) (f : Nat → Nat → Nat → Nat × BitVec 5) =>
       WritesLanes i sd y o.form o.mask.toNat o.vd (n o.rm) fun s r l => f o.rm.toNat (u o.rm s r l) (ln (vrowAt s sd o.vsa r) l)
     let two := fun (i : Instr) (y : VSyl) (o : VR) (f : Nat → Nat → Nat → Nat → Nat × BitVec 5) =>
       WritesLanes i sd y o.form o.mask.toNat o.vd (n o.rm) fun s r l => f o.rm.toNat (u o.rm s r l) (ln (vrowAt s sd o.vsa r) l) (ln (vrowAt s sd o.vsb r) l)
     let three := fun (i : Instr) (y : VSyl) (o : V3) (f : Nat → Nat → Nat → Nat → Nat → Nat × BitVec 5) =>
       WritesLanes i sd y o.form o.mask.toNat o.vd (n o.rm) fun s r l =>
         f o.rm.toNat (u o.rm s r l) (ln (vrowAt s sd o.vsa r) l) (ln (vrowAt s sd o.vsb r) l) (ln (vrowAt s sd o.vsc r) l)
     (∀ o : VR,
       two (.vaddF32 sd o) (.vaddF32 o) o (fadd fp32) ∧ two (.vsubF32 sd o) (.vsubF32 o) o (fsub fp32) ∧ two (.vmulF32 sd o) (.vmulF32 o) o (fmul fp32) ∧
       two (.vminF32 sd o) (.vminF32 o) o (fun _ _ x y => (fmin2 fp32 x y, 0)) ∧ two (.vmaxF32 sd o) (.vmaxF32 o) o (fun _ _ x y => (fmax2 fp32 x y, 0)) ∧
       one (.vabsF32 sd o) (.vabsF32 o) o (fun _ _ x => (if fisNan fp32 x then 0x7FC00000 else x % 2 ^ 31, 0)) ∧
       one (.vnegF32 sd o) (.vnegF32 o) o (fun _ _ x => (if fisNan fp32 x then 0x7FC00000 else (x + 2 ^ 31) % 2 ^ 32, 0)) ∧
       one (.vclassF32 sd o) (.vclassF32 o) o (fun _ _ x => (fclass x, 0)) ∧
       one (.vrecipF32 sd o) (.vrecipF32 o) o (special fp32 .recip) ∧ one (.vrsqrtF32 sd o) (.vrsqrtF32 o) o (special fp32 .rsqrt) ∧
       one (.vsqrtF32 sd o) (.vsqrtF32 o) o (special fp32 .sqrt) ∧ one (.vexp2F32 sd o) (.vexp2F32 o) o (special fp32 .exp2) ∧
       one (.vlog2F32 sd o) (.vlog2F32 o) o (special fp32 .log2) ∧ one (.vsinpiF32 sd o) (.vsinpiF32 o) o (special fp32 .sinpi) ∧
       one (.vcospiF32 sd o) (.vcospiF32 o) o (special fp32 .cospi) ∧
       one (.vcvtF32I32 sd o) (.vcvtF32I32 o) o ffromI32 ∧ one (.vcvtI32F32 sd o) (.vcvtI32F32 o) o ftoI32) ∧
     ∀ o : V3,
       three (.vfmaF32 sd o) (.vfmaF32 o) o (ffma fp32 false false) ∧ three (.vfmsF32 sd o) (.vfmsF32 o) o (ffma fp32 false true) ∧
       three (.vfnmaF32 sd o) (.vfnmaF32 o) o (ffma fp32 true false) ∧ three (.vsel sd o) (.vsel o) o (fun _ _ x y z => (if z = 0 then y else x, 0))) ∧
  (∀ sd : Side,
     let n := fun (rm : BitVec 3) => if rm = 4 then 2 else 0
     let two := fun (i : Instr) (y : VSyl) (o : VR) (f : Nat → Nat → Nat → Nat → Nat × BitVec 5) =>
       WritesLanes i sd y o.form o.mask.toNat o.vd (n o.rm) fun s r l =>
         let e := fun h => f o.rm.toNat (drawU (genAt s sd (n o.rm) r) h l) (ln16 (vrowAt s sd o.vsa r) l h) (ln16 (vrowAt s sd o.vsb r) l h)
         ((e 0).1 % 2 ^ 16 + 2 ^ 16 * ((e 1).1 % 2 ^ 16), (e 0).2 ||| (e 1).2)
     let one := fun (i : Instr) (y : VSyl) (o : VR) (f : Nat → Nat → Nat → Nat × BitVec 5) =>
       WritesLanes i sd y o.form o.mask.toNat o.vd (n o.rm) fun s r l =>
         let e := fun h => f o.rm.toNat (drawU (genAt s sd (n o.rm) r) h l) (ln16 (vrowAt s sd o.vsa r) l h)
         ((e 0).1 % 2 ^ 16 + 2 ^ 16 * ((e 1).1 % 2 ^ 16), (e 0).2 ||| (e 1).2)
     let three := fun (i : Instr) (y : VSyl) (o : V3) (f : Nat → Nat → Nat → Nat → Nat → Nat × BitVec 5) =>
       WritesLanes i sd y o.form o.mask.toNat o.vd (n o.rm) fun s r l =>
         let e := fun h => f o.rm.toNat (drawU (genAt s sd (n o.rm) r) h l) (ln16 (vrowAt s sd o.vsa r) l h) (ln16 (vrowAt s sd o.vsb r) l h) (ln16 (vrowAt s sd o.vsc r) l h)
         ((e 0).1 % 2 ^ 16 + 2 ^ 16 * ((e 1).1 % 2 ^ 16), (e 0).2 ||| (e 1).2)
     (∀ o : VR,
       two (.vaddBf16 sd o) (.vaddBf16 o) o (fadd bf16) ∧ two (.vsubBf16 sd o) (.vsubBf16 o) o (fsub bf16) ∧ two (.vmulBf16 sd o) (.vmulBf16 o) o (fmul bf16) ∧
       two (.vminBf16 sd o) (.vminBf16 o) o (fun _ _ x y => (fmin2 bf16 x y, 0)) ∧ two (.vmaxBf16 sd o) (.vmaxBf16 o) o (fun _ _ x y => (fmax2 bf16 x y, 0)) ∧
       two (.vaddF16 sd o) (.vaddF16 o) o (fadd fp16) ∧ two (.vsubF16 sd o) (.vsubF16 o) o (fsub fp16) ∧ two (.vmulF16 sd o) (.vmulF16 o) o (fmul fp16) ∧
       one (.vrecipBf16 sd o) (.vrecipBf16 o) o (special bf16 .recip) ∧ one (.vrsqrtBf16 sd o) (.vrsqrtBf16 o) o (special bf16 .rsqrt) ∧
       one (.vsqrtBf16 sd o) (.vsqrtBf16 o) o (special bf16 .sqrt) ∧ one (.vexp2Bf16 sd o) (.vexp2Bf16 o) o (special bf16 .exp2) ∧
       one (.vlog2Bf16 sd o) (.vlog2Bf16 o) o (special bf16 .log2) ∧ one (.vsinpiBf16 sd o) (.vsinpiBf16 o) o (special bf16 .sinpi) ∧
       one (.vcospiBf16 sd o) (.vcospiBf16 o) o (special bf16 .cospi)) ∧
     ∀ o : V3, three (.vfmaBf16 sd o) (.vfmaBf16 o) o (ffma bf16 false false) ∧ three (.vfmaF16 sd o) (.vfmaF16 o) o (ffma fp16 false false))

/-- 05 R126, R127: integer lanes: wrapping, high product, saturation, order, logic, shifts by a lane or an immediate. 05 R123, R125, R126, 06 R155:
compares write the bits of the active lanes of one mask, or of two for the even and the odd elements. -/
def Obligations.VectorIntegers : Prop :=
  (∀ (sd : Side) (o : VR),
     let two := fun (i : Instr) (y : VSyl) (f : W32 → W32 → W32) =>
       WritesWords i sd y o.form o.mask.toNat o.vd fun s r l => f (lane 32 (vrowAt s sd o.vsa r) l) (lane 32 (vrowAt s sd o.vsb r) l)
     let shift := fun (i : Instr) (y : VSyl) (f : W32 → Nat → W32) =>
       WritesWords i sd y o.form o.mask.toNat o.vd fun s r l =>
         f (lane 32 (vrowAt s sd o.vsa r) l) (if o.imm.getLsbD 8 then o.imm.toNat % 64 else (lane 32 (vrowAt s sd o.vsb r) l).toNat % 32)
     let sat := fun v : Int => BitVec.ofInt 32 (max (-(2 ^ 31)) (min (2 ^ 31 - 1) v))
     two (.vaddI32 sd o) (.vaddI32 o) (fun x y => x + y) ∧ two (.vsubI32 sd o) (.vsubI32 o) (fun x y => x - y) ∧
     two (.vmulI32 sd o) (.vmulI32 o) (fun x y => .ofNat 32 (x.toNat * y.toNat)) ∧
     two (.vmulhI32 sd o) (.vmulhI32 o) (fun x y => .ofInt 32 (x.toInt * y.toInt / 2 ^ 32)) ∧
     two (.vaddsI32 sd o) (.vaddsI32 o) (fun x y => sat (x.toInt + y.toInt)) ∧ two (.vsubsI32 sd o) (.vsubsI32 o) (fun x y => sat (x.toInt - y.toInt)) ∧
     two (.vminI32 sd o) (.vminI32 o) (fun x y => if x.toInt ≤ y.toInt then x else y) ∧ two (.vmaxI32 sd o) (.vmaxI32 o) (fun x y => if x.toInt ≤ y.toInt then y else x) ∧
     two (.vminN32 sd o) (.vminN32 o) (fun x y => if x.toNat ≤ y.toNat then x else y) ∧ two (.vmaxN32 sd o) (.vmaxN32 o) (fun x y => if x.toNat ≤ y.toNat then y else x) ∧
     two (.vand sd o) (.vand o) (· &&& ·) ∧ two (.vor sd o) (.vor o) (· ||| ·) ∧ two (.vxor sd o) (.vxor o) (· ^^^ ·) ∧
     shift (.vshl sd o) (.vshl o) (fun x c => x <<< c) ∧ shift (.vshr sd o) (.vshr o) (fun x c => x >>> c) ∧ shift (.vsra sd o) (.vsra o) (fun x c => x.sshiftRight c)) ∧
  (∀ (sd : Side) (o : VR),
     let one := fun (i : Instr) (y : VSyl) (f : Nat → Nat → Bool) => WritesMasks i sd y o 1 fun s _ l => f (ln (vrow s sd o.vsa) l) (ln (vrow s sd o.vsb) l)
     let pair := fun (i : Instr) (y : VSyl) (f : Nat → Nat → Bool) => WritesMasks i sd y o 2 fun s k l => f (ln16 (vrow s sd o.vsa) l k) (ln16 (vrow s sd o.vsb) l k)
     one (.vcmpeqF32 sd o) (.vcmpeqF32 o) (feq fp32) ∧ one (.vcmpltF32 sd o) (.vcmpltF32 o) (flt fp32) ∧ one (.vcmpleF32 sd o) (.vcmpleF32 o) (fle fp32) ∧
     one (.vcmpunF32 sd o) (.vcmpunF32 o) (fun x y => fisNan fp32 x || fisNan fp32 y) ∧
     one (.vcmpeqI32 sd o) (.vcmpeqI32 o) (fun x y => x == y) ∧
     one (.vcmpltI32 sd o) (.vcmpltI32 o) (fun x y => decide ((BitVec.ofNat 32 x).toInt < (BitVec.ofNat 32 y).toInt)) ∧
     one (.vcmpltN32 sd o) (.vcmpltN32 o) (fun x y => decide (x < y)) ∧
     pair (.vcmpeqBf16 sd o) (.vcmpeqBf16 o) (feq bf16) ∧ pair (.vcmpltBf16 sd o) (.vcmpltBf16 o) (flt bf16) ∧
     pair (.vpcmpP16 sd o) (.vpcmpP16 o) fun x y => o.imm.getLsbD
       (if 32768 ≤ x ∨ 32768 ≤ y then 4 else
         let d := (x + 32768 - y) % 32768
         if d = 0 then 0 else if d < 16384 then 1 else if d = 16384 then 2 else 3))

/-- 05 R128, R129, 06 R154, R158: widening, narrowing, quantizing, and the lane operations on phasors. -/
def Obligations.VectorConversions : Prop :=
  ∀ (sd : Side) (o : VR),
    let lanes := fun (i : Instr) (y : VSyl) (n : Nat) (f : State → Nat → Nat → Nat × BitVec 5) => WritesLanes i sd y o.form o.mask.toNat o.vd n f
    let a := fun (s : State) r l => ln (vrowAt s sd o.vsa r) l
    let b := fun (s : State) r l => ln (vrowAt s sd o.vsb r) l
    let u := fun (n : Nat) (s : State) r k l => drawU (genAt s sd n r) k l
    let widens := fun (i : Instr) (y : VSyl) (f : Fmt) (w : Nat) =>
      lanes i y 0 fun s r l => fput fp32 0 0 (fdec f (a s r l / 2 ^ (w * o.imm.toNat) % 2 ^ w))
    let narrows := fun (i : Instr) (y : VSyl) (f : Fmt) => lanes i y (if o.rm = 4 then 2 else 0) fun s r l =>
      let e := fput f o.rm.toNat (u 2 s r 0 l) (fdec fp32 (a s r l))
      let d := fput f o.rm.toNat (u 2 s r 1 l) (fdec fp32 (b s r l))
      (e.1 % 2 ^ 16 + 2 ^ 16 * (d.1 % 2 ^ 16), e.2 ||| d.2)
    let bytes := fun (i : Instr) (y : VSyl) (f : Fmt) => lanes i y (if o.rm = 4 then 1 else 0) fun s r l =>
      let z := fput f o.rm.toNat (u 1 s r 0 l) (fdec fp32 (a s r l))
      let old := ln (vrowAt s sd o.vd r) l
      let k := 2 ^ (8 * o.imm.toNat)
      (old / (256 * k) * (256 * k) + z.1 % 256 * k + old % k, z.2)
    widens (.vcvtF32Bf16 sd o) (.vcvtF32Bf16 o) bf16 16 ∧ widens (.vcvtF32F16 sd o) (.vcvtF32F16 o) fp16 16 ∧
    widens (.vcvtF32E4m3 sd o) (.vcvtF32E4m3 o) e4m3 8 ∧ widens (.vcvtF32E5m2 sd o) (.vcvtF32E5m2 o) e5m2 8 ∧
    narrows (.vcvtBf16F32 sd o) (.vcvtBf16F32 o) bf16 ∧ narrows (.vcvtF16F32 sd o) (.vcvtF16F32 o) fp16 ∧
    bytes (.vcvtE4m3F32 sd o) (.vcvtE4m3F32 o) e4m3 ∧ bytes (.vcvtE5m2F32 sd o) (.vcvtE5m2F32 o) e5m2 ∧
    lanes (.vquantQ4 sd o) (.vquantQ4 o) 0 (fun s r l => let z := quantRow false o.imm.toNat (vrowAt s sd o.vsa r); ((z.1[l]?).getD 0, z.2)) ∧
    lanes (.vquantQ8 sd o) (.vquantQ8 o) 0 (fun s r l => let z := quantRow true o.imm.toNat (vrowAt s sd o.vsa r); ((z.1[l]?).getD 0, z.2)) ∧
    lanes (.vdequantQ4 sd o) (.vdequantQ4 o) 0 (fun s r l =>
      let byte := fun k => (lane 8 (vrowAt s sd o.vsa r) (17 * (l / 32) + k)).toNat
      ((fput fp32 0 0 (dec4 (byte 16) (byte (l % 32 / 2) / 16 ^ (l % 2) % 16))).1, 0)) ∧
    lanes (.vpmulP16 sd o) (.vpmulP16 o) 0 (fun s r l => (elems 16 2 fun k => phMul 15 (bits (a s r l) (16 * k) 16) (bits (b s r l) (16 * k) 16), 0)) ∧
    lanes (.vpmulP8 sd o) (.vpmulP8 o) 0 (fun s r l => (elems 8 4 fun k => phMul 7 (bits (a s r l) (8 * k) 8) (bits (b s r l) (8 * k) 8), 0)) ∧
    lanes (.vpscP16 sd o) (.vpscP16 o) 0 (fun s r l => (phSc o.imm.toNat (a s r l), 0)) ∧
    lanes (.vpcvtP8 sd o) (.vpcvtP8 o) 0 fun s r l =>
      (if o.imm.getLsbD 0 then elems 16 2 fun k => phTo16 (bits (a s r l) (8 * (2 * (o.imm.toNat / 2) + k)) 8)
       else elems 8 4 fun k => phTo8 (bits (if k < 2 then a s r l else b s r l) (16 * (k % 2)) 16), 0)

/-- 05 R127, R130, R132, R133, R134: permutes, mask operations, the generator and the transfer between the files. -/
def Obligations.VectorPermutes : Prop :=
  ∀ (sd : Side) (o : VR),
    let words := fun (i : Instr) (y : VSyl) (f : (Nat → W32) → (Nat → W32) → Nat → W32) =>
      WritesWords i sd y o.form o.mask.toNat o.vd fun s r l => f (fun k => lane 32 (vrowAt s sd o.vsa r) k) (fun k => lane 32 (vrowAt s sd o.vsb r) k) l
    let masks := fun (i : Instr) (y : VSyl) (f : W64 → W64 → W64) =>
      ∀ s, VReady s sd y → ∃ t, exec i s = .next t ∧ SameMemory s t ∧
        Leaves s t (vAfter s sd y { vfile s.cx sd with masks := (vfile t.cx sd).masks } s.cx.sys.fflags) ∧
        maskGet t.cx sd o.vd.toNat = f (maskGet s.cx sd o.vsa.toNat) (maskGet s.cx sd o.vsb.toNat) ∧
        ∀ m, m ≠ o.vd.toNat → maskGet t.cx sd m = maskGet s.cx sd m
    words (.vperm sd o) (.vperm o) (fun a b l => a ((b l).toNat % 64)) ∧
    words (.vrotl sd o) (.vrotl o) (fun a b l => a ((l + if o.imm.getLsbD 8 then o.imm.toNat % 64 else (b 0).toNat % 64) % 64)) ∧
    words (.vbcast sd o) (.vbcast o) (fun a _ _ => a (o.imm.toNat % 64)) ∧
    words (.vzip sd o) (.vzip o) (fun a b l => (if l % 2 = 0 then a else b) (l / 2 + 32 * o.imm.toNat)) ∧
    words (.vunzip sd o) (.vunzip o) (fun a b l => if l < 32 then a (2 * l + o.imm.toNat) else b (2 * (l - 32) + o.imm.toNat)) ∧
    masks (.vmand sd o) (.vmand o) (· &&& ·) ∧ masks (.vmor sd o) (.vmor o) (· ||| ·) ∧ masks (.vmxor sd o) (.vmxor o) (· ^^^ ·) ∧
    masks (.vmnot sd o) (.vmnot o) (fun x _ => ~~~x) ∧
    WritesLanes (.vrng sd o) sd (.vrng o) o.form o.mask.toNat o.vd 1 (fun s r l => (rngWord (vfile s.cx sd).key.toNat (genAt s sd 1 r).ctr.toNat l, 0)) ∧
    WritesWords (.vxfer sd o) sd (.vxfer o) o.form o.mask.toNat o.vd (fun s r l => lane 32 (vrowAt s (otherSide sd) o.vsa r) l) ∧
    ∀ s, VReady s sd (.vrngset o) → ∃ t, exec (.vrngset sd o) s = .next t ∧ SameMemory s t ∧
      Leaves s t (vAfter s sd (.vrngset o) { vfile s.cx sd with
        key := if o.imm = 0 then lane 128 (vrow s sd o.vsa) 0 else (vfile s.cx sd).key, ctr := lane 128 (vrow s sd o.vsa) 1 } s.cx.sys.fflags)

/-- 05 R131, 04 R91, 06 R156, R157: reductions and resultants write lane 0, or the five lanes of a state, of the row of `vd` for each row of the
form; an integer sum is the sum of the active lanes. -/
def Obligations.VectorReductions : Prop :=
  ∀ (sd : Side) (o : VR),
    let row := fun (i : Instr) (y : VSyl) (n : Nat) (fl : State → Nat → BitVec 5) (f : State → Nat → Nat → W32) =>
      ∀ s, VReady s sd y →
        let rows := formRows (vform s sd y o.form)
        ∃ t, exec i s = .next t ∧ SameMemory s t ∧ RowsLeft s t sd y o.form ∧
        Leaves s t (vAfter s sd y { vfile s.cx sd with rows := (vfile t.cx sd).rows, ctr := (vfile s.cx sd).ctr + .ofNat 128 (16 * n * rows) }
          ((List.range rows).foldl (fun b r => b ||| fl s r) s.cx.sys.fflags)) ∧
        (∀ r l, r < rows → l < 64 → lane 32 (rowGet t.cx sd (phys (vfile s.cx sd) (o.vd.toNat + r))) l = f s r l) ∧
        ∀ p, OffRows s sd o.vd rows p → rowGet t.cx sd p = rowGet s.cx sd p
    let first := fun (s : State) (r l : Nat) (x : Nat) => if l = 0 then BitVec.ofNat 32 x else lane 32 (vrowAt s sd o.vd r) l
    let act := fun (s : State) (y : VSyl) => activeBits (loneView s (.v sd y)) sd o.form o.mask.toNat
    let tree := fun (s : State) (r : Nat) (y : VSyl) (f : Nat → Nat → Nat → Nat × BitVec 5) => treeNode (act s y) (vrowAt s sd o.vsa r) f 6 0
    let sum := fun (s : State) (r : Nat) w x y => fadd fp32 o.rm.toNat (drawU (genAt s sd (if o.rm = 4 then 1 else 0) r) 0 w) x y
    let none_ := fun (_ : State) (_ : Nat) => (0 : BitVec 5)
    let canon := fun (x : Nat) => if fisNan fp32 x then 0x7FC00000 else x
    row (.vredsumF32 sd o) (.vredsumF32 o) (if o.rm = 4 then 1 else 0) (fun s r => (tree s r (.vredsumF32 o) (sum s r)).2)
      (fun s r l => first s r l (canon ((tree s r (.vredsumF32 o) (sum s r)).1.getD 0))) ∧
    row (.vredmaxF32 sd o) (.vredmaxF32 o) 0 none_
      (fun s r l => first s r l (canon ((tree s r (.vredmaxF32 o) fun _ x y => (fmax2 fp32 x y, 0)).1.getD 0xFF800000))) ∧
    row (.vredminF32 sd o) (.vredminF32 o) 0 none_
      (fun s r l => first s r l (canon ((tree s r (.vredminF32 o) fun _ x y => (fmin2 fp32 x y, 0)).1.getD 0x7F800000))) ∧
    row (.vredsumI32 sd o) (.vredsumI32 o) 0 none_ (fun s r l => first s r l
      ((List.range 64).foldl (fun n k => if laneOn s sd (.vredsumI32 o) o.form o.mask.toNat k then n + ln (vrowAt s sd o.vsa r) k else n) 0)) ∧
    row (.vpsumP16 sd o) (.vpsumP16 o) 0 none_ (fun s r l =>
      let part := if o.imm.getLsbD 1 then (if (act s (.vpsumP16 o)).getLsbD 0 then phState (vrowAt s sd o.vsa r) else (0, 0, 0))
        else phSumRow (act s (.vpsumP16 o)) (vrowAt s sd o.vsa r)
      let z := if o.imm.getLsbD 0 then phAdd (phState (vrowAt s sd o.vd r)) part else part
      match l with
      | 0 => (BitVec.ofInt 64 z.1).extractLsb' 0 32 | 1 => (BitVec.ofInt 64 z.1).extractLsb' 32 32
      | 2 => (BitVec.ofInt 64 z.2.1).extractLsb' 0 32 | 3 => (BitVec.ofInt 64 z.2.1).extractLsb' 32 32
      | 4 => .ofNat 32 z.2.2
      | _ => lane 32 (vrowAt s sd o.vd r) l) ∧
    row (.vpresP16 sd o) (.vpresP16 o) 0 none_ (fun s r l =>
      let z := phState (vrowAt s sd o.vsa r)
      if (act s (.vpresP16 o)).getLsbD 0 then first s r l (phAngle z.1 z.2.1 z.2.2 s.cx.sys.pthresh) else lane 32 (vrowAt s sd o.vd r) l) ∧
    row (.vplenP16 sd o) (.vplenP16 o) 0 none_ fun s r l =>
      let z := phState (vrowAt s sd o.vsa r)
      if (act s (.vplenP16 o)).getLsbD 0 then first s r l (phLen z.1 z.2.1 z.2.2) else lane 32 (vrowAt s sd o.vd r) l

/-- 05 R135, R98: vector loads and stores move four bytes for each active lane of every row; the first breach of alignment, range or tag, row by row,
traps. It rests on the model's own readings of log entry 15. -/
def Obligations.VectorMemory : Prop :=
  ∀ (sd : Side) (o : VM),
    let on := fun (s : State) (y : VSyl) l => laneOn s sd y o.form o.mask.toNat l
    let rows := fun (s : State) (y : VSyl) => formRows (vform s sd y o.form)
    let fine := fun (s : State) (y : VSyl) (tags : List Byte) i => ∀ l, l < 64 → on s y l = true →
      let a := vmLane s o i l
      a % 4 = 0 ∧ 0 ≤ a ∧ a + 4 ≤ 0x200000 ∧ tagAt s.cx a.toNat ∈ tags
    let good := fun (s : State) (y : VSyl) (tags : List Byte) => ∀ i, i < rows s y → fine s y tags i
    let load := fun (i : Instr) (y : VSyl) (tags : List Byte) => ∀ s, VReady s sd y → good s y tags →
      ∃ t, exec i s = .next t ∧ SameMemory s t ∧ RowsLeft s t sd y o.form ∧
        Leaves s t (vAfter s sd y { vfile s.cx sd with rows := (vfile t.cx sd).rows } s.cx.sys.fflags) ∧
        (∀ r l, r < rows s y → l < 64 → lane 32 (rowGet t.cx sd (phys (vfile s.cx sd) (o.v.toNat + r))) l =
          let a := (vmLane s o r l).toNat
          if on s y l then scrByte s (a + 3) ++ scrByte s (a + 2) ++ scrByte s (a + 1) ++ scrByte s a else lane 32 (vrowAt s sd o.v r) l) ∧
        ∀ p, OffRows s sd o.v (rows s y) p → rowGet t.cx sd p = rowGet s.cx sd p
    let store := fun (i : Instr) (y : VSyl) (tags : List Byte) => ∀ s, VReady s sd y → Unwatched s → good s y tags →
      ∃ t, exec i s = .next t ∧ RowsLeft s t sd y o.form ∧
        Leaves s t { vAfter s sd y (vfile s.cx sd) s.cx.sys.fflags with prog := stored s.cx.prog t.cx.prog.scratch } ∧
        (∀ r l k, r < rows s y → l < 64 → on s y l = true → k < 4 → scrByte t ((vmLane s o r l).toNat + k) = lane 8 (lane 32 (vrowAt s sd o.v r) l) k) ∧
        (∀ a, (∀ r l, r < rows s y → l < 64 → on s y l = true → a < (vmLane s o r l).toNat ∨ (vmLane s o r l).toNat + 4 ≤ a) → scrByte t a = scrByte s a) ∧
        (∀ a, cellGet t.mem a = cellGet s.mem a) ∧ ∀ d a, cellGet (getDie t d).dsm a = cellGet (getDie s d).dsm a
    let traps := fun (i : Instr) (y : VSyl) (tags : List Byte) => ∀ s r l, VReady s sd y → r < rows s y → (∀ i, i < r → fine s y tags i) → l < 64 → on s y l = true →
      let a := fun l => vmLane s o r l
      let k := (Syl.v sd y).slot.num
      let inside := fun l => 0 ≤ a l ∧ a l + 4 ≤ 0x200000
      (a 0 % 4 ≠ 0 → Traps i s 0x0C (.ofInt 64 (a 0)) k) ∧
      (a 0 % 4 = 0 → ¬ inside l → (∀ j, j < l → on s y j = true → inside j) → Traps i s 0x0D (.ofInt 64 (a l)) k) ∧
      (a 0 % 4 = 0 → (∀ j, j < 64 → on s y j = true → inside j) → tagAt s.cx (a l).toNat ∉ tags →
        (∀ j, j < l → on s y j = true → tagAt s.cx (a j).toNat ∈ tags) → Traps i s 0x0B (.ofInt 64 (a l)) k)
    (load (.vldF32 sd o) (.vldF32 o) [0x40] ∧ load (.vldI32 sd o) (.vldI32 o) [0x14, 0x18] ∧ load (.vldBf16 sd o) (.vldBf16 o) [0x48] ∧
      load (.vldF16 sd o) (.vldF16 o) [0x44]) ∧
    (store (.vstF32 sd o) (.vstF32 o) [0x40] ∧ store (.vstI32 sd o) (.vstI32 o) [0x14, 0x18] ∧ store (.vstBf16 sd o) (.vstBf16 o) [0x48] ∧
      store (.vstF16 sd o) (.vstF16 o) [0x44]) ∧
    (traps (.vldF32 sd o) (.vldF32 o) [0x40] ∧ traps (.vldI32 sd o) (.vldI32 o) [0x14, 0x18] ∧ traps (.vldBf16 sd o) (.vldBf16 o) [0x48] ∧
      traps (.vldF16 sd o) (.vldF16 o) [0x44] ∧ traps (.vstF32 sd o) (.vstF32 o) [0x40] ∧ traps (.vstI32 sd o) (.vstI32 o) [0x14, 0x18] ∧
      traps (.vstBf16 sd o) (.vstBf16 o) [0x48] ∧ traps (.vstF16 sd o) (.vstF16 o) [0x44])

/-- 06 R145: the beats that clear a tile or a row and set the tile's mode; a partial clear in phasor mode traps. 06 R146, R137: `mpush` fills the
held edge from a lent register or a panel; `mshift` turns it, and traps where it is empty. -/
def Obligations.TilesAndEdges : Prop :=
  (let clears := fun (i : Instr) (y : MSyl) (o : MO) (f : Tile → Tile) => ∀ s, MReady s y → ∃ t, exec i s = .next t ∧ SameMemory s t ∧
     Leaves s t (mAfter s y { s.cx.m with acc := t.cx.m.acc, rowprog := 0, staging := {}, t0 := if o.acc = 0 then f s.cx.m.t0 else s.cx.m.t0
                                          t1 := if o.acc = 0 then s.cx.m.t1 else f s.cx.m.t1 } s.cx.sys.fflags) ∧
     CellsOf s t o.acc fun _ _ => 0
   ∀ o : MO,
     clears (.mexact o) (.mexact o) o (fun t => { t with mode := if o.row = 1 then 2 else 0, anchor := 0, beats := 0 }) ∧
     clears (.manch o) (.manch o) o (fun t => { t with mode := 1, anchor := o.disp.setWidth 11, beats := 0 }) ∧
     clears (.mzero o) (.mzero o) o (fun t => { t with beats := 0 }) ∧
     ∀ s, MReady s (.mrow o) →
       ((tileGet s.cx.m o.acc.toNat).mode = 2 → Traps (.mrow o) s 0x04 0 5) ∧
       ((tileGet s.cx.m o.acc.toNat).mode ≠ 2 → ∃ t, exec (.mrow o) s = .next t ∧ SameMemory s t ∧
         Leaves s t (mAfter s (.mrow o) { s.cx.m with acc := t.cx.m.acc, rowprog := 0, staging := {} } s.cx.sys.fflags) ∧
         CellsOf s t o.acc fun i j => if i = o.row.toNat then 0 else lane 256 (accGet s.cx o.acc.toNat i) j)) ∧
  (let held := fun (t : State) (code : Nat) (raw sc : Nat → Nat) => t.cx.m.held.filled = true ∧ t.cx.m.held.code.toNat = code ∧
     ∀ p, p < 128 → (lane 16 t.cx.m.held.raw p).toNat = raw p ∧ (lane 8 t.cx.m.held.scale p).toNat = sc p
   let left := fun (s t : State) (y : MSyl) => mAfter s y { s.cx.m with held := t.cx.m.held, rowprog := 0, staging := {} } s.cx.sys.fflags
   (∀ (o : MO) s, MReady s (.mpush o) → 2 ≤ o.src.toNat →
     let sd : Side := if o.src = 2 then .a else .b
     let w := elemWidth (lentCode o.fmt)
     ∃ t, exec (.mpush o) s = .next t ∧ SameMemory s t ∧ Leaves s t (left s t (.mpush o)) ∧
       held t (lentCode o.fmt) (fun p => (vrow s sd o.v).toNat / 2 ^ (w * p) % 2 ^ w) fun _ => 0) ∧
   (∀ (o : MO) s a b ps, MReady s (.mpush o) → o.src.toNat < 2 → 0 ≤ o.disp.toInt →
     let k := o.disp.toInt.toNat
     let col := o.src == 1
     fetchPanels (loneStart s (.m (.mpush o))) (loneIss s (.m (.mpush o))) k (!col) col (fun c => elemWidth c != 0) none = .ok (a, b, ps) →
     let f := if col then b else a
     let code := f.1.toNat / 4
     let q := code = 0x18 ∨ code = 0x19
     let latch := latchGet s.cx.m ((if col then 2 else 0) + k / 32 % 2)
     (code = 0x19 → ∀ p, p < 128 → (lane 8 latch p).toNat / 64 ≠ 3) → s.cx.run.kSched = .replicate 4 none → s.cx.run.kWall = .replicate 4 none →
     (∀ p, p < 128 → (f.2[p]?).getD 0 < 2 ^ 16) →
     ∃ t, exec (.mpush o) s = .next t ∧ SameMemory s t ∧ BeatLeaves s t (left s t (.mpush o)) ∧
       held t code (fun p => (f.2[p]?).getD 0) fun p => if q then (lane 8 latch p).toNat else 0) ∧
   (∀ (o : MO) s, MReady s (.mpush o) → o.src.toNat < 2 → o.disp.toInt < 0 → Traps (.mpush o) s 0x04 0 5) ∧
   ∀ (o : MO) s, MReady s (.mshift o) →
     (s.cx.m.held.filled = false → Traps (.mshift o) s 0x04 0 5) ∧
     (s.cx.m.held.filled = true → ∃ t, exec (.mshift o) s = .next t ∧ SameMemory s t ∧ Leaves s t (left s t (.mshift o)) ∧
       held t s.cx.m.held.code.toNat (fun p => (lane 16 s.cx.m.held.raw ((p + o.row.toNat) % 128)).toNat)
         fun p => (lane 8 s.cx.m.held.scale ((p + o.row.toNat) % 128)).toNat))

/-- 06 R147, R149: an accumulate adds the products of its edges to every cell of its tile; `maccp` adds unit vectors where both angles are defined
and counts the beat; the tile's flags grow only. 06 R138, R144, R147, R149, R143: what makes an accumulate trap before any cell changes: an empty
held edge, a negative index, a tile in the wrong mode, and for a primary's kernel code a latch written less than 6 scheduled cycles before. -/
def Obligations.Accumulate : Prop :=
  (∀ (o : MO) (a b : Edge) (ps : List Place),
     (∀ s, MReady s (.macc o) → beatEdges o (loneIss s (.m (.macc o))) false (beatStart s (.macc o) o) = .ok (a, b, ps) →
       let t0 := tileGet s.cx.m o.acc.toNat
       let d := if elemWidth a.code = 4 then 2 else 1
       let old := fun i j => lane 256 (accGet s.cx o.acc.toNat i) j
       let prod := fun i j k => productCode (t0.mode == 1) t0.anchor.toInt (fmulV (edgeVal a i k) (edgeVal b j k))
       let cell := fun i j n => (List.range n).foldl (fun c k => wideAdd c (prod i j k).1) (old i j)
       ∃ t, exec (.macc o) s = .next t ∧ SameMemory s t ∧
         BeatLeaves s t (mAfter s (.macc o) { s.cx.m with acc := t.cx.m.acc, t0 := t.cx.m.t0, t1 := t.cx.m.t1, rowprog := 0, staging := {} } s.cx.sys.fflags) ∧
         CellsOf s t o.acc (fun i j => cell i j d) ∧ tileGet t.cx.m (1 - o.acc.toNat) = tileGet s.cx.m (1 - o.acc.toNat) ∧
         tileGet t.cx.m o.acc.toNat = { t0 with
           sat := t0.sat || (List.range 128).any fun i => (List.range 128).any fun j => (List.range d).any fun k => wideSpecial (cell i j (k + 1))
           lost := t0.lost || (List.range 128).any fun i => (List.range 128).any fun j => (List.range d).any fun k => (prod i j k).2 }) ∧
     ∀ s, MReady s (.maccp o) → beatEdges o (loneIss s (.m (.maccp o))) true (beatStart s (.maccp o) o) = .ok (a, b, ps) →
       let t0 := tileGet s.cx.m o.acc.toNat
       let angle := fun (e : Edge) p => (e.raw[p]?).getD 0
       ∃ t, exec (.maccp o) s = .next t ∧ SameMemory s t ∧
         BeatLeaves s t (mAfter s (.maccp o) { s.cx.m with acc := t.cx.m.acc, t0 := t.cx.m.t0, t1 := t.cx.m.t1, rowprog := 0, staging := {} } s.cx.sys.fflags) ∧
         CellsOf s t o.acc (fun i j =>
           let c := lane 256 (accGet s.cx o.acc.toNat i) j
           if (angle a i).testBit 7 || (angle b j).testBit 7 then c
           else
             let h := 256 * ((angle a i + angle b j) % 128)
             (lane 128 c 1 + .ofInt 128 (cosT h)) ++ (lane 128 c 0 + .ofInt 128 (sinT h))) ∧
         tileGet t.cx.m (1 - o.acc.toNat) = tileGet s.cx.m (1 - o.acc.toNat) ∧ tileGet t.cx.m o.acc.toNat = { t0 with beats := t0.beats + 1 }) ∧
  ((∀ (o : MO), ∀ p ∈ [(Instr.macc o, MSyl.macc o, false), (.maccp o, .maccp o, true)], ∀ s, MReady s p.2.1 →
     let empty := o.src = 1 ∧ s.cx.m.held.filled = false
     (empty → Traps p.1 s 0x04 0 5) ∧ (¬ empty → o.disp.toInt < 0 → Traps p.1 s 0x04 0 5) ∧
     (¬ empty → 0 ≤ o.disp.toInt → ((tileGet s.cx.m o.acc.toNat).mode == 2) ≠ p.2.2 → Traps p.1 s 0x0B 0 5)) ∧
   ∀ (s : State) (iss : Iss) (ls : List Nat), isPrim s s.cid = true → iss.v.mon.active = false →
     ((∀ x ∈ ls, ∀ n, (s.cx.run.kSched[x]?).getD none = some n → n + 6 ≤ iss.v.run.sched) → latchTime s iss ls = .ok ()) ∧
     ∀ x ∈ ls, ∀ n, (s.cx.run.kSched[x]?).getD none = some n → iss.v.run.sched < n + 6 → latchTime s iss ls = .error (.trap { code := 0x10 }))

/-- 06 R138, R67: the bytes that a pipe delivers from a panel in the issuing context's own scratchpad. -/
def Obligations.PanelBytes : Prop :=
  ∀ (s : State) (off k : Nat) (fmt : Byte) (accept : Nat → Bool), AllPresent s →
    let code := fmt.toNat / 4
    let w := elemWidth code / 8
    let q := code = 0x18 ∨ code = 0x19
    let z := if code = 0x18 then 17 else 33
    let e := if code = 0x18 then k % 32 / 2 else k % 32
    let n := fun p => k / 32 * 128 + p
    let at_ := fun p => if q then off + n p / (4096 / z) * 4096 + n p % (4096 / z) * z + e else off + (k * 128 + p) * w
    let base := 0xA000000000000000 + off
    (code = 0x18 → k % 2 = 0) → (q → off % 4096 = 0) → (¬ q → 0 < w ∧ off % w = 0) → accept code = true → fmtLegal fmt = true → off < 2 ^ 21 → tagAt s.cx off = fmt →
    (∀ p, p < 128 → at_ p + max 1 w ≤ 2 ^ 21 ∧ tagAt s.cx (at_ p) = fmt) →
    ∃ l ps, pipe s s.cid base k accept [] 0 = .ok (fmt, l, ps) ∧ l.length = 128 ∧
      ∀ p, p < 128 → l[p]? = some (if code = 0x11 ∨ code = 0x12 then (scrByte s (at_ p + 1) ++ scrByte s (at_ p)).toNat else (scrByte s (at_ p)).toNat)

/-- 06 R150, R151, 04 R84: a drain rounds each cell of a row once and lays the elements out; flags are raised; a phasor drain to FP16 or E4M3 traps. -/
def Obligations.Drains : Prop :=
  let elem := fun (s : State) (o : MO) (j : Nat) =>
    drainElem (tileGet s.cx.m o.acc.toNat) s.cx.sys.pthresh o.fmt (lane 256 (accGet s.cx o.acc.toNat o.row.toNat) j)
  let flags := fun (s : State) (o : MO) => s.cx.sys.fflags ||| (List.range 128).foldl (fun f j => f ||| (elem s o j).2) 0
  let size := fun (o : MO) => if o.fmt = 0 then 4 else if o.fmt = 3 then 1 else if o.fmt = 4 then 32 else 2
  let bad := fun (s : State) (o : MO) => (tileGet s.cx.m o.acc.toNat).mode = 2 ∧ (o.fmt = 2 ∨ o.fmt = 3)
  let done := fun (s : State) => { s.cx.m with rowprog := 0, staging := {} }
  (∀ (o : MO) s, MReady s (.mdrainv o) →
    let sd : Side := if o.src = 2 then .a else .b
    let f := vfile s.cx sd
    let n := if o.fmt = 0 then 2 else if o.fmt = 4 then 16 else 1
    let reg := fun i => phys f (o.v.toNat + i)
    (bad s o → Traps (.mdrainv o) s 0x04 0 5) ∧
    (¬ bad s o → f.rot.toNat < 2048 - f.base.toNat → ∃ t, exec (.mdrainv o) s = .next t ∧ SameMemory s t ∧
      Leaves s t (setVFile (mAfter s (.mdrainv o) (done s) (flags s o)) sd { f with rows := (vfile t.cx sd).rows }) ∧
      (∀ b, b < 256 * n → lane 8 (rowGet t.cx sd (reg (b / 256))) (b % 256) =
        if b < 128 * size o then .ofNat 8 ((elem s o (b / size o)).1 / 256 ^ (b % size o)) else 0) ∧
      ∀ p, (∀ i, i < n → p ≠ reg i) → rowGet t.cx sd p = rowGet s.cx sd p)) ∧
  ∀ (o : MO) s, MReady s (.mdrain o) → Unwatched s →
    let a : Int := s.cx.m.mpd.toNat + o.disp.toInt
    let len := 128 * size o
    let code := drainCode ((tileGet s.cx.m o.acc.toNat).mode == 2) o.fmt
    let off := (a - 0xA000000000000000).toNat
    (bad s o → Traps (.mdrain o) s 0x04 0 5) ∧
    (¬ bad s o → a % (size o : Nat) ≠ 0 → Traps (.mdrain o) s 0x0C (.ofInt 64 a) 5) ∧
    (¬ bad s o → a % (size o : Nat) = 0 → 0xA000000000000000 ≤ a → off + len ≤ 2 ^ 21 →
      (∀ b, b < len → (tagAt s.cx (off + b)).toNat = 4 * code) → ∃ t, exec (.mdrain o) s = .next t ∧
        Leaves s { t with dies := s.dies } { mAfter s (.mdrain o) (done s) (flags s o) with prog := stored s.cx.prog t.cx.prog.scratch } ∧
        (∀ d, getDie t d = if d = ctxDie s.cid then { getDie s d with clock := clockMax (getDie s d).clock s.cx.prog.horizon } else getDie s d) ∧
        (∀ b, b < len → scrByte t (off + b) = .ofNat 8 ((elem s o (b / size o)).1 / 256 ^ (b % size o))) ∧ SameOutside s t off len) ∧
    let ps := ctxPieces (loneStart s (.m (.mdrain o))) s.cid a.toNat len
    ∀ ts, ¬ bad s o → a % (size o : Nat) = 0 → 0 ≤ a → a + len ≤ 2 ^ 64 →
      drainSites (loneStart s (.m (.mdrain o))) s.cid code ps = .ok ts → (∀ x ∈ ts, ∀ p r f, x.place ≠ .peer p r f) →
      let u := drainLocal (drainStart s o) s.cid ts ps ((List.range len).map fun b => .ofNat 8 ((elem s o (b / size o)).1 / 256 ^ (b % size o)))
      ∃ t, exec (.mdrain o) s = .next t ∧ t.cx.r = { s.cx.r with pc := s.cx.r.pc + 12 } ∧ t.cx.sys = { s.cx.sys with fflags := flags s o } ∧ t.cx.m = done s ∧
        t.mem = u.mem ∧ t.dies = u.dies ∧ t.repWrites = u.repWrites ∧ t.others = u.others ∧ t.cx.prog.scratch = u.cx.prog.scratch

/-- 10 R205-R207, R213-R215: a copy, gather or scatter whose descriptor keeps its limits takes the next identifier and becomes the newest incomplete
transfer of its channel; other descriptors trap with ILLEGAL_FORM. 10 R222-R228: stores, loads, atomics, memory-side and bank operations are issued
once their limits and alignment hold, else they trap. -/
def Obligations.TransferIssue : Prop :=
  (let lo := fun (x : W64) => x.toNat % 2 ^ 32
   let hi := fun (x : W64) => x.toNat / 2 ^ 32
   let issues := fun (i : Instr) (sd : Side) (op : CSyl) (ok : (Nat → W64) → Prop) => ∀ s, CReady s sd op →
     let a := fun k => cArg s sd op k
     (ok a → AtHome s sd op → ∃ t q, exec i s = .next t ∧ Issued s t sd op q ∧ q.phase = .running ∧ q.status = 0 ∧ t.clusters = s.clusters) ∧
     (¬ ok a → Traps i s 0x04 0 (chSlot sd))
   let one := fun (a : Nat → W64) => hi (a 2) = 0
   let two := fun (a : Nat → W64) => lo (a 2) * hi (a 2) ≤ 2 ^ 32
   let three := fun (a : Nat → W64) => hi (a 4) = 0 ∧ lo (a 2) * hi (a 2) * lo (a 4) ≤ 2 ^ 32
   let list := fun (a : Nat → W64) => let e := lo (a 2) % 2 ^ 13
     1 ≤ e ∧ e ≤ 4096 ∧ lo (a 2) / 2 ^ 13 = 0 ∧ hi (a 2) ≤ 65536 ∧ (a 3).toNat < 2 ^ 21 ∧ (a 3).toNat % 4 = 0
   ∀ sd : Side,
     (∀ o : CA, issues (.copy1d sd o) sd (.copy1d o) one ∧ issues (.copy2d sd o) sd (.copy2d o) two ∧ issues (.copy3d sd o) sd (.copy3d o) three ∧
       issues (.gather sd o) sd (.gather o) list ∧ issues (.scatter sd o) sd (.scatter o) list) ∧
     ∀ o : CS, issues (.copy1dCs sd o) sd (.copy1dCs o) one ∧ issues (.copy2dCs sd o) sd (.copy2dCs o) two ∧ issues (.copy3dCs sd o) sd (.copy3dCs o) three ∧
       issues (.gatherCs sd o) sd (.gatherCs o) list ∧ issues (.scatterCs sd o) sd (.scatterCs o) list) ∧
  (let issues := fun (i : Instr) (sd : Side) (op : CSyl) (ok : State → (Nat → W64) → Prop) (n : Nat) => ∀ s, CReady s sd op →
     let a := fun k => cArg s sd op k
     (ok s a → (a 0).toNat % n = 0 → AtHome s sd op →
       ∃ t q, exec i s = .next t ∧ Issued s t sd op q ∧ q.phase = .running ∧ q.status = 0 ∧ t.clusters = s.clusters) ∧
     (¬ ok s a → Traps i s 0x04 0 (chSlot sd)) ∧ (ok s a → (a 0).toNat % n ≠ 0 → Traps i s 0x0C (a 0) (chSlot sd))
   let any := fun (_ : State) (_ : Nat → W64) => True
   ∀ sd : Side,
     (∀ o : CS,
       issues (.st32 sd o) sd (.st32 o) any 4 ∧ issues (.st64 sd o) sd (.st64 o) any 8 ∧ issues (.ld64 sd o) sd (.ld64 o) any 8 ∧
       issues (.atomAdd sd o) sd (.atomAdd o) any 8 ∧ issues (.atomAnd sd o) sd (.atomAnd o) any 8 ∧ issues (.atomOr sd o) sd (.atomOr o) any 8 ∧
       issues (.atomXor sd o) sd (.atomXor o) any 8 ∧ issues (.atomMax sd o) sd (.atomMax o) any 8 ∧ issues (.atomMin sd o) sd (.atomMin o) any 8 ∧
       issues (.atomSwap sd o) sd (.atomSwap o) any 8 ∧ issues (.atomCas sd o) sd (.atomCas o) any 8 ∧
       issues (.msaCas4 sd o) sd (.msaCas4 o) (fun _ a => 0 < (a 1).toNat ∧ (a 1).toNat < 16) 32 ∧
       issues (.msaChase sd o) sd (.msaChase o) (fun _ a => (a 1).toNat < 2 ^ 20) 1) ∧
     (∀ o : CS, ∀ p ∈ [(Instr.msaEnq sd o, CSyl.msaEnq o), (.msaDeq sd o, .msaDeq o)], ∀ s, CReady s sd p.2 →
       let a := fun k => cArg s sd p.2 k
       ((a 0).toNat % 64 = 0 → (a 1).toNat % 64 = 0 → AtHome s sd p.2 →
         ∃ t q, exec p.1 s = .next t ∧ Issued s t sd p.2 q ∧ q.phase = .running ∧ q.status = 0 ∧ t.clusters = s.clusters) ∧
       ((a 0).toNat % 64 ≠ 0 → Traps p.1 s 0x0C (a 0) (chSlot sd)) ∧ ((a 0).toNat % 64 = 0 → (a 1).toNat % 64 ≠ 0 → Traps p.1 s 0x0C (a 1) (chSlot sd))) ∧
     ∀ o : CA, ∀ p ∈ [(Instr.bankWadd sd o, CSyl.bankWadd o), (.bankAdd sd o, .bankAdd o), (.bankMax sd o, .bankMax o), (.bankMin sd o, .bankMin o)],
       ∀ s, CReady s sd p.2 →
         let a := fun k => cArg s sd p.2 k
         let at_ := fun k i => (cAt s sd p.2 (a k) i).toNat
         let size := fun i => max 1 (bankSize (bankFmt s s.cid (cAt s sd p.2 (a 0) i)))
         let small := (a 2).toNat ≤ 2 ^ 20
         let ok := small ∧ ∀ i, i < cCount s sd p.2 → at_ 0 i / 2 ^ 60 = 0xB ∧ at_ 1 i / 2 ^ 58 ≠ 0x2A ∧ at_ 0 i % size i = 0 ∧ at_ 1 i % size i = 0
         (ok → AtHome s sd p.2 → ∃ t q, exec p.1 s = .next t ∧ Issued s t sd p.2 q ∧ q.phase = .running ∧ q.status = 0 ∧ t.clusters = s.clusters) ∧
         (¬ small → Traps p.1 s 0x04 0 (chSlot sd)) ∧ (small → at_ 0 0 / 2 ^ 60 ≠ 0xB → Traps p.1 s 0x04 0 (chSlot sd)))

/-- 10 R217, R218: `mcast` and `send` read their row at the issue and put it on its way: a multicast lands 10 cycles of cluster time later, a send
12; what they name wrongly traps, and a secondary cannot send. -/
def Obligations.RowsSetOut : Prop :=
  let own := fun (a : W64) => a.toNat / 2 ^ 21 = 0xA000000000000000 / 2 ^ 21
  let len := fun (n : W64) => 4 ≤ n.toNat ∧ n.toNat ≤ 256 ∧ n.toNat % 4 = 0
  let off := fun (a : W64) => a.toNat % 2 ^ 21
  let sets := fun (i : Instr) (s : State) (sd : Side) (op : CSyl) (delay target o : Nat) (win : Bool) => AllPresent s →
    ∃ t q r, exec i s = .next t ∧ Issued s t sd op q ∧ q.phase = .timed r.due ∧
      r.due = (getCl s (ctxCl s.cid)).ctime + delay ∧ r.src = s.cid ∧ r.ch = sd ∧ r.tid = q.tid ∧ r.target = target ∧ r.off = o ∧
      r.region = s.cx.prog.region ∧ r.data = (List.range (cArg s sd op 2).toNat).map (fun k => scrByte s (off (cArg s sd op 1) + k)) ∧
      getCl t (ctxCl s.cid) = (if win then { getCl s (ctxCl s.cid) with win := [r] } else { getCl s (ctxCl s.cid) with net := [r] }) ∧
      ∀ k, k ≠ ctxCl s.cid → getCl t k = getCl s k
  ∀ (sd : Side) (o : CA),
    (∀ s, CReady s sd (.mcast o) →
      let x := fun i => cAt s sd (.mcast o) (cArg s sd (.mcast o) 0) i
      let y := fun i => cAt s sd (.mcast o) (cArg s sd (.mcast o) 1) i
      let n := cArg s sd (.mcast o) 2
      let window := fun (a : W64) => a.toNat / 2 ^ 32 = 0xA8000000 ∧ a.toNat / 2 ^ 21 % 8 = 0 ∧ a.toNat / 2 ^ 24 % 256 ≠ 0
      ((∀ i, i < cCount s sd (.mcast o) → window (x i) ∧ own (y i) ∧ len n ∧ (x i).toNat % 4 = 0 ∧ (y i).toNat % 4 = 0 ∧
          off (x i) + n.toNat ≤ 2 ^ 21 ∧ off (y i) + n.toNat ≤ 2 ^ 21) →
        sets (.mcast sd o) s sd (.mcast o) 10 ((x 0).toNat / 2 ^ 24 % 256) (off (x 0)) true) ∧
      (¬ (window (x 0) ∧ own (y 0) ∧ len n) → Traps (.mcast sd o) s 0x04 0 (chSlot sd)) ∧
      (window (x 0) → own (y 0) → len n → (x 0).toNat % 4 ≠ 0 → Traps (.mcast sd o) s 0x0C (x 0) (chSlot sd))) ∧
    ∀ s, CReady s sd (.send o) →
      let target := cArg s sd (.send o) 0
      let y := fun i => cAt s sd (.send o) (cArg s sd (.send o) 1) i
      let n := cArg s sd (.send o) 2
      let ok := isPrim s s.cid = true ∧ target.toNat < 8 ∧ own (y 0) ∧ len n
      (isPrim s s.cid = true → target.toNat < 8 →
        (∀ i, i < cCount s sd (.send o) → own (y i) ∧ len n ∧ (y i).toNat % 4 = 0 ∧ off (y i) + n.toNat ≤ 2 ^ 21) →
        sets (.send sd o) s sd (.send o) 12 target.toNat 0 false) ∧
      (¬ ok → Traps (.send sd o) s 0x04 0 (chSlot sd)) ∧ (ok → (y 0).toNat % 4 ≠ 0 → Traps (.send sd o) s 0x0C (y 0) (chSlot sd)) ∧
      (ok → (y 0).toNat % 4 = 0 → 2 ^ 21 < off (y 0) + n.toNat → Traps (.send sd o) s 0x0D (y 0) (chSlot sd))

/-- 10 R219: `recv` takes the row that its entry holds, writes it to the issuing core's scratchpad and completes at once; an empty entry towards
which nothing is on its way traps with TIMING_FAULT. -/
def Obligations.ReceiveTakes : Prop :=
  ∀ (sd : Side) (o : CA) s, CReady s sd (.recv o) → AllPresent s →
    let x := cArg s sd (.recv o) 0
    let e := (cArg s sd (.recv o) 1).toNat
    let off := x.toNat % 2 ^ 21
    let k := getCl s (ctxCl s.cid)
    let key := 16 * (s.cid.core.toNat % 8) + e
    let row := if tabGet [] k.recv key = [] then tabGet [] k.fresh key else tabGet [] k.recv key
    let ok := fun (a : W64) => isPrim s s.cid = true ∧ e < 16 ∧ a.toNat / 2 ^ 21 = 0xA000000000000000 / 2 ^ 21
    let good := ∀ i, i < cCount s sd (.recv o) → ok (cAt s sd (.recv o) x i) ∧ (cAt s sd (.recv o) x i).toNat % 4 = 0
    (¬ ok x → Traps (.recv sd o) s 0x04 0 (chSlot sd)) ∧ (ok x → x.toNat % 4 ≠ 0 → Traps (.recv sd o) s 0x0C x (chSlot sd)) ∧
    (good → row = [] → Traps (.recv sd o) s 0x10 (.ofNat 64 e) (chSlot sd)) ∧
    (good → row ≠ [] → 2 ^ 21 < off + row.length → Traps (.recv sd o) s 0x0D x (chSlot sd)) ∧
    (good → row ≠ [] → off + row.length ≤ 2 ^ 21 → ∃ t, exec (.recv sd o) s = .next t ∧
      chanOf t.cx sd = { chanOf s.cx sd with tid := (chanOf s.cx sd).tid + 1 } ∧ chanOf t.cx (otherSide sd) = chanOf s.cx (otherSide sd) ∧
      Leaves s { t with clusters := s.clusters } { loneView s (.c sd (.recv o)) with
        r := { s.cx.r with pc := s.cx.r.pc + 8 }, con := t.cx.con, prog := stored s.cx.prog t.cx.prog.scratch } ∧
      (∀ j b, row[j]? = some b → scrByte t (off + j) = b) ∧ SameOutside s t off row.length ∧
      (tabGet [] k.recv key ≠ [] → tabGet [] (getCl t (ctxCl s.cid)).recv key = []) ∧
      ∀ j, j ≠ key → tabGet [] (getCl t (ctxCl s.cid)).recv j = tabGet [] k.recv j)

/-- 10 R230-R232, R234, R235: an arrival, a fence and a stream reset become transfers; a wait on a flipped barrier goes on, on one that has not
flipped it parks the context; malformed descriptors, a second arrival and a wait without its arrival trap. It rests on the model's own readings of
log entry 79. -/
def Obligations.BarrierAndFenceIssue : Prop :=
  ∀ (sd : Side) (o : CA),
    let id := fun (d : W64) => (⟨d.extractLsb' 12 2, d.extractLsb' 8 4⟩ : BarId)
    (∀ s, CReady s sd (.barArrive o) →
      let d := cArg s sd (.barArrive o) 0
      let free := ∀ l, leafOf s.cx (id d) = some l → l.flipped = true
      (barLayout d = false ∨ ¬ free → Traps (.barArrive sd o) s 0x04 0 (chSlot sd)) ∧
      (barLayout d = true → free → barAllowed s s.cid d = true → ∃ t q l, exec (.barArrive sd o) s = .next t ∧ q.tid = (chanOf s.cx sd).tid + 1 ∧
        q.op = .barArrive o ∧ q.phase = .atBarrier ∧ q.status = 0 ∧
        chanOf t.cx sd = { chanOf s.cx sd with tid := q.tid, xfers := (chanOf s.cx sd).xfers ++ [q] } ∧ t.clusters = s.clusters ∧ SameMemory s t ∧
        t.cx.r = { s.cx.r with pc := s.cx.r.pc + 8 } ∧ leafOf t.cx (id d) = some l ∧ l.desc = d.setWidth 48 ∧ l.sent = false ∧ l.flipped = false ∧
        l.tid = q.tid ∧ l.ch = sd ∧ ∀ b, b ≠ id d → leafOf t.cx b = leafOf s.cx b) ∧
      (barLayout d = true → free → barAllowed s s.cid d = false → ∃ t q, exec (.barArrive sd o) s = .next t ∧ Issued s t sd (.barArrive o) q ∧
        q.status = 0x0A ∧ t.clusters = s.clusters)) ∧
    (∀ s, CReady s sd (.barWait o) →
      let d := cArg s sd (.barWait o) 0
      let mine := fun (l : Leaf) => leafOf s.cx (id d) = some l ∧ l.desc = d.setWidth 48
      (barLayout d = false ∨ (∀ l, ¬ mine l) → Traps (.barWait sd o) s 0x04 0 (chSlot sd)) ∧
      (∀ l, barLayout d = true → mine l → l.flipped = true → ∃ t, exec (.barWait sd o) s = .next t ∧ SameMemory s t ∧
        Leaves s t { loneView s (.c sd (.barWait o)) with
          r := { s.cx.r with pc := s.cx.r.pc + 8 }
          prog := { s.cx.prog with kind01 := s.cx.prog.kind01 && !((id d).level == 1 && matesIdle s.cx) } }) ∧
      (∀ l, barLayout d = true → mine l → l.flipped = false → ∃ t, exec (.barWait sd o) s = .next t ∧ SameMemory s t ∧ t = { s with cx := t.cx } ∧
        t.cx.r = { s.cx.r with pc := s.cx.r.pc + 8 } ∧ t.cx.con = s.cx.con ∧ t.cx.run.parkedOn = some (id d) ∧
        t.cx.run.state = if s.cx.mon.active then .monitor else .parked)) ∧
    (∀ s, CReady s sd (.sfence o) →
      let a := cArg s sd (.sfence o) 0
      (a.toNat < 2 ^ 16 → ∃ t q, exec (.sfence sd o) s = .next t ∧ Issued s t sd (.sfence o) q ∧ q.phase = .fenced ∧ q.status = 0 ∧ t.clusters = s.clusters) ∧
      (2 ^ 16 ≤ a.toNat → Traps (.sfence sd o) s 0x04 0 (chSlot sd))) ∧
    ∀ s, CReady s sd (.srst o) →
      let a := cArg s sd (.srst o) 0
      (0 < a.toNat ∧ a.toNat < 16 → ∃ t q, exec (.srst sd o) s = .next t ∧ Issued s t sd (.srst o) q ∧ q.phase = .fenced ∧ q.status = 0 ∧ t.clusters = s.clusters) ∧
      (a.toNat = 0 ∨ 16 ≤ a.toNat → Traps (.srst sd o) s 0x04 0 (chSlot sd))

/-- 10 R236, 09 R187: an SC operation takes the position at hand and is performed 96 positions later; in a wrong class, or without any position of
its core, it is issued with the status PERMISSION; a misaligned one traps. 10 R236, 09 R187: an SC operation is performed once its time has come, on
its word and its result register; before, nothing happens. -/
def Obligations.Wheel : Prop :=
  (∀ (sd : Side) (o : CS), ∀ p ∈ [(Instr.scLd64 sd o, CSyl.scLd64 o), (.scSt64 sd o, .scSt64 o), (.scSwap sd o, .scSwap o), (.scAdd sd o, .scAdd o)],
     ∀ s, CReady s sd p.2 →
       let a := cArg s sd p.2 0
       let core := s.cid.core.toNat
       let wrong := a.toNat / 2 ^ 60 = 0xA ∨ a.toNat / 2 ^ 60 = 0xC ∨ ownsAny s core = false
       (a.toNat % 8 ≠ 0 → Traps p.1 s 0x0C a (chSlot sd)) ∧
       (a.toNat % 8 = 0 → wrong → ∃ t q, exec p.1 s = .next t ∧ q.status = 0x0A ∧ q.tid = (chanOf s.cx sd).tid + 1 ∧ q.op = p.2 ∧
         chanOf t.cx sd = { chanOf s.cx sd with tid := q.tid, xfers := (chanOf s.cx sd).xfers ++ [q] } ∧ t.clusters = s.clusters ∧ SameMemory s t) ∧
       ∀ k, a.toNat % 8 = 0 → ¬ wrong → wheelKey s core = some k → ∃ t q, exec p.1 s = .next t ∧ Issued s t sd p.2 q ∧ q.phase = .timed (k + 96) ∧
         q.status = 0 ∧ t.clusters = s.clusters) ∧
  (∀ (c : CtxId) (ch : Side) (s : State) (q : Xfer) (d off at_ : Nat) (o : CS),
     let a := xarg q
     let w := dsmWord s d off
     ∀ p ∈ [(CSyl.scLd64 o, w, Option.some o.s.toNat), (.scSt64 o, a 1, none), (.scSwap o, a 1, some (o.s.toNat + 1)), (.scAdd o, w + a 1, some (o.s.toNat + 1))],
       Performs s c ch q → q.op = p.1 → q.phase = .timed at_ →
       (∀ rights, InDsm s c q.x 8 rights d off) →
       (s.now < at_ → exec (.scPerform c ch q.tid) s = .next s) ∧
       (at_ ≤ s.now → ∃ t, exec (.scPerform c ch q.tid) s = .next t ∧ DsmTo s t d off (leBytes 8 p.2.1.toNat) ∧
         chanOf (getCtx t c) ch = leftChan (getCtx s c) ch q.tid ∧
         (getCtx t c).r = match p.2.2 with
           | some n => deSet (getCtx s c).r ch n w
           | none => (getCtx s c).r))

/-- 01 R22, R24, 12 R255, R256, R258: the brake is released in the first cycle without a condition, with one record and the wall cycles lost, and
stays applied while one lasts; an awaited arrival enters at the boundary; the watchdog saves the primaries and leaves the stalled one its trap. It
rests on the model's own readings of log entries 12, 22, 78. -/
def Obligations.BrakeSteps : Prop :=
  ∀ (cl : ClId) (s : State) (b : Brake), (getCl s cl.toNat).brake = some b →
    let k := getCl s cl.toNat
    let free := clearWaits s cl.toNat
    let cs := condsNow s cl.toNat
    (condsNow free cl.toNat = [] → forced free cl.toNat = false → k.boundary = [] → (∀ r ∈ k.net ++ k.win, k.ctime < r.due) → k.trace.length < 64 →
      ∃ t, exec (.brakeRelease cl) s = .next t ∧ ClTo free t cl.toNat { k with
        brake := none, trace := k.trace ++ [(b.region, .ofNat 256 (devRecord s cl.toNat { b with slot := 0 } (k.wall - b.first)))] }) ∧
    (condsNow free cl.toNat ≠ [] → ∃ t, exec (.brakeRelease cl) s = .next t ∧ (getCl t cl.toNat).brake.isSome = true) ∧
    (∀ c ch q, (∃ d ∈ cs, (c, ch, q.tid) ∈ d.awaited) → k.boundary = [.done c ch q.tid q.status []] → findXfer (getCtx s c) ch q.tid = some q → q.status ≠ 0 →
      ∃ u t, exec (.boundaryAdmit cl) s = .next t ∧ ClTo s u cl.toNat { k with boundary := [] } ∧ CtxTo u t c (failedXfer (getCtx s c) ch q.tid q.status)) ∧
    (k.wall - b.first < watchdog s cl.toNat → exec (.brakeTimeout cl) s = .next s) ∧
    ∀ r a a', watchdog s cl.toNat ≤ k.wall - b.first → forced s cl.toNat = false → k.boundary = [] → b.core < 8 →
      let p := primOf s (8 * cl.toNat + b.core)
      let x := getCtx s p
      x.run.state ≠ .empty → x.run.state ≠ .saving → x.run.hold = none → x.prog.builtin = false → (∀ j, j < 8 → j ≠ b.core → (getCtx s (primOf s (8 * cl.toNat + j))).run.state = .empty) →
      poolOf s x.prog.region = some r → poolPlace r groupSize = some a →
      poolPlace { r with carved := (.ofNat 64 a, groupSize, x.prog.region) :: r.carved } imageSize = some a' →
      ∃ t, exec (.brakeTimeout cl) s = .next t ∧ (getCl t cl.toNat).brake = some b ∧
        (getCtx t p).run.state = .saving ∧ (getCtx t p).run.brakeTrap = some (k.wall - b.first) ∧ (getCtx t p).prog.saveCause = 0x18 ∧
        (getCtx t p).prog.saveTo = .ofNat 64 a' ∧ (getCtx t p).prog.saveGroup = .ofNat 64 a ∧ (getCtx t p).r = x.r ∧
        let rep := faultReport 0 0x18 0 (whereCore (8 * cl.toNat + b.core)) b.serial (trBundle b.bundle b.rpt.toNat b.slot)
        let e : EntryId := ⟨1, .ofNat 8 cl.toNat, b.region, false⟩
        t.fw.errLog = s.fw.errLog ++ [rep] ∧ (isFree s e = false → (getEntry t e).told = (getEntry s e).told ++ [rep])

/-- 05 R119, R95, 10 R218, 09 R188: a later row of a vector form takes its slot a cycle after the row before; results leave the scoreboard in time;
rows of `send` and `mcast` land whole, or are discarded with PERMISSION where a target holds no context of the region. -/
def Obligations.RowsAndLandings : Prop :=
  (∀ (sd : Side) (y : VSyl) (j : RowJob) s,
    let k := (Syl.v sd y).slot.num
    let now := (getCl s (ctxCl s.cid)).wall
    s.cx.run.rows = [j] → j.slot = k → j.syl = .v sd y → j.clustered = false → j.due ≤ now → jobBanks s j = [] →
    ∃ t, exec (.formRowIssue s.cid (.ofNat 3 k)) s = .next t ∧ CtxTo s t s.cid { s.cx with run := { s.cx.run with
      issuedNow := s.cx.run.issuedNow ||| BitVec.twoPow 8 (7 - k)
      rows := if j.row + 1 < j.rows then [{ j with row := j.row + 1, due := now + 1 }] else [] } }) ∧
  (∀ (c : CtxId) s, ∃ t, exec (.resultLand c) s = .next t ∧
    CtxTo s t c { getCtx s c with run := { (getCtx s c).run with
      sb := (getCtx s c).run.sb.filter fun p => decide ((getCl s (ctxCl c)).wall < p.at_) } }) ∧
  (∀ (cl : ClId) s (r : NetRow), let k := getCl s cl.toNat
    k.brake = none → condsNow s cl.toNat = [] → k.net = [r] → r.due ≤ k.ctime → r.data ≠ [] →
    let key := 16 * r.target + r.src.core.toNat % 8 + (if r.ch = .b then 8 else 0)
    (residentOn s (8 * cl.toNat + r.target) r.region ≠ none → (findXfer (getCtx s r.src) r.ch r.tid).isSome →
      ∃ u t, exec (.sendArrival cl) s = .next t ∧ ClTo s u cl.toNat { k with net := [], fresh := tabSet k.fresh key r.data } ∧
        CtxTo u t r.src (doneXfer (getCtx s r.src) r.ch r.tid)) ∧
    (residentOn s (8 * cl.toNat + r.target) r.region = none → (findXfer (getCtx s r.src) r.ch r.tid).isSome →
      ∃ u t, exec (.sendArrival cl) s = .next t ∧ ClTo s u cl.toNat { k with net := [] } ∧ CtxTo u t r.src (failedXfer (getCtx s r.src) r.ch r.tid 0x0A))) ∧
  ∀ (cl : ClId) s (r : NetRow), let k := getCl s cl.toNat
    let target := fun i => residentOn s (8 * cl.toNat + i) r.region
    k.brake = none → k.win = [r] → r.due ≤ k.ctime →
    (mcastAbsent s cl.toNat r ≠ [] → exec (.mcastLanding cl) s = .next s) ∧
    (mcastAbsent s cl.toNat r = [] → condsNow s cl.toNat = [] →
      (∀ i, i < 8 → bitAt r.target i = true → ∃ d, target i = some d ∧ ∀ u ∈ scrUnits r.off r.data.length, u ∈ (getCtx s d).prog.footprint) →
      ∃ t, exec (.mcastLanding cl) s = .next t ∧ (getCl t cl.toNat).win = [] ∧ findXfer (getCtx t r.src) r.ch r.tid = none ∧ t.mem = s.mem ∧
        (∀ c, (∀ i, i < 8 → bitAt r.target i = true → target i ≠ some c) → (getCtx t c).prog.scratch = (getCtx s c).prog.scratch) ∧
        ∀ i d a, i < 8 → bitAt r.target i = true → target i = some d → cellGet (getCtx t d).prog.scratch a =
          if r.off ≤ a ∧ a < r.off + r.data.length then (r.data[a - r.off]?).getD 0 else cellGet (getCtx s d).prog.scratch a)

/-- 10 R206, R211-R214, R222, R223, R234, 09 R177, R179, 01 R24: a transfer that nothing holds up is performed and leaves its channel: stores and
atomics write their word, loads and atomics their result register; a failed one is listed with its status and writes nothing; a releasing write waits
for what it covers; under the brake the completion is held at the boundary; a read of a replicated page waits for the horizon. It rests on the
model's own readings of log entries 8, 28, 78, 90. -/
def Obligations.TransferSteps : Prop :=
  let left := fun (s t : State) (c : CtxId) (ch : Side) (q : Xfer) (r : Regs) =>
    (getCtx t c).r = r ∧ chanOf (getCtx t c) ch = leftChan (getCtx s c) ch q.tid ∧ chanOf (getCtx t c) (otherSide ch) = chanOf (getCtx s c) (otherSide ch)
  ∀ (c : CtxId) (ch : Side) (s : State) (q : Xfer) (d off : Nat),
    let i := Instr.transferComplete c ch ⟨q.tid, none⟩
    let a := xarg q
    let steps := fun (j : Instr) => j = i ∨ (releases q.op = true ∧ j = .releaseWriteSend c ch q.tid)
    (Performs s c ch q → q.phase = .running →
      (∀ o j, q.op = .st64 o → steps j → InDsm s c q.x 8 { w := true } d off → ∃ t, exec j s = .next t ∧
        DsmTo s t d off (leBytes 8 (a 1).toNat) ∧ left s t c ch q (getCtx s c).r) ∧
      (∀ o j, q.op = .st32 o → steps j → InDsm s c q.x 4 { w := true } d off → ∃ t, exec j s = .next t ∧
        DsmTo s t d off (leBytes 4 (a 1).toNat) ∧ left s t c ch q (getCtx s c).r) ∧
      (∀ o, q.op = .ld64 o → InDsm s c q.x 8 { r := true } d off → ∃ t, exec i s = .next t ∧
        DsmTo s t d off [] ∧ left s t c ch q (deSet (getCtx s c).r ch o.s.toNat (dsmWord s d off))) ∧
      (∀ o, ∀ p ∈ [(CSyl.atomAdd o, fun (w : W64) => w + a 1), (.atomAnd o, (· &&& a 1)), (.atomOr o, (· ||| a 1)), (.atomXor o, (· ^^^ a 1)),
          (.atomMax o, fun w => if w.toInt < (a 1).toInt then a 1 else w), (.atomMin o, fun w => if (a 1).toInt < w.toInt then a 1 else w),
          (.atomSwap o, fun _ => a 1), (.atomCas o, fun w => if w = a 1 then a 2 else w)],
        q.op = p.1 → InDsm s c q.x 8 { r := true, w := true, a := true } d off → ∃ t, exec i s = .next t ∧
          DsmTo s t d off (leBytes 8 (p.2 (dsmWord s d off)).toNat) ∧ left s t c ch q (deSet (getCtx s c).r ch (o.s.toNat + 1) (dsmWord s d off))) ∧
      (∀ e : EccHit, ∀ o, q.op = .ld64 o → InDsm s c q.x 8 { r := true } d off → ∃ t, exec (.transferComplete c ch ⟨q.tid, some e⟩) s = .next t ∧
        (∀ b, getCtx t b = if b = c then failedXfer (getCtx s c) ch q.tid 0x30 else getCtx s b) ∧ t.mem = s.mem ∧ t.dies = s.dies ∧
        t.fw.telemetry.length = s.fw.telemetry.length + 1) ∧
      (∀ o d' off', q.op = .copy1d o → let n := (a 2).toNat % 2 ^ 32
        q.segs = [(q.x.toNat, q.y.toNat, n)] → InDsm s c q.x n { w := true } d off → InDsm s c q.y n { r := true } d' off' → ∃ t, exec i s = .next t ∧
          DsmTo s t d off (cellRead (getDie s d').dsm off' n) ∧ left s t c ch q (getCtx s c).r)) ∧
    (findXfer (getCtx s c) ch q.tid = some q → (getCl s (ctxCl c)).brake = none → q.status ≠ 0 → q.pkts = [] → q.queue = [] → q.phase ≠ .arrived →
      ∃ t, exec i s = .next t ∧ CtxTo s t c (failedXfer (getCtx s c) ch q.tid q.status)) ∧
    (Performs s c ch q → q.phase = .fenced → (∃ o, q.op = .sfence o) →
      (∀ k, ∀ u ∈ (chanOf (getCtx s c) k).xfers, u.seq < q.seq → (a 0).getLsbD (cView u.op).stream.toNat = false) →
      ((a 0).getLsbD 0 = true → (getCtx s c).run.rows = []) →
      ∃ t, exec i s = .next t ∧ CtxTo s t c (doneXfer (getCtx s c) ch q.tid)) ∧
    (findXfer (getCtx s c) ch q.tid = some q → (getCl s (ctxCl c)).brake ≠ none → (getCtx s c).run.state ≠ .saving → q.status ≠ 0 → q.pkts = [] →
      q.queue = [] → q.phase ≠ .arrived →
      ∃ u t, exec i s = .next t ∧ CtxTo s u c (setChan (getCtx s c) ch { chanOf (getCtx s c) ch with
          xfers := (chanOf (getCtx s c) ch).xfers.map fun v => if v.tid = q.tid then { q with phase := .arrived } else v }) ∧
        ClTo u t (ctxCl c) { getCl s (ctxCl c) with boundary := (getCl s (ctxCl c)).boundary ++ [.done c ch q.tid q.status []] }) ∧
    (findXfer (getCtx s c) ch q.tid = some q → releaseBlocked s c (getCtx s c) ch q = true → exec (.releaseWriteSend c ch q.tid) s = .next s) ∧
    ∀ o g pa, Performs s c ch q → q.phase = .running → q.op = .ld64 o → q.x.toNat / 2 ^ 60 < 8 → q.x.toNat % 8 = 0 →
      siteOf s c q.x.toNat 8 { r := true } = .ok g → g.place = .main pa →
      (canRead s c pa = false → exec (.replicaReadServe c ch q.tid) s = .next s) ∧
      (canRead s c pa = true → ∃ t, exec (.replicaReadServe c ch q.tid) s = .next t ∧ DsmTo s t 0 0 [] ∧
        left s t c ch q (deSet (getCtx s c).r ch o.s.toNat (.ofNat 64 (leNat (readMain s (dieOf s c) pa 8)))))

/-- 10 R231-R233, 09 R176: an arrival sets out once the transfers before it are complete, counts at the root after two cycles of cluster time, and
the last one flips the barrier and levels the horizons; the flip ends the waits of the leaves. A forwarded write of a replicated page is applied at
its die. It rests on the model's own readings of log entries 75, 84. -/
def Obligations.BarrierSteps : Prop :=
  (∀ (c : CtxId) (id : BarId) s l, leafOf (getCtx s c) id = some l → l.sent = false → l.flipped = false →
    let r := getRoot s id (barPlace id c)
    (arrivalReady (getCtx s c) l = false → exec (.barrierArrivalSend c id) s = .next s) ∧
    (arrivalReady (getCtx s c) l = true → ∃ t, exec (.barrierArrivalSend c id) s = .next t ∧ t.mem = s.mem ∧
      getRoot t id (barPlace id c) = { r with
        inFlight := r.inFlight ++ [(leafNum id c, if id.level = 1 then (getCl s (ctxCl c)).ctime + 2 else 0, l.desc)] } ∧
      getCtx t c = setLeaf (getCtx s c) { l with sent := true } ∧ ∀ d, d ≠ c → getCtx t d = getCtx s d)) ∧
  (∀ (bar : BarRef) s num at_ d, bar.id.level = 1 →
    let p := bar.place.toNat
    let r := getRoot s bar.id p
    let all := (namedLeaves bar.id d).all fun n => (r.arrived ++ [num]).contains n
    (getCl s p).brake = none → r.inFlight = [(num, at_, d)] → at_ ≤ (getCl s p).ctime → r.desc = d → r.arrived ≠ [] →
    ∃ t, exec (.barrierRootArrival bar) s = .next t ∧ t.mem = s.mem ∧
      getRoot t bar.id p = (if all then { r with inFlight := [], arrived := [], desc := 0, phase := !r.phase, flips := r.flips ++ [((getCl s p).ctime + 2, r.arrived ++ [num])] }
        else { r with inFlight := [], arrived := r.arrived ++ [num] }) ∧
      (all = true → ∀ c ∈ waitingLeaves s bar.id p (r.arrived ++ [num]), ∀ e ∈ waitingLeaves s bar.id p (r.arrived ++ [num]),
        (getCtx t c).prog.horizon = (getCtx t e).prog.horizon) ∧
      ∀ c, (getCtx t c).r = (getCtx s c).r ∧ (getCtx t c).run = (getCtx s c).run ∧ (getCtx t c).con = (getCtx s c).con) ∧
  (∀ (bar : BarRef) s at_ nums, bar.id.level = 1 →
    let p := bar.place
    let r := getRoot s bar.id p.toNat
    r.flips = [(at_, nums)] → at_ ≤ (getCl s p.toNat).ctime →
    ((getCl s p.toNat).brake ≠ none → exec (.barrierFlipReach bar p) s = .next s) ∧
    ((getCl s p.toNat).brake = none → ∃ t, exec (.barrierFlipReach bar p) s = .next t ∧ t.mem = s.mem ∧
      getRoot t bar.id p.toNat = { r with flips := [] } ∧
      ∀ c ∈ waitingLeaves s bar.id p.toNat nums, ∀ l, leafOf (getCtx s c) bar.id = some l →
        leafOf (getCtx t c) bar.id = some { l with flipped := true, prev := none } ∧ (getCtx t c).r = (getCtx s c).r ∧
        (∀ ch q, findXfer (getCtx s c) ch q.tid = some q → q.phase = .atBarrier → (xarg q 0).setWidth 48 = l.desc → findXfer (getCtx t c) ch q.tid = none) ∧
        ((getCtx s c).run.parkedOn = some bar.id → (getCtx s c).run.state = .parked → (getCtx s c).mon.active = false →
          (getCtx t c).run.state = .run ∧ (getCtx t c).run.parkedOn = none ∧ (getCtx t c).run.last = ownNow s c ∧ (getCtx t c).prog.spin = 0 ∧
          (getCtx t c).run.sched = (getCtx s c).run.sched + (ownNow s c - (getCtx s c).run.last)))) ∧
  ∀ (die : BitVec 4) s w rest, s.repWrites = w :: rest → w.dst = die.toNat → canApply s w [] = true →
    let x := getDie s die.toNat
    ∃ t, exec (.replicaWriteApply die) s = .next t ∧ DieTo { s with repWrites := rest } t die.toNat { x with
      clock := clockMax x.clock w.clock
      applied := clockMax x.applied w.clock
      replicas := if bitAt (replicaMask s w.pa) die.toNat then
          tabSet x.replicas (w.pa / 65536) (cellBlit (tabGet [] x.replicas (w.pa / 65536)) (w.pa % 65536) w.bytes)
        else x.replicas }

/-- 09 R182, R183, 10 R235, 11 R237, 15 R306, R309: a packet in order is performed and acknowledged with the next number, a refused one performs
nothing; one ahead of its turn waits in the window of 64, one that was committed is only acknowledged again, one beyond the window or with a bad tag
is dropped. It rests on the model's own readings of log entry 77. -/
def Obligations.StreamPackets : Prop :=
  (∀ (p : Packet) s, p.stream ≠ 0 → s.fabric.planes ≠ 0 →
    let m := millOf s p.src p.tag p.stream
    let d := (p.seq - m.x).toNat
    let ack := fun (m : MillRace) => OutPkt.ack m.src { peer := s.fw.fab.setWidth 12, tag := m.tag, stream := m.stream, x := m.x, map := m.map, resync := false, results := m.results }
    let next := fun (e : Byte) (l : List Byte) => keepResult { m with x := m.x + 1, window := [] } p.seq e l
    (p.tagOk = true → d = 0 → m.window = [] → p.src = m.src → p.tag = m.tag → p.stream = m.stream →
      (forSequencer p.body = false →
        (∀ u l, performBody s p = .ok (u, l) → ∃ t, exec (.streamPacketArrive p) s = .next t ∧ t.mem = u.mem ∧ t.dies = u.dies ∧
          t.fabric.out = u.fabric.out ++ [ack (next 0 l)] ∧ millOf t p.src p.tag p.stream = next 0 l) ∧
        (∀ e, performBody s p = .error (.status e) → ∃ t, exec (.streamPacketArrive p) s = .next t ∧ t.mem = s.mem ∧ t.dies = s.dies ∧
          t.fabric.out = s.fabric.out ++ [ack (next e [])] ∧ millOf t p.src p.tag p.stream = next e []) ∧
        ∀ l, performBody s p = .error (.wait l) → exec (.streamPacketArrive p) s = .next s) ∧
      (forSequencer p.body = true → ∃ t, exec (.streamPacketArrive p) s = .next t ∧ t.mem = s.mem ∧ t.dies = s.dies ∧
        let ours := (findRegion s p.region).isSome = true ∧ effTenant s p.region = p.tenant.toNat
        (ours → t.fabric.heard = s.fabric.heard ++ [(p.src, p.region, p.body)] ∧ t.fabric.out = s.fabric.out ++ [ack (next 0 [])]) ∧
        (¬ ours → t.fabric.heard = s.fabric.heard ∧ t.fabric.out = s.fabric.out ++ [ack (next 0x0A [])]))) ∧
    (p.tagOk = true → 2 ^ 31 ≤ d → ∃ t, exec (.streamPacketArrive p) s = .next t ∧ t.mem = s.mem ∧ t.dies = s.dies ∧
      t.fabric.out = s.fabric.out ++ [ack m]) ∧
    (p.tagOk = true → 64 ≤ d → d < 2 ^ 31 → exec (.streamPacketArrive p) s = .next s) ∧
    (p.tagOk = true → 0 < d → d < 64 → (∀ q ∈ m.window, q.seq ≠ p.seq) → p.src = m.src → p.tag = m.tag → p.stream = m.stream →
      ∃ t, exec (.streamPacketArrive p) s = .next t ∧ t = { s with fabric := { s.fabric with mill := t.fabric.mill } } ∧
        millOf t p.src p.tag p.stream = { m with window := m.window ++ [p] }) ∧
    (p.tagOk = false → ((s.fw.tagFails ++ [(p.src.toNat, tick s)]).filter fun q => q.1 == p.src.toNat).length < 16 →
      ∃ t, exec (.streamPacketArrive p) s = .next t ∧ t = { s with fw := { s.fw with tagFails := t.fw.tagFails } })) ∧
  (∀ (p : Packet) s, p.stream = 0 → s.fabric.planes ≠ 0 → p.tagOk = true → forSequencer p.body = false →
    let m := millOf s p.src p.tag 0
    let d := (p.seq - m.x).toNat
    let known := fun (m : MillRace) (n : W32) => 2 ^ 31 ≤ (n - m.x).toNat ∨ ((n - m.x).toNat < 64 ∧ m.map.getLsbD (n - m.x).toNat = true)
    p.src = m.src → p.tag = m.tag → m.stream = 0 →
    (known m p.seq → ∃ t, exec (.stream0PacketArrive p) s = .next t ∧ t.mem = s.mem ∧ t.dies = s.dies ∧ t.fabric.mill = s.fabric.mill ∧
      t.fabric.out.length = s.fabric.out.length + 1) ∧
    (d < 64 → ¬ known m p.seq → ∀ u l, performBody s p = .ok (u, l) → ∃ t, exec (.stream0PacketArrive p) s = .next t ∧ t.mem = u.mem ∧ t.dies = u.dies ∧
      t.fabric.out.length = u.fabric.out.length + 1 ∧
      ∀ n : W32, (n - m.x).toNat < 64 → (known (millOf t p.src p.tag 0) n ↔ known m n ∨ n = p.seq))) ∧
  ∀ (r : Resync) s, s.fabric.planes ≠ 0 →
    let m := millOf s r.src r.tag r.stream
    m.src = r.src → m.tag = r.tag → m.stream = r.stream →
    ∃ t, exec (.resyncReceive r) s = .next t ∧ t.mem = s.mem ∧ t.dies = s.dies ∧
      millOf t r.src r.tag r.stream = { m with x := r.n, window := m.window.filter fun p => decide ((p.seq - r.n).toNat < 2 ^ 31) } ∧
      t.fabric.out = s.fabric.out ++ [.ack r.src { peer := s.fw.fab.setWidth 12, tag := r.tag, stream := r.stream, x := r.n, map := m.map, resync := true, results := m.results }]

/-- 09 R184, R185, 10 R235, 11 R237, 15 R309: an acknowledgement settles the packets it covers; a packet whose timer runs out is sent again on
another plane, sixteen times, then its transfer fails with REMOTE_NACK and its stream is broken; a failed plane's packets move; `srst` mends its
stream; a pair's key is replaced. It rests on the model's own readings of log entries 85, 86. -/
def Obligations.SourceGateway : Prop :=
  (∀ (a : Ack) s (h : HeldPkt) (q : Xfer) c ch, s.fabric.held = [h] → s.fabric.hoistQ = [] → acked a h = true → h.owner = (c, some (ch, q.tid)) → h.isResync = false →
    (q.watched = true ∨ ∀ (k : Nat) (w : Watch), (getCtx s c).mon.watch[k]? = some w → w.armed = false) → (chanOf (getCtx s c) ch).xfers = [q] → (chanOf (getCtx s c) (otherSide ch)).xfers = [] → q.pkts = [h.key] → q.queue = [] → q.phase = .releaseHeld → q.status = 0 →
    let r := (resultOf a h).getD (0, [])
    ∃ u t, exec (.ackReceive a) s = .next t ∧ u = { s with fabric := { s.fabric with held := [] } } ∧
      CtxTo u t c (setChan (getCtx s c) ch { chanOf (getCtx s c) ch with
        xfers := [{ q with pkts := [], reply := if r.2 = [] then q.reply else q.reply ++ [(h.key, r.2)], status := r.1 }] })) ∧
  (∀ (k : PktKey) s (h : HeldPkt), s.fabric.held = [h] → h.key = k → h.expires ≤ tick s → s.fabric.planes ≠ 0 →
    (h.resends < 16 →
      let h' := { h with plane := planeFrom s.fabric.planes ((h.plane + 1) % 8), expires := tick s + 8000, resends := h.resends + 1 }
      ∃ t, exec (.packetResendTimeout k) s = .next t ∧ t.mem = s.mem ∧ t.fabric = { s.fabric with held := [h'], out := s.fabric.out ++ [outOf h' h'.plane] }) ∧
    (16 ≤ h.resends → ∀ c ch q, h.owner = (c, some (ch, q.tid)) → h.isResync = false → h.key.stream ≠ 0 → (getCl s (ctxCl c)).brake = none → (chanOf (getCtx s c) ch).xfers = [q] →
      (chanOf (getCtx s c) (otherSide ch)).xfers = [] →
      ∃ t, exec (.packetResendTimeout k) s = .next t ∧ t.mem = s.mem ∧ t.fabric = { s.fabric with held := [] } ∧
        (getCtx t c).con.broken = setBit (getCtx s c).con.broken k.stream.toNat true ∧
        chanOf (getCtx t c) ch = { chanOf (getCtx s c) ch with xfers := [], fails := insertFail (q.tid, 0x13) (chanOf (getCtx s c) ch).fails })) ∧
  (∀ (k : PktKey) s, (∀ h ∈ s.fabric.held, h.key = k → tick s < h.expires) → exec (.packetResendTimeout k) s = .next s) ∧
  (∀ (plane : BitVec 3) s, ∃ t, exec (.planeFail plane) s = .next t ∧ t.mem = s.mem ∧ t.fabric.planes = setBit s.fabric.planes plane.toNat false ∧
    (t.fabric.planes ≠ 0 → ∀ h ∈ t.fabric.held, h.plane ≠ plane.toNat) ∧ t.fw.telemetry.length = s.fw.telemetry.length + 1) ∧
  (∀ (c : CtxId) (ch : Side) s (q : Xfer) (o : CA), findXfer (getCtx s c) ch q.tid = some q → q.op = .srst o → q.phase = .fenced →
    let n := (xarg q 0).toNat % 16
    (streamSettled s c q n = false → exec (.streamResync c ch q.tid) s = .next s) ∧
    (streamSettled s c q n = true → (∀ k ∈ (getCtx s c).con.ctrs, k.stream.toNat = n → k.sent = true → 4096 ≤ k.dst) → q.status = 0 → (getCl s (ctxCl c)).brake = none →
      ∃ t, exec (.streamResync c ch q.tid) s = .next t ∧ t.mem = s.mem ∧ t.fabric = s.fabric ∧
        (getCtx t c).con.broken = setBit (getCtx s c).con.broken n false ∧ findXfer (getCtx t c) ch q.tid = none ∧ (getCtx t c).r = (getCtx s c).r ∧
        ∀ k ∈ (getCtx t c).con.ctrs, k.stream.toNat = n → k.sent = false)) ∧
  ∀ (peer : BitVec 12) (plane : BitVec 3) s, ∃ t, exec (.pairRekey peer plane) s = .next t ∧
    t = { s with fw := { s.fw with pairKeys := t.fw.pairKeys, keyFills := s.fw.keyFills + 1, pairCtr := t.fw.pairCtr } } ∧
    tabGet 0 t.fw.pairKeys peer.toNat = Config.freshKey s.fw.keyFills ∧ (∀ k, k ≠ peer.toNat → tabGet 0 t.fw.pairKeys k = tabGet 0 s.fw.pairKeys k) ∧
    ∀ k p, p < 8 → tabGet 0 t.fw.pairCtr (8 * k + p) = if k = peer.toNat then 0 else tabGet 0 s.fw.pairCtr (8 * k + p)

/-- 09 R176, R190, 15 R303, R305: a migration copies a page to a frame of another die, its cutover leads the translation there; a replicated page
stands in every named die; a malformed entry is recorded; a peer is withdrawn and set again. It rests on the model's own readings of log entries 19,
25, 31. -/
def Obligations.PageSteps : Prop :=
  (∀ (region : W32) (va : W64) (die : BitVec 3) s a e pa size new u, pageOf s region va.toNat = some (a, e, pa, size) → (∀ g ∈ s.migrations, g.old ≠ pa) →
    replicaMask s pa = 0 → takeFrame s die.toNat size (1 + b2n (bitAt e 6)) = some (new, u) →
    ∃ t, exec (.pageMigrationStart region va die) s = .next t ∧ paDie new = die.toNat ∧
      t.migrations = s.migrations ++ [{ va := .ofNat 64 (va.toNat / size * size), region := region, old := pa, new := new, size := size }] ∧
      (∀ k, k < size → cellGet t.mem (new + k) = cellGet s.mem (pa + k)) ∧
      (∀ b, b < new ∨ new + size ≤ b → cellGet t.mem b = cellGet s.mem b) ∧ ∀ c, getCtx t c = getCtx s c) ∧
  (∀ s (g : Migration) a e size, s.migrations = [g] → pageOf s g.region g.va.toNat = some (a, e, g.old, size) →
    ∃ t, exec (.migrationCutover g.va) s = .next t ∧ t.migrations = [] ∧
      readPa t a 8 = leBytes 8 (e - bits e 16 23 * 2 ^ 16 + g.new / 2 ^ 16 * 2 ^ 16) ∧
      ∀ b, b < a ∨ a + 8 ≤ b → cellGet t.mem b = cellGet s.mem b) ∧
  (∀ (region : W32) (va : W64) s,
    let bad := effPtroot s region ≠ 0 ∧ malformed s.mem va.toNat 5 (effPtroot s region) = true
    (bad → ∃ t, exec (.pageWalkDone region va) s = .next t ∧ t = { s with fw := { s.fw with walkErrs := s.fw.walkErrs ++ [(region, va)] } }) ∧
    (¬ bad → exec (.pageWalkDone region va) s = .next s)) ∧
  (∀ (region : W32) (peer : BitVec 12) s,
    let a := effPeertable s region + 8 * peer.toNat
    let e := leNat (readPa s a 8)
    (∀ h, effPeertable s region = 0 ∨ bitAt e 0 = false → exec (.peerWithdraw region ⟨peer, h⟩) s = .next s) ∧
    (∀ b, effPeertable s region ≠ 0 → bitAt e 0 = true → ∃ t, exec (.peerWithdraw region ⟨peer, some b⟩) s = .next t ∧
      t = { s with fabric := { s.fabric with apart := t.fabric.apart } } ∧
      ∀ k, k ∈ t.fabric.apart ↔ if k = (.ofNat 12 (e / 16), .ofNat 16 (effTenant s region)) then b = false else k ∈ s.fabric.apart) ∧
    (effPeertable s region ≠ 0 → bitAt e 0 = true → s.migrations = [] → ∃ t, exec (.peerWithdraw region ⟨peer, none⟩) s = .next t ∧
      (∀ i, bitAt (leNat (readPa t a 8)) i = if i = 1 then !(bitAt e 1) else bitAt e i) ∧ ∀ b, b < a ∨ a + 8 ≤ b → cellGet t.mem b = cellGet s.mem b)) ∧
  ∀ (region : W32) (va : W64) (dies : BitVec 8) s a e pa size, pageOf s region va.toNat = some (a, e, pa, size) → pa % 65536 = 0 → dies ≠ 0 → replicaMask s pa = 0 →
    (∀ g ∈ s.migrations, g.old ≠ pa) →
    ∃ t, exec (.pageReplication region va dies) s = .next t ∧ t.mem = s.mem ∧
      ∀ f, f < size / 65536 → replicaMask t (pa + 65536 * f) = dies.toNat ∧
        ∀ d i, d < 8 → dies.getLsbD d = true → i < 65536 → cellGet (tabGet [] (getDie t d).replicas (pa / 65536 + f)) i = cellGet s.mem (pa + 65536 * f + i)

/-- 19 R350, R354, R355: the ring registers, the enable and the restart of a ring, and the packets taken from it: a published one is copied and
handed on, the read index moves past it; one of length 0 or longer than the ring stops the ring with its code. It rests on the model's own readings
of log entries 43, 60, 103. -/
def Obligations.HostRings : Prop :=
  let only := fun (s t : State) (k : Nat) (r : Ring) =>
    t = { s with fw := { s.fw with rings := t.fw.rings } } ∧ getRing t k = r ∧ ∀ j, j ≠ k → getRing t j = getRing s j
  (∀ (k : BitVec 6) s, let r := getRing s k.toNat
    let rd : W64 := .ofNat 64 (ringHdr s k.toNat 8 8)
    (r.enable = false → 6 ≤ r.log.toNat → r.log.toNat ≤ 20 → s.fw.locked = false → 6 < s.fw.boot →
      ∃ t, exec (.ringEnable k) s = .next t ∧ only s t k.toNat { r with enable := true, read := rd }) ∧
    (r.enable = true ∨ r.log.toNat < 6 ∨ 20 < r.log.toNat ∨ s.fw.locked = true ∨ s.fw.boot ≤ 6 → exec (.ringEnable k) s = .next s) ∧
    (r.stopped = true → ∃ t, exec (.ringRestart k) s = .next t ∧ only s t k.toNat { r with stopped := false, read := rd }) ∧
    (r.stopped = false → exec (.ringRestart k) s = .next s)) ∧
  (∀ (off : BitVec 16) (l : List Byte) s,
    let v := BitVec.ofNat 64 (leNat l)
    let k := (off.toNat - 0x1000) / 32
    let r := getRing s k
    (off.toNat < 0x1000 ∨ 0x1800 ≤ off.toNat → exec (.registerWrite (.window off) l) s = .next s) ∧
    (0x1000 ≤ off.toNat → off.toNat < 0x1800 → off.toNat % 32 = 0 → r.enable = false → ∃ t, exec (.registerWrite (.window off) l) s = .next t ∧
      only s t k { r with base := v &&& ~~~0xFFF }) ∧
    (0x1000 ≤ off.toNat → off.toNat < 0x1800 → off.toNat % 32 = 8 → r.enable = false → ∃ t, exec (.registerWrite (.window off) l) s = .next t ∧
      only s t k { r with hdr := v &&& ~~~0xFFF }) ∧
    (0x1000 ≤ off.toNat → off.toNat < 0x1800 → off.toNat % 32 = 16 → r.enable = false → v.toNat % 8 = 0 → ∃ t, exec (.registerWrite (.window off) l) s = .next t ∧
      only s t k { r with tenant := .ofNat 16 (v.toNat / 2 ^ 16), log := .ofNat 5 (v.toNat / 2 ^ 8) }) ∧
    (0x1000 ≤ off.toNat → off.toNat < 0x1800 → off.toNat % 32 = 16 → r.enable = true → v.toNat % 8 = 0 → ∃ t, exec (.registerWrite (.window off) l) s = .next t ∧
      only s t k { r with enable := false })) ∧
  (∀ (k : BitVec 6) s,
    let r := getRing s k.toNat
    let x := r.read.toNat
    let h := leNat (ringBytes s k.toNat x 8)
    let len := h / 2 ^ 16 % 2 ^ 16
    let slot := r.base.toNat + 64 * x % (64 * 2 ^ r.log.toNat)
    let published := r.enable = true ∧ r.stopped = false ∧ bitAt h 0 = true ∧ bitAt h 1 = bitAt x r.log.toNat ∧ appReady s slot 8 false = true
    let l := ringBytes s k.toNat x (64 * len)
    let c : Cmd := { tenant := r.tenant, index := r.read, region := .ofNat 32 (h / 2 ^ 32), cpl := .ofNat 64 (leNat ((l.drop 8).take 8)), body := l.drop 16 }
    let op := h / 2 ^ 8 % 2 ^ 8
    (¬ published → exec (.ringPacketTake k) s = .next s) ∧
    (published → len = 0 ∨ 2 ^ r.log.toNat < len → (∀ p ∈ [(8, 8), (16, 8), (24, 1)], firmwareMem s (appPa (r.hdr.toNat + p.1)) p.2 = false) → ∃ t, exec (.ringPacketTake k) s = .next t ∧ (getRing t k.toNat).stopped = true ∧ (getRing t k.toNat).read = r.read ∧
      t.commands = s.commands ∧ t.fw.telemetry.length = s.fw.telemetry.length + 1) ∧
    (published → 0 < len → len ≤ 2 ^ r.log.toNat → h / 8 % 32 = 0 → c.cpl.toNat % 64 = 0 →
      (1 ≤ op → op ≤ 10 → ∃ t, exec (.ringPacketTake k) s = .next t ∧ t.commands = s.commands ++ [(op, c)] ∧
        getRing t k.toNat = { r with read := .ofNat 64 (x + len), taken := r.taken + 1 } ∧
        (bitAt h 2 = false → (r.taken + 1) % 16 ≠ 0 → t.mem = s.mem) ∧
        (bitAt h 2 = true → s.migrations = [] → firmwareMem s (appPa (r.hdr.toNat + 8)) 8 = false → hostClosed s (appPa (r.hdr.toNat + 8)) 8 = false → readPa t (appPa (r.hdr.toNat + 8)) 8 = leBytes 8 (x + len))) ∧
      (op = 0 ∨ 10 < op → bitAt h 2 = false → (r.taken + 1) % 16 ≠ 0 → ∃ u t, exec (.ringPacketTake k) s = .next t ∧
        only (appSeen s slot 8) u k.toNat { r with read := .ofNat 64 (x + len), taken := r.taken + 1 } ∧ Answered u t c op 0x43))) ∧
  ∀ s : State,
    (∀ (a : W64) (l : List Byte), let pa := appPa a.toNat
      let open_ := hostClosed s pa l.length = false
      (appReady s a.toNat l.length true = false → exec (.registerWrite (.store a) l) s = .next s) ∧
      (appReady s a.toNat l.length true = true → firmwareMem s pa l.length = true → ∃ t, exec (.registerWrite (.store a) l) s = .next t ∧ t.mem = s.mem ∧
        t.dies = s.dies ∧ t.fw.locked = true ∧ t.fw.alarms = s.fw.alarms ++ [(3, 1, tick s)]) ∧
      (appReady s a.toNat l.length true = true → firmwareMem s pa l.length = false → ¬ open_ → exec (.registerWrite (.store a) l) s = .next s) ∧
      (appReady s a.toNat l.length true = true → firmwareMem s pa l.length = false → open_ → s.migrations = [] → pa + l.length ≤ 2 ^ 39 →
        ∃ t, exec (.registerWrite (.store a) l) s = .next t ∧ (∀ c, getCtx t c = getCtx s c) ∧
          (∀ b, cellGet t.mem b = if pa ≤ b ∧ b < pa + l.length then (l[b - pa]?).getD 0 else cellGet s.mem b) ∧
          ((∀ k, k < l.length → replicaMask s (pa + k) = 0) → l.length ≤ 4096 - pa % 4096 → l ≠ [] → t.repWrites = s.repWrites ∧
            DieTo { s with mem := t.mem } { t with fw := s.fw } (paDie pa) { getDie s (paDie pa) with clock := clockMax (getDie s (paDie pa)).clock s.fw.appH } ∧
            t.fw = s.fw))) ∧
    (∀ (a : W64) (n : Byte) (l : List Byte), let pa := appPa a.toNat
      let open_ := firmwareMem s pa n.toNat = false ∧ hostClosed s pa n.toNat = false ∧ n ≠ 0
      (¬ open_ → ∃ t, exec (.registerWrite (.load a n) l) s = .next t ∧ t = { s with fw := { s.fw with appRead := [] } }) ∧
      (open_ → appReady s a.toNat n.toNat false = false → exec (.registerWrite (.load a n) l) s = .next s) ∧
      (open_ → appReady s a.toNat n.toNat false = true → n.toNat ≤ 4096 - pa % 4096 → ∃ t, exec (.registerWrite (.load a n) l) s = .next t ∧
        t = { s with fw := { s.fw with appRead := readPa s pa n.toNat, appH := clockMax s.fw.appH (getDie s (paDie pa)).clock } })) ∧
    (∀ (off : BitVec 16) (l : List Byte), ∃ t, exec (.registerWrite (.query off) l) s = .next t ∧ t = { s with fw := { s.fw with appRead := t.fw.appRead } } ∧
      (∀ k : Nat, k < 64 → off.toNat = 0x1000 + 32 * k → t.fw.appRead = leBytes 8 (getRing s k).base.toNat) ∧
      (0x40 ≤ off.toNat → off.toNat < 0x1000 → t.fw.appRead = List.replicate 8 0) ∧ (off.toNat < 8 → (t.fw.appRead.take 4) = [0x44, 0x49, 0x51, 0x4B])) ∧
    ∀ (w r : Bool) (l : List Byte), exec (.registerWrite (.fence w r) l) s = .next s

/-- 19 R357-R359, 12 R243, 13 R281, 15 R302, R304, R306, 16 R327, R385, 18 R341: a command on no region of the ring's tenant is refused with its
code; the settings of a region, its export windows, its save pool, its kernels, its pages and its removal are carried out and answered with result 0.
It rests on the model's own readings of log entries 40, 42, 63. -/
def Obligations.HostCommands : Prop :=
  (∀ (c : Cmd) s, ∀ p ∈ [(3, Instr.regionRemove c), (4, .kernelRegister c), (5, .map c), (6, .unmap c), (7, .traceSet c), (8, .dumpSet c), (9, .exportSet c),
      (10, .savePool c), (1, .submit c)],
    (c.region = 0 ∨ findRegion s c.region = none → ∃ t, exec p.2 s = .next t ∧ Answered s t c p.1 0x40) ∧
    (c.region ≠ 0 → findRegion s c.region ≠ none → effTenant (asInstalled s) c.region ≠ c.tenant.toNat → ∃ t, exec p.2 s = .next t ∧ Answered s t c p.1 0x44)) ∧
  ∀ (c : Cmd) s, Owns s c →
    let f := bodyAt c
    let changes := fun (i : Instr) (op : Nat) (g : Region → Region) => ∃ u t, exec i s = .next t ∧ RegionTo s u c.region g ∧ Answered u t c op 0
    (f 16 1 = 0 ∨ (10 ≤ f 16 1 ∧ f 16 1 ≤ 24) → f 17 1 < 4 → changes (.traceSet c) 7 fun r =>
      { r with sample := f 16 1, bolter := bitAt (f 17 1) 0, listMode := bitAt (f 17 1) 1, dirty := if bitAt (f 17 1) 0 then r.dirty else [] }) ∧
    ((0 < f 16 1 ∧ f 16 1 < 10) ∨ 24 < f 16 1 ∨ 4 ≤ f 17 1 → ∃ t, exec (.traceSet c) s = .next t ∧ Answered s t c 7 0x42) ∧
    (changes (.dumpSet c) 8 fun r => { r with dump := .ofNat 64 (f 16 8), dumpLen := .ofNat 64 (f 24 8) }) ∧
    (f 16 8 < 256 → f 24 16 / 16 % 16 = 0 → changes (.exportSet c) 9 fun r => { r with exportTab := tabSet r.exportTab (f 16 8) (.ofNat 128 (f 24 16)) }) ∧
    (256 ≤ f 16 8 ∨ f 24 16 / 16 % 16 ≠ 0 → ∃ t, exec (.exportSet c) s = .next t ∧ Answered s t c 9 0x42) ∧
    (f 16 8 = 0 → f 24 8 = 0 → changes (.savePool c) 10 fun r => { r with pool := 0, poolLen := 0, carved := [] }) ∧
    (f 24 8 ≠ 0 → f 24 8 % 65536 = 0 → f 16 8 % 65536 = 0 → f 16 8 / 2 ^ 60 < 8 →
      (∀ i, i < f 24 8 / 65536 → ∃ g, opSite s c.region (f 16 8 + 65536 * i) 1 { r := true, w := true } = .ok g) →
      changes (.savePool c) 10 fun r => { r with pool := .ofNat 64 (f 16 8), poolLen := .ofNat 64 (f 24 8), carved := [] }) ∧
    (f 16 8 % 65536 ≠ 0 → ∃ t, exec (.savePool c) s = .next t ∧ Answered s t c 10 0x42) ∧
    (∀ k, kernelOfRec c.region (appBytes s (f 16 8) (min (f 24 8) 0x40000)) = some k → k.region = c.region → ∃ u t, exec (.kernelRegister c) s = .next t ∧
      Answered u t c 4 0 ∧ findKernel u c.region k.num = some k ∧ (∀ r n, r ≠ c.region ∨ n ≠ k.num → findKernel u r n = findKernel s r n) ∧
      tabGet 0 u.fw.meas 12 = digest512 (leBytes 64 (tabGet 0 s.fw.meas 12).toNat ++ leBytes 64 (digest512 k.code).toNat) ∧ u.mem = s.mem) ∧
    (∀ a e pa size, s.migrations = [] → pageOf (asInstalled s) c.region (f 16 8) = some (a, e, pa, size) → f 16 8 % size = 0 → f 24 8 = size →
      ∃ u t, exec (.unmap c) s = .next t ∧ Answered u t c 6 0 ∧ readPa u a 8 = List.replicate 8 0 ∧ (∀ b, b < a ∨ a + 8 ≤ b → cellGet u.mem b = cellGet s.mem b) ∧
        findRegion u c.region = (findRegion s c.region).map fun r => { r with mapped := r.mapped - size / 65536 }) ∧
    (∀ u fresh, mapForm (f 16 8) (f 24 8) (f 32 8) = true → effPtroot (asInstalled s) c.region ≠ 0 → f 40 1 < 32 → f 24 8 = f 32 8 →
      mapPage s c.region (f 16 8) (f 32 8) (f 40 1) (f 41 1) = some (u, fresh) → quotaAdmits (asInstalled s) c.region (f 32 8 / 65536) = true →
      quotaAdmits (asInstalled s) c.region 0 = true →
      ∃ v t, exec (.map c) s = .next t ∧ Answered v t c 5 0 ∧ v.mem = u.mem ∧
        findRegion v c.region = (findRegion u c.region).map fun r => if fresh then { r with mapped := r.mapped + f 32 8 / 65536 } else r) ∧
    ((∀ p ∈ s.seqs, p.1.region ≠ c.region) → (∀ p ∈ s.packets, p.region = c.region → p.finished = true) → (∀ q ∈ s.regions, q.parent ≠ some c.region) →
      (∀ k, (getCtx s k).run.state = .empty) →
      ∃ u t, exec (.regionRemove c) s = .next t ∧ Answered u t c 3 0 ∧ findRegion u c.region = none ∧ (∀ n, findKernel u c.region n = none) ∧
        ((∀ q ∈ s.regions, q.id ≠ c.region → q.id ≠ 0 → effTenant (asInstalled u) q.id ≠ effTenant (asInstalled s) c.region) →
          tabGet 0 u.fw.keys (effKey (asInstalled s) c.region) = 0)) ∧
    ((∃ p ∈ s.seqs, p.1.region = c.region) ∨ (∃ q ∈ s.regions, q.parent = some c.region) → ∃ t, exec (.regionRemove c) s = .next t ∧ Answered s t c 3 0x40)

/-- 19 R358, 12 R241-R243, R246, 13 R269: a packet of tile words is queued and its first word written into the package's shadow entry under the
region's next serial number; a malformed one is refused; a region that meets the conditions of R243 is installed beneath its parent. It rests on the
model's own readings of log entries 40, 57, 58. -/
def Obligations.HostStructures : Prop :=
  (∀ (c : Cmd) s r, Owns s c → findRegion s c.region = some r →
    let m := bodyAt c 16 2
    let e : EntryId := ⟨3, 0, c.region, true⟩
    let word := BitVec.ofNat 128 (bodyAt c 32 16)
    (chainOk c m = false → ∃ t, exec (.submit c) s = .next t ∧ Answered s t c 1 0x42) ∧
    (chainOk c m = true → s.packets = [] → isFree s e = true → ∃ t, exec (.submit c) s = .next t ∧ t.mem = s.mem ∧
      getEntry t e = { state := .check, work := some { word := word, serial := r.serial, u0 := 0, k0 := 0, k1 := 0 }, packet := some (0, 0)
                       deps := .ofNat 64 (bodyAt c 48 8) } ∧
      (findRegion t c.region).map (·.serial) = some (r.serial + 1) ∧
      t.packets = [{ key := 0, region := c.region, index := c.index, cpl := c.cpl, words := chainOf c m, accepted := 1, first := some r.serial }])) ∧
  ∀ (c : Cmd) s p,
    let blk := BitVec.ofNat 2048 (bodyAt c 16 256)
    let addr := BitVec.ofNat 64 (bodyAt c 272 8)
    let id := BitVec.ofNat 32 (blkField blk 0x10 4)
    let r : Region := { ((findRegion s id).getD {}) with id := id, addr := addr, blk := blk, parent := some p.id }
    let tree := { s with regions := (s.regions.filter fun q => q.id != id) ++ [r] }
    (s.regions.find? fun q => q.addr.toNat == blkField blk 0 8 && (q.id == 0 || blkField blk 0 8 != 0)) = some p →
    (id = 0 ∨ id ≠ c.region ∨ addr = 0 ∨ addr.toNat % 256 ≠ 0 ∨ (∃ q ∈ s.regions, q.id ≠ id ∧ q.addr = addr) →
      ∃ t, exec (.regionInstall c) s = .next t ∧ Answered s t c 2 0x40) ∧
    (id ≠ 0 → id = c.region → addr ≠ 0 → addr.toNat % 256 = 0 → (∀ q ∈ s.regions, q.id ≠ id → q.addr ≠ addr) → effTenant (asInstalled tree) id = c.tenant.toNat →
      s.fw.needVerifier = false →
      (blockOk (asInstalled tree) r p.id = false → ∃ t, exec (.regionInstall c) s = .next t ∧ Answered s t c 2 0x40) ∧
      (blockOk (asInstalled tree) r p.id = true → ∃ t q, exec (.regionInstall c) s = .next t ∧ findRegion t id = some q ∧ q.blk = blk ∧ q.addr = addr ∧ q.parent = some p.id ∧
        ∀ c, (getCtx t c).r = (getCtx s c).r))

/-- 19 R360-R362, 15 R311, R313: mailboxes of sixteen messages; the SPDM answers, each after the negotiation it needs; an image goes to the inactive
bank and the functions switch to it in order; a difference on re-measurement raises an alarm. It rests on the model's own readings of log entries 46,
62, 86. -/
def Obligations.FirmwareServices : Prop :=
  let answers := fun (s t : State) (code p1 p2 : Nat) (l : List Byte) =>
    t.fw.spdm.reply = [0x13, .ofNat 8 code, .ofNat 8 p1, .ofNat 8 p2] ++ l ∧ t = { s with fw := { s.fw with spdm := t.fw.spdm, needVerifier := t.fw.needVerifier } }
  let body := fun (n : BitVec 256) => shake256 64 certChain ++ leBytes 32 n.toNat
  (∀ (src dst : BitVec 3) (m : BitVec 512) s, let q := tabGet [] s.fw.mail dst.toNat
    (16 ≤ q.length → exec (.mailboxMessage src dst m) s = .next s) ∧
    (q.length < 16 → ∃ t, exec (.mailboxMessage src dst m) s = .next t ∧ t = { s with fw := { s.fw with mail := t.fw.mail } } ∧
      tabGet [] t.fw.mail dst.toNat = q ++ [(src, m)] ∧ ∀ k, k ≠ dst.toNat → tabGet [] t.fw.mail k = tabGet [] s.fw.mail k)) ∧
  (∀ s : State,
    (∃ t, exec .getVersion s = .next t ∧ answers s t 0x04 0 0 [0, 1, 0, 0x13] ∧ t.fw.spdm.stage = 1 ∧ t.fw.spdm.session = none) ∧
    (∀ flags, 1 ≤ s.fw.spdm.stage → ∃ t, exec (.getCapabilities flags) s = .next t ∧ answers s t 0x61 0 0 [0, 0, 0, 0, 0xF6, 2, 0, 0] ∧ t.fw.spdm.stage = 2) ∧
    (∀ a b, 2 ≤ s.fw.spdm.stage → ∃ t, exec (.negotiateAlgorithms a b) s = .next t ∧
      answers s t 0x63 0 0 [if a then 1 else 0, if b then 1 else 0] ∧ t.fw.spdm.stage = 3) ∧
    (3 ≤ s.fw.spdm.stage →
      (∃ t, exec .getDigests s = .next t ∧ answers s t 0x01 0 1 (shake256 64 certChain)) ∧
      (∀ off len, ∃ t, let part := (certChain.drop (BitVec.toNat off)).take (BitVec.toNat len)
        exec (.getCertificate 0 off len) s = .next t ∧
        answers s t 0x02 0 0 (leBytes 2 part.length ++ leBytes 2 (certChain.length - off.toNat - part.length) ++ part)) ∧
      (∀ n, ∃ t, exec (.challenge 0 n) s = .next t ∧ t.fw.spdm.challenged = true ∧
        answers s t 0x03 0 1 (body n ++ leBytes 64 (Config.deviceSignature (digest512 (body n))).toNat) ∧
        (s.fw.spdm.measured = true → t.fw.needVerifier = false)) ∧
      (∀ k n, 1 ≤ k.toNat → k.toNat ≤ 16 → ∃ t, exec (.getMeasurements k true n) s = .next t ∧ t.fw.spdm.measured = true ∧
        let l := [k, 1, 64, 0] ++ leBytes 64 (tabGet 0 s.fw.meas (k.toNat - 1)).toNat ++ leBytes 32 n.toNat
        answers s t 0x60 0 0 (l ++ leBytes 64 (Config.deviceSignature (digest512 l)).toNat)) ∧
      ∀ share n, ∃ t, exec (.keyExchange share n) s = .next t ∧ t.fw.spdm.session = some share ∧ t.fw.spdm.finished = false ∧
        answers s t 0x64 0 0 (leBytes 96 (Config.keyExchangeShare share).toNat ++ leBytes 32 n.toNat)) ∧
    (∀ mac, s.fw.spdm.session ≠ none → ∃ t, exec (.finish mac) s = .next t ∧ answers s t 0x65 0 0 (leBytes 64 mac.toNat) ∧ t.fw.spdm.finished = true) ∧
    (s.fw.spdm.session ≠ none → ∃ t, exec .endSession s = .next t ∧ answers s t 0x6C 0 0 [] ∧ t.fw.spdm.session = none) ∧
    (∀ code, ∃ t, exec (.unsupportedRequest code) s = .next t ∧ answers s t 0x7F 7 code.toNat []) ∧
    (s.fw.spdm.stage < 3 → ∀ k n, ∃ t, exec (.getMeasurements k true n) s = .next t ∧ answers s t 0x7F 4 0 [] ∧ t.fw.spdm.measured = s.fw.spdm.measured)) ∧
  (∀ (image sig : BitVec 512) (v : W64) s,
    (s.fw.spdm.session = none ∨ s.fw.spdm.finished = false ∨ s.fw.updating = true → exec (.firmwareImageWrite image sig v) s = .next s) ∧
    (s.fw.spdm.session ≠ none → s.fw.spdm.finished = true → s.fw.updating = false → ∃ t, exec (.firmwareImageWrite image sig v) s = .next t ∧
      t.fw.activeBank = s.fw.activeBank ∧ t.fw.rollback = s.fw.rollback ∧
      (if s.fw.activeBank then t.fw.bank0 = image ∧ t.fw.ver0 = v ∧ t.fw.bank1 = s.fw.bank1 else t.fw.bank1 = image ∧ t.fw.ver1 = v ∧ t.fw.bank0 = s.fw.bank0) ∧
      t.fw.updating = (Config.imageSignatureValid image sig && decide (s.fw.rollback.toNat ≤ v.toNat)))) ∧
  (∀ (f : BitVec 3) s, s.fw.updating = true → tabGet [] s.fw.mail f.toNat = [] →
    ([5, 6, 2, 3, 1, 0, 7, 4][s.fw.switched.length]? ≠ some f → exec (.functionSwitch f) s = .next s) ∧
    ([5, 6, 2, 3, 1, 0, 7, 4][s.fw.switched.length]? = some f → ∃ t, exec (.functionSwitch f) s = .next t ∧ t.fw.switched = s.fw.switched ++ [f] ∧
      (s.fw.switched.length < 7 → t.fw.activeBank = s.fw.activeBank ∧ t.fw.rollback = s.fw.rollback) ∧
      (s.fw.switched.length = 7 → t.fw.activeBank = (!s.fw.activeBank) ∧ t.fw.updating = false ∧
        t.fw.rollback = if s.fw.activeBank then s.fw.ver0 else s.fw.ver1))) ∧
  ∀ (f : BitVec 3) (d : BitVec 512) s,
    (tabGet 0 s.fw.code f.toNat = d → exec (.firmwareRemeasure f d) s = .next s) ∧
    (tabGet 0 s.fw.code f.toNat ≠ d → ∃ t, exec (.firmwareRemeasure f d) s = .next t ∧ t.fw.locked = true ∧ t.fw.keys = [] ∧
      t.fw.alarms = s.fw.alarms ++ [(2, .ofNat 8 (0x10 + f.toNat), tick s)])

/-- 19 R361, R363-R365, 15 R299, R307, R312, R313: what each level of reset clears and keeps, what an alarm does, the steps of a cluster's clock
ratio, the telemetry records. It rests on the model's own readings of log entries 44, 61, 62, 86. -/
def Obligations.ResetLevels : Prop :=
  let told := fun (s t : State) (ty : BitVec 16) => ∃ l, t.fw.telemetry = s.fw.telemetry ++ [(ty, l)]
  (∀ s : State, ∃ t, exec .packageColdReset s = .next t ∧ t.cx = {} ∧ t.others = [] ∧ t.fw.bank0 = s.fw.bank0 ∧ t.fw.bank1 = s.fw.bank1 ∧
    t.fw.rollback = s.fw.rollback ∧ (∃ l, t.fw.alarms = s.fw.alarms ++ l) ∧ (s.fw.locked = true → t.fw.needVerifier = true) ∧
    (bankOk s.fw s.fw.activeBank = true → t.fw.boot = 7 ∧ t.regions = [region0] ∧ t.mem = [] ∧ t.fw.locked = false ∧ t.fw.alarms = s.fw.alarms ∧
      ∀ k, k < 32 → (getCl t k).started = true)) ∧
  (∀ i ∈ [Instr.packageWarmReset, .thermalShutdown], ∀ s : State, ∃ t, exec i s = .next t ∧ t.cx = {} ∧ t.others = [] ∧ t.mem = s.mem ∧ t.now = s.now ∧
    t.fw.meas = s.fw.meas ∧ t.fw.locked = s.fw.locked ∧ t.fw.alarms = s.fw.alarms ∧ tabGet 0 t.fw.keys 0 = tabGet 0 s.fw.keys 0 ∧
    (∀ n, 2 ≤ n → tabGet 0 t.fw.keys n = 0) ∧ (s.fw.locked = false → 6 < s.fw.boot → t.regions = [region0] ∧ t.fw.boot = 7)) ∧
  (∀ s : State, s.fw.locked = false → ∃ t, exec .hostDieReset s = .next t ∧ t.fw.rings = [] ∧ tabGet 0 t.fw.keys 1 = Config.freshKey s.fw.keyFills ∧
    t.regions = s.regions ∧ t.mem = s.mem ∧ (∀ c, getCtx t c = getCtx s c) ∧ told s t 0x0701) ∧
  (∀ (d : BitVec 3) s, ∃ t, exec (.computeDieReset d) s = .next t ∧ (getDie t d.toNat).dsm = [] ∧ (getDie t d.toNat).tags = [] ∧
    (∀ c, ctxDie c = d.toNat → getCtx t c = {}) ∧ ∀ k, k < 4 → (getCl t (4 * d.toNat + k)).clearing = 12288 ∧ (getCl t (4 * d.toNat + k)).brake = none) ∧
  (∀ (cl : ClId) s,
    let busy := (∃ c, ctxCl c = cl.toNat ∧ (getCtx s c).run.state ≠ .empty) ∨ ∃ j ∈ (getCl s cl.toNat).hoist, j.kind ≠ 0
    (busy → exec (.clusterClear cl) s = .next s) ∧
    (¬ busy → ∃ t, exec (.clusterClear cl) s = .next t ∧ (getCl t cl.toNat).clearing = 12288 ∧ (getCl t cl.toNat).tenant = 0 ∧ (getCl t cl.toNat).trace = [] ∧
      (getCl t cl.toNat).recv = [] ∧ (∀ c, ctxCl c = cl.toNat → getCtx t c = {}) ∧ ∀ k, k / 8 = cl.toNat → (getCore t k).imem = [])) ∧
  (∀ (core : BitVec 8) s, ∃ t, exec (.coreReset core) s = .next t ∧ (∀ c, c.core = core → getCtx t c = {}) ∧ (getCore t core.toNat).imem = []) ∧
  (∀ s c ch, ∃ t, exec (.engineReset (.channel c ch)) s = .next t ∧ chanOf (getCtx t c) ch = {}) ∧
  (∀ s core, ∃ t, exec (.engineReset (.matrix core)) s = .next t ∧ ∀ c, c.core = core → (getCtx t c).m.staging = {} ∧ (getCtx t c).m.rowprog = 0) ∧
  (∀ s (cl : ClId), ∃ t, exec (.engineReset (.hoist cl)) s = .next t ∧ (getCl t cl.toNat).hoist = []) ∧
  (∀ s : State, ∃ t, exec (.engineReset .bolter) s = .next t ∧ (∀ r ∈ t.regions, r.dirty = []) ∧ told s t 0x0701) ∧
  (∀ s (p : BitVec 3), ∃ t, exec (.engineReset (.port p)) s = .next t ∧ t.fabric.planes = setBit s.fabric.planes p.toNat false) ∧
  (∀ (f : BitVec 3) s, ∃ t, exec (.firmwareCoreReset f) s = .next t ∧ t = { s with fw := t.fw } ∧ tabGet [] t.fw.mail f.toNat = [] ∧ told s t 0x0701 ∧
    t.fw.stopped = if s.fw.locked then s.fw.stopped else setBit s.fw.stopped f.toNat false) ∧
  (∀ s, ∀ p ∈ [(Tamper.mesh, (1 : Byte), (1 : Byte)), (.supply, 1, 2), (.clock, 1, 3), (.glitch, 1, 4), (.privileged, 3, 1)],
    ∃ t, exec (.tamperEvent p.1) s = .next t ∧ t.mem = s.mem ∧ t.regions = s.regions ∧ t.fw.keys = [] ∧ t.fw.locked = true ∧ t.fw.pairKeys = [] ∧ t.fabric.planes = 0 ∧
      (∀ k, (getRing t k).enable = false) ∧ (∀ k, (getCl t k).started = false) ∧ t.fw.alarms = s.fw.alarms ++ [(p.2.1, p.2.2, tick s)] ∧ told s t 0x0501) ∧
  (∀ (cl : ClId) (n : BitVec 5) s, let k := getCl s cl.toNat
    let ok := 1 ≤ n.toNat ∧ n.toNat ≤ 19 ∧ k.started = true ∧ (n.toNat = k.ratio.toNat + 1 ∨ n.toNat + 1 = k.ratio.toNat)
    (¬ ok → exec (.clockRatioChange cl n) s = .next s) ∧
    (ok → ∃ t, exec (.clockRatioChange cl n) s = .next t ∧ (getCl t cl.toNat).ratio = n ∧ (getCl t cl.toNat).segTick = tick s ∧ (getCl t cl.toNat).segCycle = k.wall ∧
      (getCl t cl.toNat).segReason = 2 ∧ told s t 0x0104)) ∧
  (∀ ty ∈ [(0x0101 : BitVec 16), 0x0102, 0x0103, 0x0201, 0x0402], ∀ i ∈ [Instr.telemetryPeriodic ty, .telemetryRequest ty], ∀ s : State,
    ∃ t, exec i s = .next t ∧ told s t ty ∧ t = { s with fw := { s.fw with telemetry := t.fw.telemetry, telSeq := t.fw.telSeq } } ∧
      cellGet t.fw.telSeq ty.toNat = cellGet s.fw.telSeq ty.toNat + 1)

/-- 12 R250, R260, R261, 16 R385: a secondary that is starved, or that no waiting word displaces, takes the primary role with its stall count; the
marks of starvation and of yield are set at their thresholds; pre-emption saves a secondary alone, or every primary of a region's group together or
none. It rests on the model's own readings of log entry 52. -/
def Obligations.RolesAndYield : Prop :=
  (∀ (core : BitVec 8) (s : State),
    let p := primOf s core.toNat
    let c := otherSlot p
    let y := getCtx s c
    let k := getCl s (ctxCl c)
    let boundary := (getCore s core.toNat).vacant = true ∧ (getCtx s p).run.state = .empty
    let wins := y.run.state ≠ .empty ∧ y.run.state ≠ .saving ∧ (y.prog.starved = true ∨ waitsForCore s core.toNat = false)
    (¬ boundary → exec (.promotion core) s = .next s) ∧
    (boundary → ¬ wins → ∃ t, exec (.promotion core) s = .next t ∧ CoreTo s t core.toNat { getCore s core.toNat with vacant := false }) ∧
    (boundary → wins → y.mon.active = false → ∃ u t, exec (.promotion core) s = .next t ∧
      CoreTo s u core.toNat { getCore s core.toNat with prim := c.sec, vacant := false } ∧
      CtxTo u t c { y with
        run := { y.run with last := max (k.ctime - (k.wall - y.run.last)) (k.ctime + 1 - dueOf s c) }
        prog := { y.prog with starve := 0, starved := false, promoted := true } })) ∧
  (∀ (core : BitVec 8) (s : State),
    let c := otherSlot (primOf s core.toNat)
    let y := getCtx s c
    let due := y.run.state ≠ .empty ∧ 256 * effStarve s y.prog.region ≤ y.prog.starve
    (¬ due → exec (.starvationMark core) s = .next s) ∧
    (due → ∃ t, exec (.starvationMark core) s = .next t ∧ CtxTo s t c { y with prog := { y.prog with starved := true } })) ∧
  (∀ (c : CtxId) (s : State),
    let x := getCtx s c
    let due := x.run.state ≠ .empty ∧ effYield s x.prog.region ≤ x.prog.spin
    (¬ due → exec (.yieldEligible c) s = .next s) ∧
    (due → ∃ t, exec (.yieldEligible c) s = .next t ∧ CtxTo s t c { x with prog := { x.prog with eligible := true } })) ∧
  ∀ (c : CtxId) (s : State),
    let x := getCtx s c
    let cl := ctxCl c
    let prior := outranked s x cl = true ∧ lowest s c = true
    let saves := fun (t : State) (d : CtxId) (a g : W64) => let z := getCtx s d; let w := getCtx t d
      w = { z with
        run := { z.run with state := .saving, waiting := false, portUntil := none, itemUntil := 0 }
        prog := { z.prog with saveTo := a, saveCause := 0, saveGroup := g, saveWaiter := w.prog.saveWaiter, yielded := false, eligible := false } } ∧
      w.prog.saveWaiter.isSome = waitsNow s d
    (savable x = false → exec (.preemption c) s = .next s) ∧
    (isPrim s c = false →
      let wish := (canYield s x = true ∧ wanted s x [c.core.toNat] = true) ∨ prior
      (¬ wish ∨ poolOf s x.prog.region = none → exec (.preemption c) s = .next s) ∧
      ∀ r a, wish → savable x = true → poolOf s x.prog.region = some r → poolPlace r imageSize = some a → ∃ t, exec (.preemption c) s = .next t ∧
        saves t c (.ofNat 64 a) 0 ∧ (∀ d, d ≠ c → getCtx t d = getCtx s d) ∧ t.mem = s.mem ∧ t.clusters = s.clusters ∧
        findRegion t r.id = some { r with carved := (.ofNat 64 a, imageSize, x.prog.region) :: r.carved }) ∧
    (isPrim s c = true →
      let g := primGroup s cl x.prog.region
      let wish := ((∀ d ∈ g, canYield s (getCtx s d) = true) ∧ wanted s x ((List.range 8).map (8 * cl + ·)) = true) ∨ prior
      (¬ wish ∨ (∃ d ∈ g, savable (getCtx s d) = false) → exec (.preemption c) s = .next s) ∧
      ∃ t, exec (.preemption c) s = .next t ∧ (t = s ∨ ∃ ga, (∀ d ∈ g, ∃ a, saves t d a ga) ∧ ∀ d, d ∉ g → getCtx t d = getCtx s d))

/-- 12 R262, R263, 13 R288, 16 R346: a progress timeout records every waiting context and stops the fault domain; a monitor that escalated goes on
with the firmware's reply, or its fault domain stops with the monitor's cause. It rests on the model's own readings of log entries 59, 67. -/
def Obligations.TimeoutsAndEscalations : Prop :=
  let alone := fun (s : State) (region : W32) => s.seqs = [] ∧ s.packets = [] ∧
    ∀ c, (getCtx s c).run.state ≠ .empty → inDomain s (faultDomain s region (s.regions.length + 1)) (getCtx s c).prog.region = true →
      (getCtx s c).con.c0.xfers = [] ∧ (getCtx s c).con.c1.xfers = [] ∧ (∀ r, findRegion s (getCtx s c).prog.region = some r → r.dump = 0)
  let stopped := fun (s t : State) (region : W32) => ∀ c,
    getCtx t c = if (getCtx s c).run.state ≠ .empty ∧ inDomain s (faultDomain s region (s.regions.length + 1)) (getCtx s c).prog.region = true then {} else getCtx s c
  (∀ (region : W32) (s : State) r, findRegion s region = some r →
    (region = 0 ∨ r.timer < 1024 * effTimeout s region → exec (.progressTimeout region) s = .next s) ∧
    (region ≠ 0 → 1024 * effTimeout s region ≤ r.timer → effTracequota s region = 0 → alone s region → ∃ t, exec (.progressTimeout region) s = .next t ∧
      stopped s t region ∧ t.mem = s.mem ∧
      t.fw.errLog = s.fw.errLog ++ (((regionCtxs s region).filter fun c => waitsNow s c).map fun c => BitVec.ofNat 256 (waiterRecord s c false)) ++
        r.saved.filterMap (·.waiter) ++ [faultReport 0 0x32 3 0 0 0])) ∧
  ∀ (c : CtxId) (s : State) (r : BitVec 6),
    let x := getCtx s c
    let on := fun (v : W64) (pc : W32) (rpt : BitVec 4) => { x with
      r := { sSet x.r r.toNat v with pc := pc }, ctl := { x.ctl with rptidx := rpt }, mon := { x.mon with esc := false }
      run := { x.run with hold := none, state := .monitor, last := (getCl s (ctxCl c)).wall, gap := 0 } }
    (x.run.hold = some (.esc r false) → ∀ v, ∃ t, exec (.escAnswer c (.resume v)) s = .next t ∧ CtxTo s t c (on v x.r.pc x.ctl.rptidx)) ∧
    (∀ b, x.run.hold = some (.esc r true) → fetchBundle s c x = .ok b → ∀ v,
      ∃ t, exec (.escAnswer c (.resume v)) s = .next t ∧ CtxTo s t c (on v (x.r.pc + .ofNat 32 b.len) 0)) ∧
    (∀ fault, x.run.hold = some (.esc r fault) → alone s x.prog.region → ∃ t, exec (.escAnswer c .stop) s = .next t ∧ stopped s t x.prog.region ∧ t.mem = s.mem ∧
      t.fw.errLog = s.fw.errLog ++ [faultReport 0 (.ofNat 8 x.mon.mcause.toNat) 3 (whereCore c.core.toNat) 0 x.mon.mtval.toNat]) ∧
    (x.run.hold = none → ∀ ans, exec (.escAnswer c ans) s = .next s)

/-- 13 R291, 16 R318, R320, R321, R325: the sequencer's answer to a request of a monitor; a settled context is written to its image, its slot is
EMPTY and its present units depart, each marked as it is written; a write or a copy that fails ends the save with SAVE_FAILED. It rests on the
model's own readings of log entries 33, 53, 54. -/
def Obligations.SaveSteps : Prop :=
  let told := fun (x : Ctx) (code : Byte) => { x with mon := { x.mon with ctxBusy := false, ctxCode := code, ctxReq := none } }
  let failed := fun (s u t : State) (cl : Nat) (j : HoistJob) (v : Saved) => poolOf s j.region = none → findSaved s j.region j.image = some v → v.entry = none →
    v.bundle = none → t.mem = u.mem ∧ findSaved t j.region j.image = none ∧ t.fw.errLog = s.fw.errLog ++ [faultReport 0 0x1A 0 (whereCore j.ctx.core.toNat) 0 (unitSpan j.unit).1] ∧
      (getCl t cl).hoist = (getCl s cl).hoist.filter fun i => !((i.kind == 1 || i.kind == 2) && i.image == j.image && i.region == j.region)
  (∀ (c : CtxId) (s : State) (a : W64),
    let x := getCtx s c
    (x.mon.ctxReq = none → exec (.ctxRequestDecided c) s = .next s) ∧
    (x.mon.ctxReq = some (false, a) → x.run.state = .monitor →
      (imagePlace a = false → ∃ t, exec (.ctxRequestDecided c) s = .next t ∧ CtxTo s t c (told x 0x04)) ∧
      (imagePlace a = true → ∃ t, exec (.ctxRequestDecided c) s = .next t ∧ CtxTo s t c { told x 0 with
        run := { x.run with state := .saving, waiting := (getCtx t c).prog.saveWaiter.isSome, portUntil := none, itemUntil := 0 }
        prog := { x.prog with saveTo := a, saveCause := 0, saveGroup := 0, saveWaiter := (getCtx t c).prog.saveWaiter, yielded := false, eligible := false } })) ∧
    (x.mon.ctxReq = some (true, a) →
      ((getCtx s (otherSlot c)).run.state ≠ .empty ∨ imagePlace a = false → restCheck s c a = 0x04) ∧
      (restCheck s c a ≠ 0 → ∃ t, exec (.ctxRequestDecided c) s = .next t ∧ CtxTo s t c (told x (restCheck s c a))) ∧
      (restCheck s c a = 0 → ∃ u t, exec (.ctxRequestDecided c) s = .next t ∧ CtxTo s u c (told x 0) ∧
        CtxTo u t (otherSlot c) { run := { state := .loading }, prog := { region := x.prog.region, image := a } }))) ∧
  (∀ s : State, let c := s.cid
    let x := s.cx
    (x.run.state ≠ .saving ∨ (x.prog.saveGroup = 0 ∧ settled s c = false) → exec (.contextSave c) s = .next s) ∧
    ∀ u, x.run.state = .saving → x.prog.saveGroup = 0 → settled s c = true → x.run.hold = none → x.con.ctrs.length ≤ 3328 → x.prog.saveTo.toNat / 2 ^ 60 < 8 →
      (findRegion s x.prog.region).isSome = true →
      let y := { x with m := { x.m with rowprog := 0 } }
      writeVa s x.prog.region x.prog.saveTo.toNat (imageStart s c y x.prog.saveCause 0) = .ok u → ∃ t, exec (.contextSave c) s = .next t ∧
        t.mem = u.mem ∧ t.cx = {} ∧ t.others = s.others ∧ (getCore t c.core.toNat).vacant = ((getCore s c.core.toNat).vacant || isPrim s c) ∧
        (getCl t (ctxCl c)).hoist = ((getCl s (ctxCl c)).hoist.filter fun j => !(j.kind == 0 && j.ctx == c)) ++ departJobs c y ∧
        (∀ v, v ∈ x.prog.footprint → v < 800 → x.prog.absent = [] → ∃ j ∈ departJobs c y, j.unit = v ∧ j.kind = 1 ∧ j.image = x.prog.saveTo ∧ j.data = unitBytes x v) ∧
        ∃ v, findSaved t x.prog.region x.prog.saveTo = some v ∧ v.image = x.prog.saveTo ∧ v.group = 0 ∧ v.waiter = x.prog.saveWaiter ∧ v.parked = x.run.parkedOn ∧
          v.entry = x.prog.entry ∧ v.lost = x.run.brakeTrap ∧ v.keep = (x.con.c0.xfers.map fun q => (Side.a, q)) ++ x.con.c1.xfers.map fun q => (Side.b, q)) ∧
  (∀ (cl : ClId) (s : State),
    (nextWrite s cl.toNat = none → exec (.unitDepartureDone cl false) s = .next s) ∧
    ∀ j, nextWrite s cl.toNat = some j → j.image.toNat / 2 ^ 60 < 8 →
      (∀ l u w, (if j.kind = 1 then .ok j.data else opRead s j.region (j.src.toNat + (unitSpan j.unit).1) (unitSpan j.unit).2) = .ok l →
        writeVa s j.region (j.image.toNat + (unitSpan j.unit).1) l = .ok u → writeVa u j.region (j.image.toNat + 0x80 + j.unit) [2] = .ok w →
        ∃ t, exec (.unitDepartureDone cl false) s = .next t ∧ ClTo w t cl.toNat { getCl s cl.toNat with hoist := (getCl s cl.toNat).hoist.filter fun i => i != j }) ∧
      ∀ u v, writeVa s j.region (j.image.toNat + 0x80 + j.unit) [3] = .ok u →
        ∃ t, exec (.unitDepartureDone cl true) s = .next t ∧ failed s u t cl.toNat j v) ∧
  ∀ (cl : ClId) (s : State),
    let late := fun (j : HoistJob) => j.kind == 2 && (dirByte s j.region j.src j.unit == some 3 || j.pendSince.any fun t => decide (t + 2 ^ 20 ≤ tick s))
    ((getCl s cl.toNat).hoist.find? late = none → exec (.saveFailed cl) s = .next s) ∧
    ∀ j v, (getCl s cl.toNat).hoist.find? late = some j → ∃ t, exec (.saveFailed cl) s = .next t ∧ failed s s t cl.toNat j v

/-- 03 R32, 13 R291, 16 R320, R321, R325: five steps complete. The bundle due issues and commits what its slot's meaning leaves; an accepted request
of a monitor puts its slot in SAVING or the other slot in LOADING; a settled context is saved; a unit that departs is written; a save that cannot go
on fails. It rests on the model's own readings of log entries 33, 53, 54. -/
def Obligations.StepsComplete : Prop :=
  (∀ (s u : State) (y : Syl) (w : Nat), Ready s y → PassesChecks s y → isBand y = false → decodeSyl y.slot w = .ok y →
    fetchBundle s s.cid s.cx = .ok { loneBun s.cx y with words := [(y.slot.num, w)] } → fetchAllowed s.cx (loneBun s.cx y) = true →
    isDue s (some (loneBun s.cx y)) = true → semForm y (loneIss s y) (loneStart s y) = .ok u → exec (.bundleIssue ⟨s.cid, none⟩) s = .next (loneCommit s y u)) ∧
  (∀ (s : State) (o : SR) (w : Nat), Ready s (.s (.add o)) → decodeSyl .s w = .ok (.s (.add o)) →
    fetchBundle s s.cid s.cx = .ok { loneBun s.cx (.s (.add o)) with words := [(0, w)] } → fetchAllowed s.cx (loneBun s.cx (.s (.add o))) = true →
    isDue s (some (loneBun s.cx (.s (.add o)))) = true → ∃ t, exec (.bundleIssue ⟨s.cid, none⟩) s = .next t ∧ SameMemory s t ∧
      Leaves s t { s.cx with r := { sSet s.cx.r o.rd.toNat (sv s o.ra + sv s o.rb) with pc := s.cx.r.pc + 8 } }) ∧
  (∀ (c : CtxId) (s : State) (a : W64), (getCtx s c).mon.ctxReq = some (false, a) → (getCtx s c).run.state = .monitor → imagePlace a = true →
    ∃ t, exec (.ctxRequestDecided c) s = .next t ∧ t.mem = s.mem ∧ (∀ d, d ≠ c → getCtx t d = getCtx s d) ∧
      let x := getCtx t c
      x.run.state = .saving ∧ x.prog.saveTo = a ∧ x.mon.ctxBusy = false ∧ x.mon.ctxCode = 0 ∧ x.mon.ctxReq = none ∧ x.r = (getCtx s c).r) ∧
  (∀ (c : CtxId) (s : State) (a : W64), (getCtx s c).mon.ctxReq = some (true, a) → restCheck s c a = 0 →
    ∃ t, exec (.ctxRequestDecided c) s = .next t ∧ t.mem = s.mem ∧ (getCtx t c).mon.ctxBusy = false ∧ (getCtx t c).mon.ctxCode = 0 ∧ (getCtx t c).r = (getCtx s c).r ∧
      (getCtx t (otherSlot c)).run.state = .loading ∧ (getCtx t (otherSlot c)).prog.image = a ∧ ∀ d, d ≠ c → d ≠ otherSlot c → getCtx t d = getCtx s d) ∧
  (∀ (c : CtxId) (s u : State), let x := getCtx s c
    x.run.state = .saving → x.prog.saveGroup = 0 → settled s c = true → x.run.hold = none → x.con.ctrs.length ≤ 3328 → x.prog.saveTo.toNat / 2 ^ 60 < 8 →
    (findRegion s x.prog.region).isSome = true →
    writeVa s x.prog.region x.prog.saveTo.toNat (imageStart s c { x with m := { x.m with rowprog := 0 } } x.prog.saveCause 0) = .ok u →
    ∃ t, exec (.contextSave c) s = .next t ∧ t.mem = u.mem ∧ getCtx t c = {} ∧ (∀ d, d ≠ c → getCtx t d = getCtx s d) ∧
      ∃ v, findSaved t x.prog.region x.prog.saveTo = some v ∧ v.core = c.core ∧ v.entry = x.prog.entry) ∧
  (∀ (cl : ClId) (s u v : State) (j : HoistJob), nextWrite s cl.toNat = some j → j.kind = 1 → j.image.toNat / 2 ^ 60 < 8 →
    writeVa s j.region (j.image.toNat + (unitSpan j.unit).1) j.data = .ok u → writeVa u j.region (j.image.toNat + 0x80 + j.unit) [2] = .ok v →
    ∃ t, exec (.unitDepartureDone cl false) s = .next t ∧ t.mem = v.mem ∧ (∀ d, getCtx t d = getCtx s d) ∧
      (getCl t cl.toNat).hoist = (getCl s cl.toNat).hoist.filter fun i => i != j) ∧
  ∀ (cl : ClId) (s : State) (j : HoistJob), (getCl s cl.toNat).hoist.find? (fun j => j.kind == 2 &&
      (dirByte s j.region j.src j.unit == some 3 || j.pendSince.any fun t => decide (t + 2 ^ 20 ≤ tick s))) = some j → (savedOwner s j).2.1 = none →
    ∃ t, exec (.saveFailed cl) s = .next t ∧ t.mem = s.mem ∧ (∀ d, getCtx t d = getCtx s d) ∧ findSaved t j.region j.image = none ∧
      (getCl t cl.toNat).hoist = ((getCl s cl.toNat).hoist.filter fun i => !((i.kind == 1 || i.kind == 2) && i.image == j.image && i.region == j.region)) ∧
      t.fw.errLog = s.fw.errLog ++ [faultReport 0 0x1A 0 (whereCore j.ctx.core.toNat) 0 ((savedOwner s j).2.2.getD (unitSpan j.unit).1)]

/-- 16 R322-R324, 13 R291: a restored context runs on from its image with every unit absent, and its first issue keeps its stall count; a unit that
is pulled is present; one whose directory byte reads 01 waits and looks again 256 ticks later; what cannot be read stops the context with
RESTORE_UNREACHABLE. It rests on the model's own readings of log entries 32, 33. -/
def Obligations.RestoreSteps : Prop :=
  let report := fun (c : CtxId) (serial : W32) (detail : Nat) => faultReport 0 0x19 0 (whereCore c.core.toNat) serial detail
  let gone := fun (s t : State) (c : CtxId) (detail : Nat) => getCtx t c = {} ∧ (∀ d, d ≠ c → getCtx t d = getCtx s d) ∧ t.mem = s.mem ∧
    t.fw.errLog = s.fw.errLog ++ [report c (getCtx s c).prog.serial detail]
  let lone := fun (s : State) (x : Ctx) => x.prog.saveGroup = 0 ∧ x.prog.entry = none ∧ x.con.c0.xfers = [] ∧ x.con.c1.xfers = [] ∧ poolOf s x.prog.region = none
  (∀ (c : CtxId) (region : W32) (image : W64) (s : State), findSaved s region image = none → poolOf s region = none →
    let free := clusterOpen s (ctxCl c) region = true ∧
      ((getCtx s c).run.state = .empty ∨ ((getCtx s c).run.state = .loading ∧ (getCtx s c).prog.image = image))
    (¬ free → exec (.contextRestore c region image) s = .next s) ∧
    (free → (∀ l, opRead s region image.toNat 0x10000 = .ok l → imageChecks s region l = false) → ∃ t, exec (.contextRestore c region image) s = .next t ∧
      (getCtx t c).run.state = .empty ∧ (∀ d, d ≠ c → getCtx t d = getCtx s d) ∧ t.mem = s.mem ∧ t.fw.errLog = s.fw.errLog ++ [report c 0 image.toNat]) ∧
    ∀ l k u, free → opRead s region image.toNat 0x10000 = .ok l → imageChecks s region l = true → bitAt (imgField l 6 1) 3 = false →
      findKernel s region (.ofNat 16 (imgField l 0x24 2)) = some k → (∀ v, v < 800 → imgField l (0x80 + v) 1 % 4 ≠ 3) → (getCl s (ctxCl c)).hoist = [] →
      blocksFit s c k.footprint = true → makeResident s c k = some u →
      let y := headOf l
      y.ctl.dictLoaded = false → y.mon.active = false → y.prog.leaves = [] → ∃ t, exec (.contextRestore c region image) s = .next t ∧
        let x := getCtx t c
        x.run.state = .run ∧ x.r = y.r ∧ x.m = y.m ∧ x.sys = y.sys ∧ x.va = y.va ∧ x.vb = y.vb ∧ x.ctl.forms = y.ctl.forms ∧ x.ctl.rptidx = y.ctl.rptidx ∧
        x.prog.region = region ∧ x.prog.image = image ∧ x.prog.footprint = k.footprint ∧ x.prog.absent = k.footprint ∧ x.prog.kernel = y.prog.kernel ∧
        (∀ b, fetchBundle t c x = .ok b → x.run.last = ownNow t c + hdrStall b.hdr + 1 - dueOf t c) ∧
        (∀ d, d ≠ c → getCtx t d = getCtx s d) ∧ t.mem = s.mem ∧ t.cores = u.cores) ∧
  ∀ (c : CtxId) (unit : BitVec 10) (s : State),
    let x := getCtx s c
    let n := unit.toNat
    let a := x.prog.image.toNat + (unitSpan n).1
    (isAbsent x n = false → exec (.pullLand c unit) s = .next s ∧ exec (.restoreUnreachable c unit) s = .next s) ∧
    (isAbsent x n = true → pullJob s c n = none → dirByte s x.prog.region x.prog.image n = some 2 → blockFree s c n = true → poolOf s x.prog.region = none →
      ∀ l, opRead s x.prog.region a (unitSpan n).2 = .ok l → ∃ u t, exec (.pullLand c unit) s = .next t ∧
        CtxTo s u c (let y := putUnit x n l; { y with prog := { y.prog with absent := y.prog.absent.filter (· != n) } }) ∧ ClTo u t (ctxCl c) (getCl s (ctxCl c)) ∧
        (n < 512 → l.length = 4096 → ∀ b, b < 4096 → cellGet (getCtx t c).prog.scratch (4096 * n + b) = (l[b]?).getD 0)) ∧
    (isAbsent x n = true → pullJob s c n = none → dirByte s x.prog.region x.prog.image n = some 1 → ∃ t, exec (.pullLand c unit) s = .next t ∧
      ClTo s t (ctxCl c) { getCl s (ctxCl c) with hoist := (getCl s (ctxCl c)).hoist ++
        [{ kind := 0, ctx := c, region := x.prog.region, unit := n, image := x.prog.image, pendSince := some (tick s), reread := tick s + 256 }] }) ∧
    (isAbsent x n = true → dirByte s x.prog.region x.prog.image n = some 3 → lone s x →
      ∃ t, exec (.restoreUnreachable c unit) s = .next t ∧ gone s t c a) ∧
    (∀ j, pullJob s c n = some j → isAbsent x n = true → j.pendSince = some (tick s - 2 ^ 20) → 2 ^ 20 ≤ tick s → dirByte s x.prog.region x.prog.image n = some 1 → lone s x →
      ∃ t, exec (.restoreUnreachable c unit) s = .next t ∧ gone s t c a) ∧
    ∀ j since, pullJob s c n = some j → isAbsent x n = true → j.pendSince = some since → j.region = x.prog.region → j.image = x.prog.image →
      (tick s < j.reread → exec (.directoryReread c unit) s = .next s) ∧
      (j.reread ≤ tick s → dirByte s x.prog.region x.prog.image n = some 1 → tick s < since + 2 ^ 20 → ∃ t, exec (.directoryReread c unit) s = .next t ∧
        ClTo s t (ctxCl c) { getCl s (ctxCl c) with hoist := (getCl s (ctxCl c)).hoist.map fun i =>
          if i.kind = 0 ∧ i.ctx = c ∧ i.unit = n then { i with pendSince := some (i.pendSince.getD (tick s)), reread := tick s + 256 } else i }) ∧
      (j.reread ≤ tick s → dirByte s x.prog.region x.prog.image n = some 2 → blockFree s c n = true → poolOf s x.prog.region = none →
        ∀ l, opRead s x.prog.region a (unitSpan n).2 = .ok l → ∃ t, exec (.directoryReread c unit) s = .next t ∧
          getCtx t c = (let y := putUnit x n l; { y with prog := { y.prog with absent := y.prog.absent.filter (· != n) } }) ∧
          pullJob t c n = none ∧ (∀ d, d ≠ c → getCtx t d = getCtx s d) ∧ t.mem = s.mem)

/-- 18 R342, R343, R345, 13 R292: a pending stop waits for a boundary, WATCH before DEBUG_STOP; it writes its record and enters the monitor; an
attached debugger asks for one; the first watched write of a channel is recorded once and makes a stop pending. It rests on the model's own readings
of log entry 12. -/
def Obligations.StopSteps : Prop :=
  let cause := fun (s : State) (c : CtxId) (n : Nat) => BitVec.ofNat 13 (n + 0x700 + (if isPrim s c then 0 else 4096))
  (∀ (c : CtxId) (s : State),
    let x := getCtx s c
    let k := getCl s (ctxCl c)
    let due := mayIssue x = true ∧ isDue (focus s c) none = true ∧ x.mon.active = false ∧ x.ctl.rptidx = 0 ∧ (x.run.boundary = true ∨ currentLoop x.r = none)
    let lands := fun (t : State) (code n : Nat) (val : W64) (run : Run) =>
      Entered { x with run := run } (getCtx t c) (cause s c code) val x.r.pc 0 ∧ (∀ d, d ≠ c → getCtx t d = getCtx s d) ∧ t.mem = s.mem ∧
      (getCl t (ctxCl c)).trace = k.trace ++ [(x.prog.region, .ofNat 256 (stopRecord s c { code := .ofNat 8 code, val := val, slot := some 7 } n))]
    (¬ due ∨ (x.run.watchStop = none ∧ x.run.dstop = none) → exec (.stopLanding c) s = .next s) ∧
    (∀ n, due → x.run.watchStop = none → x.run.dstop = some n → k.trace.length < 64 → ∃ t, exec (.stopLanding c) s = .next t ∧
      lands t 0x21 n.toNat (n.setWidth 64) { x.run with dstop := none } ∧ (getCtx t c).run.dstop = none) ∧
    ∀ w, due → x.run.watchStop = some w → w.chan = none → k.trace.length < 64 → ∃ t, exec (.stopLanding c) s = .next t ∧
      lands t 0x20 w.wp w.addr { x.run with watchStop := none } ∧ (getCtx t c).run.watchStop = none ∧ (getCtx t c).run.dstop = x.run.dstop) ∧
  (∀ (c : CtxId) (code : BitVec 14) (s : State), let x := getCtx s c
    (x.mon.dbg = false ∨ x.run.state = .empty → exec (.debuggerStopRequest c code) s = .next s) ∧
    (x.mon.dbg = true → x.run.state ≠ .empty → ∃ t, exec (.debuggerStopRequest c code) s = .next t ∧
      CtxTo s t c { x with run := { x.run with dstop := some code } })) ∧
  (∀ (region : W32) (on : Bool) (s : State), ∃ t, exec (.debuggerAttach region on) s = .next t ∧ t.mem = s.mem ∧
    findRegion t region = (findRegion s region).map (fun r => { r with dbg := on }) ∧ ∀ c, let x := getCtx s c
      getCtx t c = if x.run.state ≠ .empty ∧ x.prog.region = region then { x with mon := { x.mon with dbg := on } } else x) ∧
  ∀ (c : CtxId) (ch : Side) (s : State) (q : Xfer),
    let x := getCtx s c
    let k := getCl s (ctxCl c)
    findXfer x ch q.tid = some q → canComplete s c ch q.tid = true →
      (q.watched = true ∨ watchedBy s c q = none → exec (.watchChannelMatch c ch q.tid) s = .next s) ∧
      ∀ a n, q.watched = false → watchedBy s c q = some (a, n) → x.run.watchStop = none → k.trace.length < 64 → ∃ t, exec (.watchChannelMatch c ch q.tid) s = .next t ∧
        (getCtx t c).run.watchStop = some { addr := .ofNat 64 a, wp := n, chan := some (ch, q.tid), found := true, from_ := k.ctime } ∧
        findXfer (getCtx t c) ch q.tid = some { q with watched := true } ∧ (getCtx t c).r = x.r ∧ t.mem = s.mem ∧ (∀ d, d ≠ c → getCtx t d = getCtx s d) ∧
        (getCl t (ctxCl c)).trace = k.trace ++ [(x.prog.region, .ofNat 256 (channelRecord s c ch q n a 0 true true))]

/-- 18 R337, R339, R341: a sample point records every context of a sampled region; a segment ends before tr.delta passes 2^31; records drain in order
into the region's buffer, and one that finds it full, or no buffer, is counted as lost; nothing that a context sees changes. It rests on the model's
own readings of log entry 87. -/
def Obligations.TraceSteps : Prop :=
  (∀ (cl : ClId) (s : State), let k := getCl s cl.toNat
    k.trace.length ≤ 48 → ∃ t, exec (.samplePoint cl) s = .next t ∧ ClTo s t cl.toNat { k with
      trace := k.trace ++ ((ctxsOf s cl.toNat).filter fun c => decide ((getCtx s c).run.state ≠ .empty) && sampleAt s cl.toNat (getCtx s c).prog.region).map fun c =>
        ((getCtx s c).prog.region, .ofNat 256 (sampleRecord s c)) }) ∧
  (∀ (cl : ClId) (s : State), let k := getCl s cl.toNat
    (k.wall - k.segCycle < 2 ^ 31 → exec (.segmentRollover cl) s = .next s) ∧
    (2 ^ 31 ≤ k.wall - k.segCycle → k.trace.length + s.regions.length ≤ 64 → ∃ t, exec (.segmentRollover cl) s = .next t ∧ ClTo s t cl.toNat { k with
      segTick := tick s, segCycle := k.wall, segReason := 3, started := true
      trace := k.trace ++ (clusterRegions s cl.toNat).map fun r =>
        (r, .ofNat 256 (packFields [(3, 1), (3, 1), (cl.toNat / 4 + 16 * (cl.toNat % 4), 2), (k.ratio.toNat, 1), (0, 3), (tick s, 8), (k.wall, 8)])) })) ∧
  ∀ (cl : ClId) (s : State), let k := getCl s cl.toNat
    (k.trace = [] → exec (.traceDrain cl) s = .next s) ∧
    ∀ r rec l q, k.trace = (r, rec) :: l → findRegion s r = some q →
      let u := modCl s cl.toNat fun k => { k with trace := l }
      let cap := effTracequota s r * 128 - 2
      let lost := fun (t : State) => (getCl t cl.toNat).trace = l ∧ (∀ c, getCtx t c = getCtx s c) ∧
        ∃ p, findRegion t r = some p ∧ p.tbLost = q.tbLost + 1 ∧ p.tbWrite = q.tbWrite
      (effTracequota s r = 0 → ∃ t, exec (.traceDrain cl) s = .next t ∧ lost t ∧ t.mem = s.mem ∧
        tabGet 0 t.fw.dropped r.toNat = tabGet 0 s.fw.dropped r.toNat + 1) ∧
      ∀ rd, effTracequota s r ≠ 0 → readVa u r (effTrbase s r + 8) 8 = .ok rd →
        let full := cap ≤ (q.tbWrite + 2 ^ 64 - leNat rd) % 2 ^ 64
        (full → ∃ t, exec (.traceDrain cl) s = .next t ∧ lost t ∧ t.fw = s.fw) ∧
        ∀ w, ¬ full → writeVa u r (effTrbase s r + 64 + 32 * (q.tbWrite % cap)) (leBytes 32 rec.toNat) = .ok w → ∃ t, exec (.traceDrain cl) s = .next t ∧
          (getCl t cl.toNat).trace = l ∧ (∀ c, getCtx t c = getCtx s c) ∧ t.fw = s.fw ∧
          (∃ p, findRegion t r = some p ∧ p.tbWrite = q.tbWrite + 1 ∧ p.tbLost = q.tbLost) ∧
          t.mem = (trHeader (trHeader (modRegion w r fun p => { p with tbWrite := p.tbWrite + 1 }) r 0 (q.tbWrite + 1)) r 0x10 q.tbLost).mem

/-- 12 R245, 13 R270-R273, R275: a tile word leaves CHECK for STAGE, or faults with the first failing check; one that its level performs itself is
performed as it becomes active: `tw.wait` compares, `tw.signal` stores, `tw.barrier` and the band complete. It rests on the model's own readings of
log entries 16, 39, 80, 82. -/
def Obligations.TileWords : Prop :=
  let words : List (Nat × (TileIn → Instr)) := [(0x01, .twMatmul), (0x02, .twMatmulp), (0x03, .twUnary), (0x04, .twBinary), (0x05, .twReduce), (0x06, .twTranspose),
    (0x07, .twGather), (0x08, .twScatteradd), (0x0A, .twPhreduce), (0x0B, .twCall), (0x0E, .twCopy), (0x0F, .twFill), (0x10, .twQuant), (0x11, .twDequant),
    (0x12, .twConvert), (0x13, .twRng), (0x14, .twWadd), (0x15, .twDrain)]
  let own : List (Nat × (TileIn → Instr)) := [(0x09, .twAllreduce), (0x0C, .twBarrier), (0x0D, .twSfence), (0x16, .twSignal), (0x17, .twWait), (0x18, .twNop)]
  let band := (List.range 16).map fun k => (0xF0 + k, Instr.twForwardBand (.ofNat 4 k))
  let at_ := fun (s : State) (op : Nat) (t : TileIn) (x : Entry) => getEntry s t.e = x ∧ x.state = .check ∧ x.work.map (·.word) = some (wordOfIn op t)
  let checked := fun (s : State) (op : Nat) (t : TileIn) (x : Entry) (b : List Byte) =>
    { x with blocks := b, ranges := if 0xF0 ≤ op then [] else hulls s t.e.region (wordOfIn op t) b }
  let active := fun (s t : State) (e : EntryId) (x : Entry) => t = { s with seqs := t.seqs, turn := e.region, fabric := t.fabric } ∧ getEntry t (activeOf e) = x ∧
    (e.shadow = true → getEntry t e = {}) ∧ ∀ d, d ≠ e → d ≠ activeOf e → getEntry t d = getEntry s d
  (∀ p ∈ words ++ own ++ band, ∀ (t : TileIn) (s : State) (x : Entry), at_ s p.1 t x →
    (t.e.level ≠ 3 → ∃ u, exec (p.2 t) s = .next u ∧ EntryTo s u t.e { x with state := .stage }) ∧
    ∀ b, t.e.level = 3 → (p.1 < 0xF0 → checkWord s t.e.region (wordOfIn p.1 t) = .ok b) → (0xF0 ≤ p.1 → b = []) →
      (mayStage s t.e (checked s p.1 t x b) = false → ∃ u, exec (p.2 t) s = .next u ∧ EntryTo s u t.e (checked s p.1 t x b)) ∧
      (mayStage s t.e (checked s p.1 t x b) = true → p ∈ words → ∃ u, exec (p.2 t) s = .next u ∧ EntryTo s u t.e { checked s p.1 t x b with state := .stage })) ∧
  (∀ p ∈ words ++ own ++ band, ∀ (t : TileIn) (s : State), (getEntry s t.e).work.map (·.word) ≠ some (wordOfIn p.1 t) → exec (p.2 t) s = .next s) ∧
  (∀ p ∈ words ++ own, ∀ (t : TileIn) (s : State) (x : Entry) (f : Byte × Nat), at_ s p.1 t x → t.e.level = 3 → checkWord s t.e.region (wordOfIn p.1 t) = .error f →
    (∀ q ∈ s.seqs, ∀ k, q.2.parent ≠ some (t.e, k)) → ∃ u, exec (p.2 t) s = .next u ∧ EntryTo s u t.e { x with
      state := .fault, children := [], reports := [faultReport (wordOfIn p.1 t) f.1 (twLevel (wordOfIn p.1 t)) 0 (serialOf x) f.2] }) ∧
  (∀ (t : TileIn) (s : State) (x : Entry) (op : Nat), at_ s op t x → t.e.level = 3 → (t.e.shadow = true → isFree s (activeOf t.e) = true) →
    ∀ b, (op < 0xF0 → checkWord s t.e.region (wordOfIn op t) = .ok b) → (0xF0 ≤ op → b = []) → mayStage s t.e (checked s op t x b) = true →
      let y := checked s op t x b
      (∀ p ∈ [(0x0D, Instr.twSfence t), (0x18, .twNop t)] ++ band.map (fun k => (k.1, k.2 t)), p.1 = op →
        ∃ u, exec p.2 s = .next u ∧ active s u t.e { y with state := .commit }) ∧
      (op = 0x0C → twLevel (wordOfIn op t) = 3 ∨ peersOf s t.e.region = [] → ∃ u, exec (.twBarrier t) s = .next u ∧ active s u t.e { y with state := .commit }) ∧
      (op = 0x0C → twLevel (wordOfIn op t) ≠ 3 → peersOf s t.e.region ≠ [] → ∃ u, exec (.twBarrier t) s = .next u ∧ active s u t.e { y with
        state := .wait
        queue := y.queue ++ (peersOf s t.e.region).flatMap fun q => toPeer s q [.barrier (.ofNat 4 (prm b 0 1))] }) ∧
      (op = 0x09 → ∀ st, stageAll s t.e.region (wordOfIn op t) b = .ok st → ∃ u, exec (.twAllreduce t) s = .next u ∧
        active s u t.e { y with
          state := .wait, staged := st, split := false
          queue := y.queue ++ (peersOf s t.e.region).zipIdx.flatMap fun q => toPeer s q.1
            ((ownedRows (ext (wordOfIn op t) b 1) ((peersOf s t.e.region).length + 1) (if q.2 < ownRank s t.e.region then q.2 else q.2 + 1)).flatMap fun i =>
              rowPackets false i ((tenOf (wordOfIn op t) b st 1).rowBytes i)) }) ∧
      (op = 0x17 → t.e.shadow = false → ∀ l, opRead s t.e.region (odBase b 1) 8 = .ok l → ∃ u, exec (.twWait t) s = .next u ∧
        active s u t.e { y with state := if leNat l = prm b 8 8 then .commit else .wait }) ∧
      (op = 0x16 → t.e.shadow = false → ∀ v q, seqWrite (setEntry s t.e y) t.e.region (serialOf x) (.ofNat 4 (twStream (wordOfIn op t))) (odBase b 0)
        (leBytes 8 (prm b 8 8)) = .ok (v, q) → ∃ u, exec (.twSignal t) s = .next u ∧ getEntry u t.e = { y with state := .commit, queue := q } ∧ u.mem = v.mem ∧ u.dies = v.dies)) ∧
  ∀ (t : TileIn) (s : State) (x : Entry) (op : Nat), getEntry s t.e = x → x.state = .wait → x.work.map (·.word) = some (wordOfIn op t) → t.e.level = 3 → x.queue = [] →
    let w := wordOfIn op t
    let ps := peersOf s t.e.region
    let arrival := fun (q : Nat × Nat × Nat) => (BitVec.ofNat 12 q.2.1, t.e.region, PktBody.barrier (.ofNat 4 (prm x.blocks 0 1)))
    let row := fun (i : Nat) => (tenOf w x.blocks x.staged 1).rowBytes i
    let n := ext w x.blocks 0 * codeSize (tenOf w x.blocks x.staged 1).code
    (op = 0x0C → twLevel w ≠ 3 → ps ≠ [] →
      ((∀ q ∈ ps, arrival q ∈ s.fabric.heard) → ∃ u, exec (.twBarrier t) s = .next u ∧ getEntry u t.e = { x with state := .commit } ∧ u.mem = s.mem ∧
        u.fabric.heard = ps.foldl (fun l q => l.erase (arrival q)) s.fabric.heard) ∧
      ((∃ q ∈ ps, arrival q ∉ s.fabric.heard) → ∃ u, exec (.twBarrier t) s = .next u ∧ EntryTo s u t.e x)) ∧
    (op = 0x09 → ps = [] →
      (x.split = false → ∃ u, exec (.twAllreduce t) s = .next u ∧ EntryTo s u t.e { x with
        split := true, out := (List.range (ext w x.blocks 1)).map fun i => outRow w x.blocks i (row i) }) ∧
      (x.split = true → ∃ u, exec (.twAllreduce t) s = .next u ∧ EntryTo s u t.e { x with state := .commit, split := false })) ∧
    ∀ q, op = 0x09 → ps = [q] → 0 < n → n ≤ 256 →
      let me := ownRank s t.e.region
      let own := ownedRows (ext w x.blocks 1) 2 me
      let theirs := ownedRows (ext w x.blocks 1) 2 (if 0 < me then 0 else 1)
      let sent := fun (sums : Bool) (i : Nat) (l : List Byte) => (BitVec.ofNat 12 q.2.1, t.e.region, PktBody.rows sums (.ofNat 32 i) 0 l)
      (x.split = false → ∀ g : Nat → List Byte, s.fabric.heard = own.map (fun i => sent false i (g i)) → ext w x.blocks 1 ≤ 2 ^ 32 → q.2.1 < 4096 →
        ∃ u, exec (.twAllreduce t) s = .next u ∧ u.fabric.heard = [] ∧ u.mem = s.mem ∧
          let sums := own.map fun i => (i, addRow (tenOf w x.blocks x.staged 1).code (row i) (g i))
          getEntry u t.e = { x with
            split := true, out := sums.map fun p => outRow w x.blocks p.1 p.2
            queue := toPeer s q (sums.flatMap fun p => rowPackets true p.1 p.2) }) ∧
      (x.split = true → ∀ g : Nat → List Byte, s.fabric.heard = theirs.map (fun i => sent true i (g i)) → ext w x.blocks 1 ≤ 2 ^ 32 → q.2.1 < 4096 →
        ∃ u, exec (.twAllreduce t) s = .next u ∧ u.fabric.heard = [] ∧ u.mem = s.mem ∧
          getEntry u t.e = { x with state := .commit, split := false, out := x.out ++ theirs.map fun i => outRow w x.blocks i (g i) }) ∧
      (s.fabric.heard = [] → (if x.split then theirs else own) ≠ [] → ∃ u, exec (.twAllreduce t) s = .next u ∧ EntryTo s u t.e x)

/-- 13 R273, R274, R284: the units of a product are the tiles of its M × N output; a core's built-in kernel holds a context slot and gives each
element of its unit by its opcode's rule, at the address of its row, or its partial sums. It rests on the model's own readings of log entries 20, 35,
36, 37. -/
def Obligations.TileResults : Prop :=
  (∀ (w : BitVec 128) (b : List Byte) (u : Nat), twOp w = 0x01 ∨ twOp w = 0x02 →
    let n := (ext w b 0 + 127) / 128
    unitCount w b = (ext w b 1 + 127) / 128 * n ∧
      unitSpanOf w b u = ((128 * (u / n), min 128 (ext w b 1 - 128 * (u / n))), (128 * (u % n), min 128 (ext w b 0 - 128 * (u % n))))) ∧
  ∀ (e : EntryId) (c : CtxId) (s : State) (wk : Work),
    let x := getEntry s e
    let r := getEntry s (rootOf s e)
    let w := wordOfEntry r
    let b := r.blocks
    let span := unitSpanOf w b wk.u0
    let t := tenOf w b (stagedAbove s e)
    let size := 8 * codeSize (fmtCode (twFmt w) false)
    let ks := fun (f : Nat → Wide → Wide) => (List.range (wk.k1 - wk.k0)).foldl (fun a k => f (wk.k0 + k) a) (0 : Wide)
    let dot := fun (i j : Nat) => ks fun k a => wideAdd a (productCode (prm b 0 1 == 1) (if prm b 0 1 = 1 then anchorOf b else 0) (fmulV ((t 1).val i k) ((t 2).val j k))).1
    let draw := fun (i j : Nat) =>
      let k := 16 * ((i - span.1.1) * ((span.2.2 + 63) / 64) + (j - span.2.1) / 64)
      rngWord (eff s e.region 17 0x58 16) ((unitCounter wk.serial span.1.1 span.2.1 wk.chunk + k) % 2 ^ 128) ((j - span.2.1) % 64)
    let ends := fun (y : Entry) => ∃ u, exec (.kernelStart e c) s = .next u ∧ getEntry u e = y ∧ (∀ d, d ≠ e → getEntry u d = getEntry s d) ∧
      getCtx u c = {} ∧ (∀ d, d ≠ c → getCtx u d = getCtx s d) ∧ u.mem = s.mem
    let gives := fun (f : Nat → Nat → Nat) => ends { x with state := .commit, out := outRows w b span f, partials := [] }
    (x.work = some wk → x.state = .stage → e.level = 0 → c.core = e.place → slotOpen s c e.region = true → twOp w ≠ 0x0B → ∃ u, exec (.kernelStart e c) s = .next u ∧
      getEntry u e = { x with state := .wait } ∧ runsBuiltin u e c = true ∧ (∀ d, d ≠ c → getCtx u d = getCtx s d) ∧ u.mem = s.mem) ∧
    (x.work = some wk → runsBuiltin s e c = true →
      (twOp w = 0x0F → gives fun _ _ => prm b 8 8) ∧
      (twOp w = 0x0E → isQ (t 1).code = false → gives (t 1).raw) ∧
      (twOp w = 0x06 → gives fun i j => (t 1).raw j i) ∧
      (twOp w = 0x07 → gives fun i j => if (t 2).raw 0 i < prm b 4 4 then (t 1).raw ((t 2).raw 0 i) j else 0) ∧
      (twOp w = 0x14 → gives fun i j => (wideAdd (.ofNat 256 ((t 0).raw i j)) (.ofNat 256 ((t 1).raw i j))).toNat) ∧
      (twOp w = 0x11 → gives fun i j => (fput fp32 0 0 ((t 1).val i j)).1) ∧
      (∀ f, (twOp w = 0x03 ∨ twOp w = 0x04 ∨ twOp w = 0x12) → opOfWord w b = some f →
        gives fun i j => f.f (prm b 1 1) (draw i j / 2 ^ 8) ((t 1).raw i j) ((t 2).raw i j) % 2 ^ size) ∧
      (twOp w = 0x13 → gives draw) ∧
      (twOp w = 0x01 → wk.wide = false → gives fun i j => drainSum w b (dot i j) 0) ∧
      (twOp w = 0x01 → wk.wide = true → ends { x with
        state := .commit, out := []
        partials := (List.range span.1.2).flatMap fun i => (List.range span.2.2).map fun j => (span.1.1 + i, span.2.1 + j, dot (span.1.1 + i) (span.2.1 + j), 0) }) ∧
      (twOp w = 0x05 → prm b 0 1 = 0 → wk.wide = false → codeFloat (t 1).code = none →
        gives fun i _ => drainSum w b (ks fun k a => a + BitVec.ofInt 256 (codeInt (t 1).code ((t 1).raw i k))) 0) ∧
      (twOp w = 0x05 → prm b 0 1 ≠ 0 → wk.wide = false → codeFloat (t 1).code = none →
        gives fun i _ => extremeOf (prm b 0 1 == 1) (t 1).code ((List.range (wk.k1 - wk.k0)).map fun k => (t 1).raw i (wk.k0 + k))))

/-- 12 R245, R246, 13 R274, R276, R278, R279, R285, 19 R358: the life of an entry: it enters ISSUE with its children, writes each into a FREE place,
waits for all, joins what was split and commits to its parent, or at the top to memory with the packet's record; a child that faults is run again or
faults its parent. It rests on the model's own readings of log entries 38, 71, 72. -/
def Obligations.TileEntries : Prop :=
  ∀ (e : EntryId) (s : State),
    let x := getEntry s e
    (x.state ≠ .stage ∨ e.level = 0 → exec (.tileStageDone e) s = .next s) ∧
    (x.state = .stage → e.level = 3 → e.shadow = true → classD (twOp (wordOfEntry x)) = false → twOp (wordOfEntry x) ≠ 0x0B → x.parent = none →
      ∀ st wk, stageAll s e.region (wordOfEntry x) x.blocks = .ok st → x.work = some wk →
        (isFree s (activeOf e) = false → exec (.tileStageDone e) s = .next s) ∧
        (isFree s (activeOf e) = true → ∃ t, exec (.tileStageDone e) s = .next t ∧ t = { s with seqs := t.seqs, free := t.free, turn := e.region } ∧ getEntry t e = {} ∧
          (∀ d, d ≠ e → d ≠ activeOf e → getEntry t d = getEntry s d) ∧ let y := getEntry t (activeOf e)
          y.state = .issue ∧ y.work = x.work ∧ y.staged = st ∧
          (splitsAxis (wordOfEntry x) = false → y.split = false ∧
            y.children.map (·.work.u0) = List.range (unitCount (wordOfEntry x) x.blocks) ∧ ∀ q ∈ y.children, q.issued = false ∧ q.work.serial = wk.serial))) ∧
    (x.state = .issue → x.doom.isSome = true → ∃ t, exec (.tileChildIssue e) s = .next t ∧ EntryTo s t e { x with state := .wait }) ∧
    (∀ k q place id, x.state = .issue → x.doom = none → e.level ≠ 0 → (x.children.zipIdx).find? (fun p => !p.1.issued) = some (q, k) →
      (childPlace s e k q = some place → childSlot s e place = none → exec (.tileChildIssue e) s = .next s) ∧
      (childPlace s e k q = some place → childSlot s e place = some id → ∃ t, exec (.tileChildIssue e) s = .next t ∧ t = { s with seqs := t.seqs } ∧
        getEntry t id = { state := .check, work := some q.work, parent := some (e, k) } ∧ (∀ d, d ≠ e → d ≠ id → getEntry t d = getEntry s d) ∧
        let l := x.children.zipIdx.map fun p => if p.2 = k then { p.1 with issued := true, place := place } else p.1
        getEntry t e = { x with children := l, state := if l.all (·.issued) then .wait else .issue })) ∧
    (∀ k : BitVec 32, let ready := x.state = .wait ∧ x.children ≠ [] ∧ (∀ q ∈ x.children, q.done = true) ∧ k.toNat < x.children.length
      (¬ ready → exec (.tileChildComplete e k) s = .next s) ∧
      (ready → ∃ t, exec (.tileChildComplete e k) s = .next t ∧ EntryTo s t e { x with state := if x.split then .join else .commit })) ∧
    (∀ (k : BitVec 32) id q rep, childEntry s e k.toNat = some id → id ≠ e → (getEntry s id).state = .fault → (getEntry s id).reports = [rep] →
      x.children[k.toNat]? = some q → e.level ≠ 1 → (∀ p ∈ s.seqs, ∀ j, p.2.parent ≠ some (id, j)) →
      (twReplay (wordOfEntry (getEntry s id)) = true → q.replays < 3 → ∃ t, exec (.tileChildFault e k) s = .next t ∧ t = { s with seqs := t.seqs } ∧ getEntry t id = {} ∧
        (getEntry t e).children[k.toNat]? = some { q with issued := false, done := false, replays := q.replays + 1, avoid := q.place :: q.avoid, report := [rep] } ∧
        (getEntry t e).state = x.state) ∧
      ((twReplay (wordOfEntry (getEntry s id)) = false ∨ 3 ≤ q.replays) → ∃ t, exec (.tileChildFault e k) s = .next t ∧ (getEntry t e).state = .fault ∧
        (getEntry t e).children = [] ∧ (getEntry t e).reports = [faultReport (wordOfEntry x) 0x31 (if e.level = 3 then twLevel (wordOfEntry x) else e.level.toNat)
          (whereOf e) (serialOf x) 0, rep])) ∧
    ((x.state ≠ .join → exec (.tileJoinDone e) s = .next s) ∧ (x.state = .join → let r := getEntry s (rootOf s e)
      let code := (tenOf (wordOfEntry r) r.blocks x.staged 1).code
      let l := joinPartials (wordOfEntry r) r.blocks code x.partials
      ((x.work.map (·.wide)).getD false = true → ∃ t, exec (.tileJoinDone e) s = .next t ∧ EntryTo s t e { x with state := .commit, partials := l }) ∧
      ((x.work.map (·.wide)).getD false = false → ∃ t, exec (.tileJoinDone e) s = .next t ∧
        EntryTo s t e { x with state := .commit, partials := [], out := drainJoined (wordOfEntry r) r.blocks code l }))) ∧
    (x.state ≠ .commit → x.state ≠ .fault → exec (.tileCommit e) s = .next s) ∧
    (∀ p k, x.state = .commit → e.level ≠ 3 → e.level ≠ 0 → x.parent = some (p, k) → p ≠ e → let y := getEntry s p
      ∃ t, exec (.tileCommit e) s = .next t ∧ t = { s with seqs := t.seqs, regions := t.regions } ∧ getEntry t e = {} ∧ getEntry t p = { y with
        children := y.children.zipIdx.map fun q => if q.2 = k then { q.1 with done := true } else q.1
        out := y.out ++ x.out, partials := y.partials ++ x.partials } ∧ findRegion t e.region = (findRegion s e.region).map fun r => { r with timer := 0 }) ∧
    ∀ r u, x.state = .commit → e.level = 3 → twOp (wordOfEntry x) ≠ 0x08 → x.queue = [] → x.pkts = [] → findRegion s e.region = some r → r.bolter = false →
      seqWriteAll s e.region (serialOf x) (.ofNat 4 (twStream (wordOfEntry x))) x.out = .ok (u, []) →
      (x.packet = none → s.packets = [] → ∃ t, exec (.tileCommit e) s = .next t ∧ getEntry t e = {} ∧ t.mem = u.mem ∧ t.dies = u.dies) ∧
      ∀ p, x.packet = some (p.key, 0) → s.packets = [p] → s.seqs = [(e, x)] → p.words.length = 1 → p.accepted = 1 → p.finished = false → p.committed = 0 → p.cpl ≠ 0 →
        ∃ t, exec (.tileCommit e) s = .next t ∧ t.seqs = [] ∧ t.packets = [] ∧
          t.mem = (appStore u p.cpl.toNat (completionRecord 0 1 (p.first.getD 0) p.index 1 [])).mem

/-- 13 R283, R284, 10 R206, 04 R98: a call starts its kernel with the arguments in s1 to s15, the position in s16 and every other register at its
reset value, at the kernel's entry, in a slot that is LOADING and enters RUN in the next cycle, which is cycle 0, as if an issue had been one cycle
before. -/
def Obligations.KernelStarts : Prop :=
  ∀ (e : EntryId) (c : CtxId) (s : State) (wk : Work) (k : Kernel) (u : State) (m : Memory) (p : EntryId × Nat),
    let x := getEntry s e
    let r := getEntry s (rootOf s e)
    let b := r.blocks
    x.work = some wk → e.level = 0 → c.core = e.place → x.parent = some p → twOp (wordOfEntry r) = 0x0B → callKernel s e.region (wordOfEntry r) = some k →
    k.group = false → k.region = e.region →
      (startsNow s e c = true → ∃ t, exec (.kernelStart e c) s = .next t ∧
        CtxTo s t c { getCtx s c with run := { (getCtx s c).run with state := .run, last := ownNow s c - 1 } }) ∧
      (startsNow s e c = false → runsBuiltin s e c = false → x.state ≠ .stage ∨ slotOpen s c e.region = false ∨ blocksFit s c k.footprint = false → exec (.kernelStart e c) s = .next s) ∧
      (x.state = .stage → slotOpen s c e.region = true → blocksFit s c k.footprint = true → makeResident s c k = some u →
        stageTiles u k.region k b wk.pos = .ok m → (∀ l ∈ (getCore u c.core.toNat).left, ¬ (l.1 = c.sec ∧ l.2.1 = k.region)) → blk b (96 + 0x78) 8 = 0 →
        ∃ t, exec (.kernelStart e c) s = .next t ∧ getEntry t e = { x with state := .wait } ∧ (∀ d, d ≠ c → getCtx t d = getCtx s d) ∧ t.mem = s.mem ∧
          let y := getCtx t c
          y.run.state = .loading ∧ startsNow t e c = true ∧ y.r.pc = k.entry ∧
          (∀ i, i < 15 → sGet y.r (i + 1) = .ofNat 64 (blk b (96 + 8 * i) 8)) ∧ sGet y.r 16 = .ofNat 64 wk.pos ∧ (∀ n, 16 < n → n < 64 → sGet y.r n = 0) ∧
          (∀ n, 0 < n → n < 8 → gGet y.r n = false) ∧ y.r.q = 0 ∧ y.r.rstack = [] ∧ (∀ n, bGet y.r n = 0) ∧ (∀ l ∈ y.r.loops.toList, l.active = false) ∧
          y.ctl.forms = ({} : Ctl).forms ∧ y.ctl.dictLoaded = false ∧ y.ctl.sticky = .replicate 8 none ∧ y.sys.fflags = 0 ∧ y.m.held.filled = false ∧
          y.m.mpa = 0 ∧ y.m.mpb = 0 ∧ y.m.mpd = 0 ∧ y.m.rowprog = 0 ∧ y.mon.active = false ∧ y.con.tag = .ofNat 64 (s.fabric.tags + 1) ∧ y.con.c0.tid = 0 ∧
          y.prog.footprint = k.footprint ∧ y.prog.absent = [] ∧ y.prog.entry = some e ∧ y.prog.serial = wk.serial ∧
          ((∀ q ∈ k.tiles, q.kind ≠ 2) → ∀ a, cellGet y.prog.scratch a = cellGet m a) ∧
          ∀ q : KTile, k.tiles = [q] → ∀ v ∈ scrUnits q.off q.size, cellGet y.sys.tags v = q.fmt)

/-- 03 R32, 01 R14, R18: the machine's step issues the bundle at the pc: where its word decodes to a well-formed instruction, the step is exec of
that instruction, and so is BUNDLE_ISSUE; an outside event comes first once its time has come; when nothing is due the next period begins. It rests
on the model's own readings of log entry 4. -/
def Obligations.StepRuns : Prop :=
  (∀ (s : State) (y : Syl) (w : Nat) (rest : List Due), Calm s → decodeSyl y.slot w = .ok y →
    fetchBundle s s.cid s.cx = .ok { loneBun s.cx y with words := [(y.slot.num, w)] } → fetchAllowed s.cx (loneBun s.cx y) = true →
    isDue s (some (loneBun s.cx y)) = true →
      (∃ t, exec (.bundleIssue ⟨s.cid, none⟩) s = .next t ∧ exec (instrOf y) s = .next t) ∧
      (s.oracle = [] → s.commands = [] → ¬ (1 ≤ s.fw.boot ∧ s.fw.boot ≤ 6) → s.todo = .issue s.cid :: rest → step s = exec (instrOf y) { s with todo := rest })) ∧
  (∀ (s : State) (at_ : Nat) (i : Instr) (l : List (Nat × Instr)), s.oracle = (at_, i) :: l → at_ ≤ s.now → step s = exec i { s with oracle := l }) ∧
  (∀ s : State, s.oracle = [] → 1 ≤ s.fw.boot → s.fw.boot ≤ 6 → step s = .next (bootStep s)) ∧
  ∀ s : State, s.oracle = [] → s.commands = [] → ¬ (1 ≤ s.fw.boot ∧ s.fw.boot ≤ 6) → s.todo = [] → ∃ t, step s = .next t ∧ t.now = s.now + 1 ∧ t.mem = s.mem

/-- 03 R47, R49, R57, 05 R119: a syllable whose guard is false does nothing but the swap that it asks for, a word of the forward-compatibility band
nothing at all; the next bundle follows. It rests on the model's own readings of log entry 65. -/
def Obligations.GuardedOff : Prop :=
  (∀ (s : State) (y : Syl), Calm s → wfSyl y = true → PassesChecks s y → isBand y = false → guardOn s.cx.r (guardOf y) = false →
    ∃ t, exec (instrOf y) s = .next t ∧ SameMemory s t ∧ (y.slot.num < 6 → t.cx.run.rows = []) ∧
      Leaves s t { doSwaps s.cx [loneSlot y] with r := { s.cx.r with pc := s.cx.r.pc + .ofNat 32 (4 + y.slot.bits / 8) } }) ∧
  ∀ (s : State) (n : BitVec 3) (w : W64), Calm s → bandWord n w = true → PassesChecks s (.band n w) →
    ∃ t, exec (.forwardCompatNop n w) s = .next t ∧ SameMemory s t ∧ t.cx.run.rows = [] ∧
      Leaves s t { s.cx with r := { s.cx.r with pc := s.cx.r.pc + .ofNat 32 (4 + (Syl.band n w).slot.bits / 8) } }

/-- 03 R26-R31, R49, R50: for every well-formed syllable, decoding its word gives it back, with every operand; and every word that decodes is the
word of what it decodes to. -/
def Obligations.DecodeEncode : Prop :=
  (∀ y : Syl, wfSyl y = true → decodeSyl y.slot (encodeSyl y) = .ok y) ∧
  ∀ (x : Slot) (w : Nat) (y : Syl), decodeSyl x w = .ok y → y.slot = x ∧ wfSyl y = true ∧ encodeSyl y = w

/-- 03 R49, R50, 05 R91, 06 R143, R152, 10 R206, R222, R231, 18 R343: syllables that the spec writes out field by field decode to what they stand
for. It rests on the model's own readings of log entry 2. -/
def Obligations.DecodedWords : Prop :=
  let reads := fun (x : Slot) (w : Nat) (y : Syl) => decodeSyl x w = .ok y
  reads .s 0x2F010100 (.s (.addSj { g := 0, rd := 4, imm := 0x100 })) ∧
  reads .s 0x24018108 (.s (.shlSi { g := 0, rd := 6, ra := 1, imm := 8 })) ∧
  reads .s 0x17004814 (.s (.cmpne { g := 0, rd := 1, ra := 8, rb := 5 })) ∧
  reads .s 0x4B028210 (.s (.movToSys { g := 0, s := 10, n := 0x210 })) ∧
  reads .s 0x5A000001 (.s (.wpset { g := 0, n := 1 })) ∧
  reads .l 0x001FFFFA (.l (.br { g := 1, off := -6 })) ∧
  reads .l 0x0B000000 (.l (.kend { g := 0 })) ∧
  reads .k 0x01058001 (.k (.kldp { g := 0, x := 1, b := 3, off := 1 })) ∧
  reads .va 0x0300140080180400 (.v .a (.vfmaF32 { g := 0, vd := 10, vsa := 2, vsb := 3, vsc := 4, rm := 0, mask := 0, form := 0, sw := 0 })) ∧
  reads .va 0x5503E86400000003 (.v .a (.vredsumF32 { g := 0, vd := 500, vsa := 400, vsb := 0, imm := 0, rm := 0, mask := 0, form := 1, sw := 1 })) ∧
  reads .m 0x0200000000000003 (.m (.macc { g := 0, acc := 0, row := 0, src := 0, v := 0, disp := 0, fmt := 0, form := 1, sw := 1 })) ∧
  reads .m 0x0400500000020000 (.m (.mdrain { g := 0, acc := 0, row := 5, src := 0, v := 0, disp := 0x200, fmt := 0, form := 0, sw := 0 })) ∧
  reads .c0 0x000290C0 (.c .a (.copy1d { g := 0, d := 5, s := 4, len := 6, form := 0, sw := 0 })) ∧
  reads .c1 0x1603A0EA (.c .b (.st64 { g := 0, d := 7, s := 8, stream := 3, scope := 5, acq := 0, rel := 1 })) ∧
  reads .c0 0x1F0428A2 (.c .a (.atomCas { g := 0, d := 8, s := 10, stream := 2, scope := 4, acq := 0, rel := 1 })) ∧
  reads .c0 0x0D008000 (.c .a (.barWait { g := 0, d := 1, s := 0, len := 0, form := 0, sw := 0 })) ∧
  decodeTableWord 32 0x2F010100 = some (.addSj { g := 0, rd := 4, imm := 0x100 }) ∧
  decodeTableWord 64 0x0300140080180400 = some (.vfmaF32 .a { g := 0, vd := 10, vsa := 2, vsb := 3, vsc := 4, rm := 0, mask := 0, form := 0, sw := 0 })

/-- 15 R299, R308: every step keeps main memory in its canonical form. It rests on the model's own readings of log entry 6. -/
def Obligations.MemoryCanonical : Prop := ∀ s t, MemoryWf s → step s = .next t → MemoryWf t

/-- 19 R363, 15 R310, 18 R339, 03 R47, 13 R247: what reset leaves: every slot EMPTY, nothing installed, the boot at its first step, clocks stopped,
forms at their reset values; an unlisted byte of main memory reads as zero (the model's choice, log entry 6). It rests on the model's own readings of
log entries 5, 6. -/
def Obligations.AfterReset : Prop :=
  let s := State.reset
  MemoryWf s ∧ (∀ a, cellGet s.mem a = 0) ∧ (∀ c, (getCtx s c).run.state = .empty) ∧ s.regions = [] ∧ s.kernels = [] ∧ s.seqs = [] ∧ s.packets = [] ∧
  s.fw.boot = 1 ∧ s.fw.locked = false ∧ s.fw.keys = [] ∧ (∀ k, (getCl s k).started = false ∧ (getCl s k).brake = none) ∧ (∀ k, (getRing s k).enable = false) ∧
  (∀ c k f, k < 5 → f < 4 → let w := formWord (getCtx s c).ctl (formIdx k f)
    formRows w = 1 ∧ formCols w = 64 ∧ formStep w = (if k < 2 then 1 else 0) ∧ formAstep w = 0) ∧
  ∀ c, (getCtx s c).sys.fflags = 0 ∧ (getCtx s c).r.pc = 0 ∧ ∀ n, sGet (getCtx s c).r n = 0

end
end

