-- ==== Sys2Proof/Laws/Encode.lean ====
section
/-! SUPPORT. What the encodings of the layouts leave: every field word fits below its opcode, and the guard field of each layout is its guard. -/

namespace Sys2Proof

theorem encSR_lt (o : SR) : encSR o < 2 ^ 24 := by
  unfold encSR
  omega
theorem encSU_lt (o : SU) : encSU o < 2 ^ 24 := by
  unfold encSU
  omega
theorem encSI_lt (o : SI) : encSI o < 2 ^ 24 := by
  unfold encSI
  omega
theorem encSJ_lt (o : SJ) : encSJ o < 2 ^ 24 := by
  unfold encSJ
  omega
theorem encSK_lt (o : SK) : encSK o < 2 ^ 24 := by
  unfold encSK
  omega
theorem encSM_lt (o : SM) : encSM o < 2 ^ 24 := by
  unfold encSM
  omega
theorem encLop_lt (o : Lop) : encLop o < 2 ^ 26 := by
  unfold encLop
  omega
theorem encSF_lt (o : SF) : encSF o < 2 ^ 24 := by
  unfold encSF
  omega
theorem encSFR_lt (o : SFR) : encSFR o < 2 ^ 24 := by
  unfold encSFR
  omega
theorem encSV_lt (o : SV) : encSV o < 2 ^ 24 := by
  unfold encSV
  omega
theorem encSX_lt (o : SX) : encSX o < 2 ^ 24 := by
  unfold encSX
  omega
theorem encSW_lt (o : SW) : encSW o < 2 ^ 24 := by
  unfold encSW
  omega
theorem encSY_lt (o : SY) : encSY o < 2 ^ 24 := by
  unfold encSY
  omega
theorem encSC_lt (o : SC) : encSC o < 2 ^ 24 := by
  unfold encSC
  omega
theorem encSS_lt (o : SS) : encSS o < 2 ^ 24 := by
  unfold encSS
  omega
theorem encSG_lt (o : SG) : encSG o < 2 ^ 24 := by
  unfold encSG
  omega
theorem encSN_lt (o : SN) : encSN o < 2 ^ 24 := by
  unfold encSN
  omega
theorem encLB_lt (o : LB) : encLB o < 2 ^ 24 := by
  unfold encLB
  omega
theorem encLP_lt (o : LP) : encLP o < 2 ^ 24 := by
  unfold encLP
  omega
theorem encLI_lt (o : LI) : encLI o < 2 ^ 24 := by
  unfold encLI
  omega
theorem encLE_lt (o : LE) : encLE o < 2 ^ 24 := by
  unfold encLE
  omega
theorem encLS_lt (o : LS) : encLS o < 2 ^ 24 := by
  unfold encLS
  omega
theorem encLQ_lt (o : LQ) : encLQ o < 2 ^ 24 := by
  unfold encLQ
  omega
theorem encLD_lt (o : LD) : encLD o < 2 ^ 24 := by
  unfold encLD
  omega
theorem encKL_lt (o : KL) : encKL o < 2 ^ 24 := by
  unfold encKL
  omega
theorem encKF_lt (o : KF) : encKF o < 2 ^ 24 := by
  unfold encKF
  omega
theorem encKC_lt (o : KC) : encKC o < 2 ^ 24 := by
  unfold encKC
  omega
theorem encVR_lt (o : VR) : encVR o < 2 ^ 56 := by
  unfold encVR
  omega
theorem encV3_lt (o : V3) : encV3 o < 2 ^ 56 := by
  unfold encV3
  omega
theorem encVM_lt (o : VM) : encVM o < 2 ^ 56 := by
  unfold encVM
  omega
theorem encMO_lt (o : MO) : encMO o < 2 ^ 56 := by
  unfold encMO
  omega
theorem encCA_lt (o : CA) : encCA o < 2 ^ 24 := by
  unfold encCA
  omega
theorem encCS_lt (o : CS) : encCS o < 2 ^ 24 := by
  unfold encCS
  omega

/-- A field below its opcode is read back. -/
theorem ofNat_guard (op sh : Nat) (g : BitVec 4) (r : Nat) (h : r < 2 ^ sh) : BitVec.ofNat 4 ((op * 2 ^ (sh + 4) + (g.toNat * 2 ^ sh + r)) / 2 ^ sh) = g := by
  have e : op * 2 ^ (sh + 4) + (g.toNat * 2 ^ sh + r) = r + 2 ^ sh * (op * 16 + g.toNat) := by
    rw [Nat.pow_add, Nat.mul_add, Nat.mul_comm g.toNat, ← Nat.mul_assoc (2 ^ sh)]
    generalize 2 ^ sh = p
    rw [Nat.mul_comm op (p * 2 ^ 4), Nat.mul_assoc p, Nat.mul_comm (2 ^ 4) op, ← Nat.mul_assoc p op 16]
    omega
  rw [e, Nat.add_mul_div_left _ _ (Nat.two_pow_pos sh), Nat.div_eq_of_lt h, Nat.zero_add]
  apply BitVec.eq_of_toNat_eq
  simp only [BitVec.toNat_ofNat]
  have := g.isLt
  omega

namespace Machine

theorem guardOf_s_SR {y : SSyl} {op : Nat} {o : SR} (h : encodeS y = opAt op 24 (encSR o)) (hl : isLop (.s y) = false) : guardOf (.s y) = o.g := by
  have e : encSR o = o.g.toNat * 2 ^ 20 + (o.rd.toNat * 2 ^ 14 + o.ra.toNat * 2 ^ 8 + o.rb.toNat * 2 ^ 2) := by unfold encSR; omega
  have r : o.rd.toNat * 2 ^ 14 + o.ra.toNat * 2 ^ 8 + o.rb.toNat * 2 ^ 2 < 2 ^ 20 := by omega
  simp only [guardOf, isBand, hl, Bool.or_false, Bool.false_eq_true, if_false, encodeSyl, Syl.slot, Slot.bits, Slot.wide, h, opAt, e]
  exact ofNat_guard op 20 o.g _ r
theorem guardOf_s_SU {y : SSyl} {op : Nat} {o : SU} (h : encodeS y = opAt op 24 (encSU o)) (hl : isLop (.s y) = false) : guardOf (.s y) = o.g := by
  have e : encSU o = o.g.toNat * 2 ^ 20 + (o.rd.toNat * 2 ^ 14 + o.ra.toNat * 2 ^ 8) := by unfold encSU; omega
  have r : o.rd.toNat * 2 ^ 14 + o.ra.toNat * 2 ^ 8 < 2 ^ 20 := by omega
  simp only [guardOf, isBand, hl, Bool.or_false, Bool.false_eq_true, if_false, encodeSyl, Syl.slot, Slot.bits, Slot.wide, h, opAt, e]
  exact ofNat_guard op 20 o.g _ r
theorem guardOf_s_SI {y : SSyl} {op : Nat} {o : SI} (h : encodeS y = opAt op 24 (encSI o)) (hl : isLop (.s y) = false) : guardOf (.s y) = o.g := by
  have e : encSI o = o.g.toNat * 2 ^ 20 + (o.rd.toNat * 2 ^ 14 + o.ra.toNat * 2 ^ 8 + o.imm.toNat * 2 ^ 0) := by unfold encSI; omega
  have r : o.rd.toNat * 2 ^ 14 + o.ra.toNat * 2 ^ 8 + o.imm.toNat * 2 ^ 0 < 2 ^ 20 := by omega
  simp only [guardOf, isBand, hl, Bool.or_false, Bool.false_eq_true, if_false, encodeSyl, Syl.slot, Slot.bits, Slot.wide, h, opAt, e]
  exact ofNat_guard op 20 o.g _ r
theorem guardOf_s_SJ {y : SSyl} {op : Nat} {o : SJ} (h : encodeS y = opAt op 24 (encSJ o)) (hl : isLop (.s y) = false) : guardOf (.s y) = o.g := by
  have e : encSJ o = o.g.toNat * 2 ^ 20 + (o.rd.toNat * 2 ^ 14 + o.imm.toNat * 2 ^ 0) := by unfold encSJ; omega
  have r : o.rd.toNat * 2 ^ 14 + o.imm.toNat * 2 ^ 0 < 2 ^ 20 := by omega
  simp only [guardOf, isBand, hl, Bool.or_false, Bool.false_eq_true, if_false, encodeSyl, Syl.slot, Slot.bits, Slot.wide, h, opAt, e]
  exact ofNat_guard op 20 o.g _ r
theorem guardOf_s_SK {y : SSyl} {op : Nat} {o : SK} (h : encodeS y = opAt op 24 (encSK o)) (hl : isLop (.s y) = false) : guardOf (.s y) = o.g := by
  have e : encSK o = o.g.toNat * 2 ^ 20 + (o.rd.toNat * 2 ^ 14 + o.imm.toNat * 2 ^ 0) := by unfold encSK; omega
  have r : o.rd.toNat * 2 ^ 14 + o.imm.toNat * 2 ^ 0 < 2 ^ 20 := by omega
  simp only [guardOf, isBand, hl, Bool.or_false, Bool.false_eq_true, if_false, encodeSyl, Syl.slot, Slot.bits, Slot.wide, h, opAt, e]
  exact ofNat_guard op 20 o.g _ r
theorem guardOf_s_SM {y : SSyl} {op : Nat} {o : SM} (h : encodeS y = opAt op 24 (encSM o)) (hl : isLop (.s y) = false) : guardOf (.s y) = o.g := by
  have e : encSM o = o.g.toNat * 2 ^ 20 + (o.r.toNat * 2 ^ 14 + o.b.toNat * 2 ^ 11 + o.off.toNat * 2 ^ 0) := by unfold encSM; omega
  have r : o.r.toNat * 2 ^ 14 + o.b.toNat * 2 ^ 11 + o.off.toNat * 2 ^ 0 < 2 ^ 20 := by omega
  simp only [guardOf, isBand, hl, Bool.or_false, Bool.false_eq_true, if_false, encodeSyl, Syl.slot, Slot.bits, Slot.wide, h, opAt, e]
  exact ofNat_guard op 20 o.g _ r
theorem guardOf_s_SF {y : SSyl} {op : Nat} {o : SF} (h : encodeS y = opAt op 24 (encSF o)) (hl : isLop (.s y) = false) : guardOf (.s y) = o.g := by
  have e : encSF o = o.g.toNat * 2 ^ 20 + (o.slot.toNat * 2 ^ 17 + o.form.toNat * 2 ^ 15 + o.fld.toNat * 2 ^ 13 + o.imm.toNat * 2 ^ 0) := by unfold encSF; omega
  have r : o.slot.toNat * 2 ^ 17 + o.form.toNat * 2 ^ 15 + o.fld.toNat * 2 ^ 13 + o.imm.toNat * 2 ^ 0 < 2 ^ 20 := by omega
  simp only [guardOf, isBand, hl, Bool.or_false, Bool.false_eq_true, if_false, encodeSyl, Syl.slot, Slot.bits, Slot.wide, h, opAt, e]
  exact ofNat_guard op 20 o.g _ r
theorem guardOf_s_SFR {y : SSyl} {op : Nat} {o : SFR} (h : encodeS y = opAt op 24 (encSFR o)) (hl : isLop (.s y) = false) : guardOf (.s y) = o.g := by
  have e : encSFR o = o.g.toNat * 2 ^ 20 + (o.slot.toNat * 2 ^ 17 + o.form.toNat * 2 ^ 15 + o.fld.toNat * 2 ^ 13 + o.s.toNat * 2 ^ 7) := by unfold encSFR; omega
  have r : o.slot.toNat * 2 ^ 17 + o.form.toNat * 2 ^ 15 + o.fld.toNat * 2 ^ 13 + o.s.toNat * 2 ^ 7 < 2 ^ 20 := by omega
  simp only [guardOf, isBand, hl, Bool.or_false, Bool.false_eq_true, if_false, encodeSyl, Syl.slot, Slot.bits, Slot.wide, h, opAt, e]
  exact ofNat_guard op 20 o.g _ r
theorem guardOf_s_SV {y : SSyl} {op : Nat} {o : SV} (h : encodeS y = opAt op 24 (encSV o)) (hl : isLop (.s y) = false) : guardOf (.s y) = o.g := by
  have e : encSV o = o.g.toNat * 2 ^ 20 + (o.file.toNat * 2 ^ 19 + o.base.toNat * 2 ^ 8) := by unfold encSV; omega
  have r : o.file.toNat * 2 ^ 19 + o.base.toNat * 2 ^ 8 < 2 ^ 20 := by omega
  simp only [guardOf, isBand, hl, Bool.or_false, Bool.false_eq_true, if_false, encodeSyl, Syl.slot, Slot.bits, Slot.wide, h, opAt, e]
  exact ofNat_guard op 20 o.g _ r
theorem guardOf_s_SX {y : SSyl} {op : Nat} {o : SX} (h : encodeS y = opAt op 24 (encSX o)) (hl : isLop (.s y) = false) : guardOf (.s y) = o.g := by
  have e : encSX o = o.g.toNat * 2 ^ 20 + (o.s.toNat * 2 ^ 14 + o.file.toNat * 2 ^ 11 + o.reg.toNat * 2 ^ 0) := by unfold encSX; omega
  have r : o.s.toNat * 2 ^ 14 + o.file.toNat * 2 ^ 11 + o.reg.toNat * 2 ^ 0 < 2 ^ 20 := by omega
  simp only [guardOf, isBand, hl, Bool.or_false, Bool.false_eq_true, if_false, encodeSyl, Syl.slot, Slot.bits, Slot.wide, h, opAt, e]
  exact ofNat_guard op 20 o.g _ r
theorem guardOf_s_SW {y : SSyl} {op : Nat} {o : SW} (h : encodeS y = opAt op 24 (encSW o)) (hl : isLop (.s y) = false) : guardOf (.s y) = o.g := by
  have e : encSW o = o.g.toNat * 2 ^ 20 + (o.ch.toNat * 2 ^ 19 + o.s.toNat * 2 ^ 13) := by unfold encSW; omega
  have r : o.ch.toNat * 2 ^ 19 + o.s.toNat * 2 ^ 13 < 2 ^ 20 := by omega
  simp only [guardOf, isBand, hl, Bool.or_false, Bool.false_eq_true, if_false, encodeSyl, Syl.slot, Slot.bits, Slot.wide, h, opAt, e]
  exact ofNat_guard op 20 o.g _ r
theorem guardOf_s_SY {y : SSyl} {op : Nat} {o : SY} (h : encodeS y = opAt op 24 (encSY o)) (hl : isLop (.s y) = false) : guardOf (.s y) = o.g := by
  have e : encSY o = o.g.toNat * 2 ^ 20 + (o.s.toNat * 2 ^ 14 + o.n.toNat * 2 ^ 0) := by unfold encSY; omega
  have r : o.s.toNat * 2 ^ 14 + o.n.toNat * 2 ^ 0 < 2 ^ 20 := by omega
  simp only [guardOf, isBand, hl, Bool.or_false, Bool.false_eq_true, if_false, encodeSyl, Syl.slot, Slot.bits, Slot.wide, h, opAt, e]
  exact ofNat_guard op 20 o.g _ r
theorem guardOf_s_SC {y : SSyl} {op : Nat} {o : SC} (h : encodeS y = opAt op 24 (encSC o)) (hl : isLop (.s y) = false) : guardOf (.s y) = o.g := by
  have e : encSC o = o.g.toNat * 2 ^ 20 + (o.n.toNat * 2 ^ 0) := by unfold encSC; omega
  have r : o.n.toNat * 2 ^ 0 < 2 ^ 20 := by omega
  simp only [guardOf, isBand, hl, Bool.or_false, Bool.false_eq_true, if_false, encodeSyl, Syl.slot, Slot.bits, Slot.wide, h, opAt, e]
  exact ofNat_guard op 20 o.g _ r
theorem guardOf_s_SS {y : SSyl} {op : Nat} {o : SS} (h : encodeS y = opAt op 24 (encSS o)) (hl : isLop (.s y) = false) : guardOf (.s y) = o.g := by
  have e : encSS o = o.g.toNat * 2 ^ 20 + (o.s.toNat * 2 ^ 14) := by unfold encSS; omega
  have r : o.s.toNat * 2 ^ 14 < 2 ^ 20 := by omega
  simp only [guardOf, isBand, hl, Bool.or_false, Bool.false_eq_true, if_false, encodeSyl, Syl.slot, Slot.bits, Slot.wide, h, opAt, e]
  exact ofNat_guard op 20 o.g _ r
theorem guardOf_s_SG {y : SSyl} {op : Nat} {o : SG} (h : encodeS y = opAt op 24 (encSG o)) (hl : isLop (.s y) = false) : guardOf (.s y) = o.g := by
  have e : encSG o = o.g.toNat * 2 ^ 20 + (0) := by unfold encSG; omega
  have r : 0 < 2 ^ 20 := by omega
  simp only [guardOf, isBand, hl, Bool.or_false, Bool.false_eq_true, if_false, encodeSyl, Syl.slot, Slot.bits, Slot.wide, h, opAt, e]
  exact ofNat_guard op 20 o.g _ r
theorem guardOf_s_SN {y : SSyl} {op : Nat} {o : SN} (h : encodeS y = opAt op 24 (encSN o)) (hl : isLop (.s y) = false) : guardOf (.s y) = o.g := by
  have e : encSN o = o.g.toNat * 2 ^ 20 + (o.n.toNat * 2 ^ 0) := by unfold encSN; omega
  have r : o.n.toNat * 2 ^ 0 < 2 ^ 20 := by omega
  simp only [guardOf, isBand, hl, Bool.or_false, Bool.false_eq_true, if_false, encodeSyl, Syl.slot, Slot.bits, Slot.wide, h, opAt, e]
  exact ofNat_guard op 20 o.g _ r
theorem guardOf_l_LB {y : LSyl} {op : Nat} {o : LB} (h : encodeL y = opAt op 24 (encLB o)) : guardOf (.l y) = o.g := by
  have e : encLB o = o.g.toNat * 2 ^ 20 + (o.off.toNat * 2 ^ 0) := by unfold encLB; omega
  have r : o.off.toNat * 2 ^ 0 < 2 ^ 20 := by omega
  simp only [guardOf, isBand, isLop, Bool.or_false, Bool.false_eq_true, if_false, encodeSyl, Syl.slot, Slot.bits, Slot.wide, h, opAt, e]
  exact ofNat_guard op 20 o.g _ r
theorem guardOf_l_LP {y : LSyl} {op : Nat} {o : LP} (h : encodeL y = opAt op 24 (encLP o)) : guardOf (.l y) = o.g := by
  have e : encLP o = o.g.toNat * 2 ^ 20 + (o.l.toNat * 2 ^ 18 + o.s.toNat * 2 ^ 12 + o.st.toNat * 2 ^ 0) := by unfold encLP; omega
  have r : o.l.toNat * 2 ^ 18 + o.s.toNat * 2 ^ 12 + o.st.toNat * 2 ^ 0 < 2 ^ 20 := by omega
  simp only [guardOf, isBand, isLop, Bool.or_false, Bool.false_eq_true, if_false, encodeSyl, Syl.slot, Slot.bits, Slot.wide, h, opAt, e]
  exact ofNat_guard op 20 o.g _ r
theorem guardOf_l_LI {y : LSyl} {op : Nat} {o : LI} (h : encodeL y = opAt op 24 (encLI o)) : guardOf (.l y) = o.g := by
  have e : encLI o = o.g.toNat * 2 ^ 20 + (o.l.toNat * 2 ^ 18 + o.cnt.toNat * 2 ^ 4 + o.st.toNat * 2 ^ 0) := by unfold encLI; omega
  have r : o.l.toNat * 2 ^ 18 + o.cnt.toNat * 2 ^ 4 + o.st.toNat * 2 ^ 0 < 2 ^ 20 := by omega
  simp only [guardOf, isBand, isLop, Bool.or_false, Bool.false_eq_true, if_false, encodeSyl, Syl.slot, Slot.bits, Slot.wide, h, opAt, e]
  exact ofNat_guard op 20 o.g _ r
theorem guardOf_l_LE {y : LSyl} {op : Nat} {o : LE} (h : encodeL y = opAt op 24 (encLE o)) : guardOf (.l y) = o.g := by
  have e : encLE o = o.g.toNat * 2 ^ 20 + (o.l.toNat * 2 ^ 18) := by unfold encLE; omega
  have r : o.l.toNat * 2 ^ 18 < 2 ^ 20 := by omega
  simp only [guardOf, isBand, isLop, Bool.or_false, Bool.false_eq_true, if_false, encodeSyl, Syl.slot, Slot.bits, Slot.wide, h, opAt, e]
  exact ofNat_guard op 20 o.g _ r
theorem guardOf_l_LS {y : LSyl} {op : Nat} {o : LS} (h : encodeL y = opAt op 24 (encLS o)) : guardOf (.l y) = o.g := by
  have e : encLS o = o.g.toNat * 2 ^ 20 + (o.b.toNat * 2 ^ 17 + o.imm.toNat * 2 ^ 0) := by unfold encLS; omega
  have r : o.b.toNat * 2 ^ 17 + o.imm.toNat * 2 ^ 0 < 2 ^ 20 := by omega
  simp only [guardOf, isBand, isLop, Bool.or_false, Bool.false_eq_true, if_false, encodeSyl, Syl.slot, Slot.bits, Slot.wide, h, opAt, e]
  exact ofNat_guard op 20 o.g _ r
theorem guardOf_l_LQ {y : LSyl} {op : Nat} {o : LQ} (h : encodeL y = opAt op 24 (encLQ o)) : guardOf (.l y) = o.g := by
  have e : encLQ o = o.g.toNat * 2 ^ 20 + (o.q.toNat * 2 ^ 0) := by unfold encLQ; omega
  have r : o.q.toNat * 2 ^ 0 < 2 ^ 20 := by omega
  simp only [guardOf, isBand, isLop, Bool.or_false, Bool.false_eq_true, if_false, encodeSyl, Syl.slot, Slot.bits, Slot.wide, h, opAt, e]
  exact ofNat_guard op 20 o.g _ r
theorem guardOf_l_LD {y : LSyl} {op : Nat} {o : LD} (h : encodeL y = opAt op 24 (encLD o)) : guardOf (.l y) = o.g := by
  have e : encLD o = o.g.toNat * 2 ^ 20 + (o.off.toNat * 2 ^ 0) := by unfold encLD; omega
  have r : o.off.toNat * 2 ^ 0 < 2 ^ 20 := by omega
  simp only [guardOf, isBand, isLop, Bool.or_false, Bool.false_eq_true, if_false, encodeSyl, Syl.slot, Slot.bits, Slot.wide, h, opAt, e]
  exact ofNat_guard op 20 o.g _ r
theorem guardOf_l_SG {y : LSyl} {op : Nat} {o : SG} (h : encodeL y = opAt op 24 (encSG o)) : guardOf (.l y) = o.g := by
  have e : encSG o = o.g.toNat * 2 ^ 20 + (0) := by unfold encSG; omega
  have r : 0 < 2 ^ 20 := by omega
  simp only [guardOf, isBand, isLop, Bool.or_false, Bool.false_eq_true, if_false, encodeSyl, Syl.slot, Slot.bits, Slot.wide, h, opAt, e]
  exact ofNat_guard op 20 o.g _ r
theorem guardOf_k_KL {y : KSyl} {op : Nat} {o : KL} (h : encodeK y = opAt op 24 (encKL o)) : guardOf (.k y) = o.g := by
  have e : encKL o = o.g.toNat * 2 ^ 20 + (o.x.toNat * 2 ^ 18 + o.b.toNat * 2 ^ 15 + o.off.toNat * 2 ^ 0) := by unfold encKL; omega
  have r : o.x.toNat * 2 ^ 18 + o.b.toNat * 2 ^ 15 + o.off.toNat * 2 ^ 0 < 2 ^ 20 := by omega
  simp only [guardOf, isBand, isLop, Bool.or_false, Bool.false_eq_true, if_false, encodeSyl, Syl.slot, Slot.bits, Slot.wide, h, opAt, e]
  exact ofNat_guard op 20 o.g _ r
theorem guardOf_k_KF {y : KSyl} {op : Nat} {o : KF} (h : encodeK y = opAt op 24 (encKF o)) : guardOf (.k y) = o.g := by
  have e : encKF o = o.g.toNat * 2 ^ 20 + (o.x.toNat * 2 ^ 18 + o.v.toNat * 2 ^ 0) := by unfold encKF; omega
  have r : o.x.toNat * 2 ^ 18 + o.v.toNat * 2 ^ 0 < 2 ^ 20 := by omega
  simp only [guardOf, isBand, isLop, Bool.or_false, Bool.false_eq_true, if_false, encodeSyl, Syl.slot, Slot.bits, Slot.wide, h, opAt, e]
  exact ofNat_guard op 20 o.g _ r
theorem guardOf_k_KC {y : KSyl} {op : Nat} {o : KC} (h : encodeK y = opAt op 24 (encKC o)) : guardOf (.k y) = o.g := by
  have e : encKC o = o.g.toNat * 2 ^ 20 + (o.x.toNat * 2 ^ 18 + o.y.toNat * 2 ^ 16) := by unfold encKC; omega
  have r : o.x.toNat * 2 ^ 18 + o.y.toNat * 2 ^ 16 < 2 ^ 20 := by omega
  simp only [guardOf, isBand, isLop, Bool.or_false, Bool.false_eq_true, if_false, encodeSyl, Syl.slot, Slot.bits, Slot.wide, h, opAt, e]
  exact ofNat_guard op 20 o.g _ r
theorem guardOf_v_VR {sd : Side} {y : VSyl} {op : Nat} {o : VR} (h : encodeV y = opAt op 56 (encVR o)) : guardOf (.v sd y) = o.g := by
  have e : encVR o = o.g.toNat * 2 ^ 52 + (o.vd.toNat * 2 ^ 41 + o.vsa.toNat * 2 ^ 30 + o.vsb.toNat * 2 ^ 19 + o.imm.toNat * 2 ^ 10 + o.rm.toNat * 2 ^ 7 + o.mask.toNat * 2 ^ 3 + o.form.toNat * 2 ^ 1 + o.sw.toNat * 2 ^ 0) := by unfold encVR; omega
  have r : o.vd.toNat * 2 ^ 41 + o.vsa.toNat * 2 ^ 30 + o.vsb.toNat * 2 ^ 19 + o.imm.toNat * 2 ^ 10 + o.rm.toNat * 2 ^ 7 + o.mask.toNat * 2 ^ 3 + o.form.toNat * 2 ^ 1 + o.sw.toNat * 2 ^ 0 < 2 ^ 52 := by omega
  cases sd <;>
  (simp only [guardOf, isBand, isLop, Bool.or_false, Bool.false_eq_true, if_false, encodeSyl, Syl.slot, Slot.bits, Slot.wide, if_true, h, opAt, e]
   exact ofNat_guard op 52 o.g _ r)
theorem guardOf_v_V3 {sd : Side} {y : VSyl} {op : Nat} {o : V3} (h : encodeV y = opAt op 56 (encV3 o)) : guardOf (.v sd y) = o.g := by
  have e : encV3 o = o.g.toNat * 2 ^ 52 + (o.vd.toNat * 2 ^ 41 + o.vsa.toNat * 2 ^ 30 + o.vsb.toNat * 2 ^ 19 + o.vsc.toNat * 2 ^ 8 + o.rm.toNat * 2 ^ 5 + o.mask.toNat * 2 ^ 3 + o.form.toNat * 2 ^ 1 + o.sw.toNat * 2 ^ 0) := by unfold encV3; omega
  have r : o.vd.toNat * 2 ^ 41 + o.vsa.toNat * 2 ^ 30 + o.vsb.toNat * 2 ^ 19 + o.vsc.toNat * 2 ^ 8 + o.rm.toNat * 2 ^ 5 + o.mask.toNat * 2 ^ 3 + o.form.toNat * 2 ^ 1 + o.sw.toNat * 2 ^ 0 < 2 ^ 52 := by omega
  cases sd <;>
  (simp only [guardOf, isBand, isLop, Bool.or_false, Bool.false_eq_true, if_false, encodeSyl, Syl.slot, Slot.bits, Slot.wide, if_true, h, opAt, e]
   exact ofNat_guard op 52 o.g _ r)
theorem guardOf_v_VM {sd : Side} {y : VSyl} {op : Nat} {o : VM} (h : encodeV y = opAt op 56 (encVM o)) : guardOf (.v sd y) = o.g := by
  have e : encVM o = o.g.toNat * 2 ^ 52 + (o.v.toNat * 2 ^ 41 + o.b.toNat * 2 ^ 38 + o.off.toNat * 2 ^ 16 + o.mask.toNat * 2 ^ 3 + o.form.toNat * 2 ^ 1 + o.sw.toNat * 2 ^ 0) := by unfold encVM; omega
  have r : o.v.toNat * 2 ^ 41 + o.b.toNat * 2 ^ 38 + o.off.toNat * 2 ^ 16 + o.mask.toNat * 2 ^ 3 + o.form.toNat * 2 ^ 1 + o.sw.toNat * 2 ^ 0 < 2 ^ 52 := by omega
  cases sd <;>
  (simp only [guardOf, isBand, isLop, Bool.or_false, Bool.false_eq_true, if_false, encodeSyl, Syl.slot, Slot.bits, Slot.wide, if_true, h, opAt, e]
   exact ofNat_guard op 52 o.g _ r)
theorem guardOf_m_MO {y : MSyl} {op : Nat} {o : MO} (h : encodeM y = opAt op 56 (encMO o)) : guardOf (.m y) = o.g := by
  have e : encMO o = o.g.toNat * 2 ^ 52 + (o.acc.toNat * 2 ^ 51 + o.row.toNat * 2 ^ 44 + o.src.toNat * 2 ^ 42 + o.v.toNat * 2 ^ 31 + o.disp.toNat * 2 ^ 8 + o.fmt.toNat * 2 ^ 5 + o.form.toNat * 2 ^ 1 + o.sw.toNat * 2 ^ 0) := by unfold encMO; omega
  have r : o.acc.toNat * 2 ^ 51 + o.row.toNat * 2 ^ 44 + o.src.toNat * 2 ^ 42 + o.v.toNat * 2 ^ 31 + o.disp.toNat * 2 ^ 8 + o.fmt.toNat * 2 ^ 5 + o.form.toNat * 2 ^ 1 + o.sw.toNat * 2 ^ 0 < 2 ^ 52 := by omega
  (simp only [guardOf, isBand, isLop, Bool.or_false, Bool.false_eq_true, if_false, encodeSyl, Syl.slot, Slot.bits, Slot.wide, if_true, h, opAt, e]
   exact ofNat_guard op 52 o.g _ r)
theorem guardOf_c_CA {sd : Side} {y : CSyl} {op : Nat} {o : CA} (h : encodeC y = opAt op 24 (encCA o)) : guardOf (.c sd y) = o.g := by
  have e : encCA o = o.g.toNat * 2 ^ 20 + (o.d.toNat * 2 ^ 15 + o.s.toNat * 2 ^ 10 + o.len.toNat * 2 ^ 5 + o.form.toNat * 2 ^ 3 + o.sw.toNat * 2 ^ 2) := by unfold encCA; omega
  have r : o.d.toNat * 2 ^ 15 + o.s.toNat * 2 ^ 10 + o.len.toNat * 2 ^ 5 + o.form.toNat * 2 ^ 3 + o.sw.toNat * 2 ^ 2 < 2 ^ 20 := by omega
  cases sd <;>
  (simp only [guardOf, isBand, isLop, Bool.or_false, Bool.false_eq_true, if_false, encodeSyl, Syl.slot, Slot.bits, Slot.wide, h, opAt, e]
   exact ofNat_guard op 20 o.g _ r)
theorem guardOf_c_CS {sd : Side} {y : CSyl} {op : Nat} {o : CS} (h : encodeC y = opAt op 24 (encCS o)) : guardOf (.c sd y) = o.g := by
  have e : encCS o = o.g.toNat * 2 ^ 20 + (o.d.toNat * 2 ^ 15 + o.s.toNat * 2 ^ 10 + o.stream.toNat * 2 ^ 6 + o.scope.toNat * 2 ^ 3 + o.acq.toNat * 2 ^ 2 + o.rel.toNat * 2 ^ 1) := by unfold encCS; omega
  have r : o.d.toNat * 2 ^ 15 + o.s.toNat * 2 ^ 10 + o.stream.toNat * 2 ^ 6 + o.scope.toNat * 2 ^ 3 + o.acq.toNat * 2 ^ 2 + o.rel.toNat * 2 ^ 1 < 2 ^ 20 := by omega
  cases sd <;>
  (simp only [guardOf, isBand, isLop, Bool.or_false, Bool.false_eq_true, if_false, encodeSyl, Syl.slot, Slot.bits, Slot.wide, h, opAt, e]
   exact ofNat_guard op 20 o.g _ r)

theorem guardOf_lop (o : Lop) : guardOf (.s (.lop3 o)) = 0 := rfl

end Machine

end Sys2Proof
end

