-- ==== Sys2Proof/Laws/Tables.lean ====
section
/-! SUPPORT. The laws of sparse memories and tables: what a read after a write gives, and that every write keeps the canonical form. -/

namespace Sys2Proof.Machine

/-! ### Cells -/

theorem cellGet_nil {w : Nat} (i : Nat) : cellGet ([] : Cells w) i = unlisted w := rfl

theorem cellGet_append {w : Nat} (a b : Cells w) (i : Nat) (h : ∀ p ∈ a, p.1 ≠ i) : cellGet (a ++ b) i = cellGet b i := by
  induction a with
  | nil => rfl
  | cons p t ih =>
    have hp : p.1 ≠ i := h p (List.mem_cons_self ..)
    simp only [List.cons_append, cellGet, if_neg hp]
    exact ih fun q hq => h q (List.mem_cons_of_mem _ hq)

theorem cellGet_none {w : Nat} (a : Cells w) (i : Nat) (h : ∀ p ∈ a, p.1 ≠ i) : cellGet a i = unlisted w := by
  have := cellGet_append a [] i h
  simpa [cellGet_nil] using this

theorem cellGet_append_left {w : Nat} (a b : Cells w) (i : Nat) (h : ∀ p ∈ b, p.1 ≠ i) : cellGet (a ++ b) i = cellGet a i := by
  induction a with
  | nil => simpa [cellGet] using cellGet_none b i h
  | cons p t ih =>
    by_cases hp : p.1 = i
    · simp only [List.cons_append, cellGet, if_pos hp]
    · simp only [List.cons_append, cellGet, if_neg hp]
      exact ih

theorem cellGet_filter {w : Nat} (c : Cells w) (f : Nat → Bool) (i : Nat) (h : f i = true) : cellGet (c.filter fun p => f p.1) i = cellGet c i := by
  induction c with
  | nil => rfl
  | cons p t ih =>
    by_cases hp : p.1 = i
    · subst hp
      simp only [List.filter_cons, h, if_true, cellGet]
    · by_cases hf : f p.1 = true
      · simp only [List.filter_cons, hf, if_true, cellGet, if_neg hp]
        exact ih
      · simp only [List.filter_cons, hf, cellGet, if_neg hp]
        exact ih

theorem cellBlock_keys {w : Nat} (base : Nat) (l : List (BitVec w)) : ∀ p ∈ cellBlock base l, base ≤ p.1 ∧ p.1 < base + l.length := by
  induction l generalizing base with
  | nil => intro p hp; cases hp
  | cons x t ih =>
    intro p hp
    simp only [cellBlock] at hp
    have key : ∀ q ∈ cellBlock (base + 1) t, base ≤ q.1 ∧ q.1 < base + (x :: t).length := by
      intro q hq
      have := ih (base + 1) q hq
      simp only [List.length_cons]
      omega
    split at hp
    · exact key p hp
    · rcases List.mem_cons.mp hp with rfl | hq
      · simp
      · exact key p hq

theorem cellGet_cellBlock {w : Nat} (base : Nat) (l : List (BitVec w)) (k : Nat) (h : k < l.length) : cellGet (cellBlock base l) (base + k) = l[k] := by
  induction l generalizing base k with
  | nil => simp at h
  | cons x t ih =>
    cases k with
    | zero =>
      simp only [cellBlock, Nat.add_zero, List.getElem_cons_zero]
      by_cases hx : x = unlisted w
      · rw [if_pos hx, hx]
        apply cellGet_none
        intro p hp
        have := cellBlock_keys (base + 1) t p hp
        omega
      · rw [if_neg hx]
        simp [cellGet]
    | succ k =>
      have hk : k < t.length := by simpa using h
      have := ih (base + 1) k hk
      have e : base + 1 + k = base + (k + 1) := by omega
      rw [e] at this
      simp only [cellBlock, List.getElem_cons_succ]
      split
      · exact this
      · simp only [cellGet]
        rw [if_neg (by omega)]
        exact this

theorem cellGet_cellBlit_out {w : Nat} (c : Cells w) (base : Nat) (l : List (BitVec w)) (i : Nat) (h : i < base ∨ base + l.length ≤ i) :
    cellGet (cellBlit c base l) i = cellGet c i := by
  unfold cellBlit
  rcases h with h | h
  · rw [cellGet_append_left, cellGet_append_left]
    · exact cellGet_filter c (fun n => decide (n < base)) i (by simpa using h)
    · intro p hp
      have := cellBlock_keys base l p hp
      omega
    · intro p hp
      simp only [List.mem_filter, decide_eq_true_eq] at hp
      omega
  · rw [cellGet_append]
    · exact cellGet_filter c (fun n => decide (base + l.length ≤ n)) i (by simpa using h)
    · intro p hp
      rcases List.mem_append.mp hp with hp | hp
      · simp only [List.mem_filter, decide_eq_true_eq] at hp
        omega
      · have := cellBlock_keys base l p hp
        omega

theorem cellGet_cellBlit_in {w : Nat} (c : Cells w) (base : Nat) (l : List (BitVec w)) (k : Nat) (h : k < l.length) :
    cellGet (cellBlit c base l) (base + k) = l[k] := by
  unfold cellBlit
  rw [cellGet_append_left, cellGet_append]
  · exact cellGet_cellBlock base l k h
  · intro p hp
    simp only [List.mem_filter, decide_eq_true_eq] at hp
    omega
  · intro p hp
    simp only [List.mem_filter, decide_eq_true_eq] at hp
    omega

@[simp] theorem cellGet_cellSet_same {w : Nat} (c : Cells w) (i : Nat) (x : BitVec w) : cellGet (cellSet c i x) i = x := by
  have := cellGet_cellBlit_in c i [x] 0 (by simp)
  simpa [cellSet] using this

theorem cellGet_cellSet_other {w : Nat} (c : Cells w) (i j : Nat) (x : BitVec w) (h : j ≠ i) : cellGet (cellSet c i x) j = cellGet c j := by
  apply cellGet_cellBlit_out
  simp only [List.length_singleton]
  omega

/-! ### The canonical form -/

theorem wf_nil {w : Nat} : Memory.wf ([] : Cells w) := by simp [Memory.wf]

theorem wf_cellBlock {w : Nat} (base : Nat) (l : List (BitVec w)) : Memory.wf (cellBlock base l) := by
  induction l generalizing base with
  | nil => exact wf_nil
  | cons x t ih =>
    simp only [cellBlock]
    split
    · exact ih (base + 1)
    · rename_i hx
      refine ⟨List.pairwise_cons.mpr ⟨?_, (ih (base + 1)).1⟩, ?_⟩
      · intro p hp
        have := cellBlock_keys (base + 1) t p hp
        simp only
        omega
      · intro p hp
        rcases List.mem_cons.mp hp with rfl | hp
        · exact hx
        · exact (ih (base + 1)).2 p hp

theorem wf_filter {w : Nat} (c : Cells w) (f : Nat × BitVec w → Bool) (h : Memory.wf c) : Memory.wf (c.filter f) :=
  ⟨h.1.filter f, fun p hp => h.2 p (List.mem_filter.mp hp).1⟩

/-- Writing a block keeps the canonical form. -/
theorem wf_cellBlit {w : Nat} (c : Cells w) (base : Nat) (l : List (BitVec w)) (h : Memory.wf c) : Memory.wf (cellBlit c base l) := by
  have hlo := wf_filter c (fun p => decide (p.1 < base)) h
  have hhi := wf_filter c (fun p => decide (base + l.length ≤ p.1)) h
  have hb := wf_cellBlock base l
  unfold cellBlit
  refine ⟨?_, ?_⟩
  · refine List.pairwise_append.mpr ⟨List.pairwise_append.mpr ⟨hlo.1, hb.1, ?_⟩, hhi.1, ?_⟩
    · intro p hp q hq
      have := cellBlock_keys base l q hq
      simp only [List.mem_filter, decide_eq_true_eq] at hp
      omega
    · intro p hp q hq
      simp only [List.mem_filter, decide_eq_true_eq] at hq
      rcases List.mem_append.mp hp with hp | hp
      · simp only [List.mem_filter, decide_eq_true_eq] at hp
        omega
      · have := cellBlock_keys base l p hp
        omega
  · intro p hp
    rcases List.mem_append.mp hp with hp | hp
    · rcases List.mem_append.mp hp with hp | hp
      · exact hlo.2 p hp
      · exact hb.2 p hp
    · exact hhi.2 p hp

/-- Writing a cell keeps the canonical form. -/
theorem wf_cellSet {w : Nat} (c : Cells w) (i : Nat) (x : BitVec w) (h : Memory.wf c) : Memory.wf (cellSet c i x) := wf_cellBlit c i [x] h

/-- A write of main memory keeps the canonical form, with the copies of migrating pages. -/
theorem wf_migrate (ms : List Migration) (m : Memory) (pa : Nat) (l : List Byte) (h : Memory.wf m) : Memory.wf (migrate ms m pa l) := by
  unfold migrate
  induction ms generalizing m with
  | nil => exact h
  | cons g t ih =>
    simp only [List.foldl_cons]
    apply ih
    split
    · exact wf_cellBlit _ _ _ h
    · exact h

theorem writePa_wf (s : State) (pa : Nat) (l : List Byte) (h : Memory.wf s.mem) : Memory.wf (writePa s pa l).mem :=
  wf_migrate _ _ _ _ (wf_cellBlit _ _ _ h)

/-- Memory right after reset is in canonical form. -/
theorem reset_wf : Memory.wf State.reset.mem := wf_nil

/-! ### Tables -/

theorem tabGet_append {α : Type} (d : α) (a b : Tab α) (i : Nat) (h : ∀ p ∈ a, p.1 ≠ i) : tabGet d (a ++ b) i = tabGet d b i := by
  induction a with
  | nil => rfl
  | cons p t ih =>
    have hp : p.1 ≠ i := h p (List.mem_cons_self ..)
    simp only [List.cons_append, tabGet, if_neg hp]
    exact ih fun q hq => h q (List.mem_cons_of_mem _ hq)

theorem tabGet_none {α : Type} (d : α) (a : Tab α) (i : Nat) (h : ∀ p ∈ a, p.1 ≠ i) : tabGet d a i = d := by
  have := tabGet_append d a [] i h
  simpa [tabGet] using this

theorem tabGet_append_left {α : Type} (d : α) (a b : Tab α) (i : Nat) (h : ∀ p ∈ b, p.1 ≠ i) : tabGet d (a ++ b) i = tabGet d a i := by
  induction a with
  | nil => simpa [tabGet] using tabGet_none d b i h
  | cons p t ih =>
    by_cases hp : p.1 = i
    · simp only [List.cons_append, tabGet, if_pos hp]
    · simp only [List.cons_append, tabGet, if_neg hp]
      exact ih

theorem tabGet_filter {α : Type} (d : α) (c : Tab α) (f : Nat → Bool) (i : Nat) (h : f i = true) : tabGet d (c.filter fun p => f p.1) i = tabGet d c i := by
  induction c with
  | nil => rfl
  | cons p t ih =>
    by_cases hp : p.1 = i
    · subst hp
      simp only [List.filter_cons, h, if_true, tabGet]
    · by_cases hf : f p.1 = true
      · simp only [List.filter_cons, hf, if_true, tabGet, if_neg hp]
        exact ih
      · simp only [List.filter_cons, hf, tabGet, if_neg hp]
        exact ih

@[simp] theorem tabGet_tabSet_same {α : Type} (d : α) (c : Tab α) (i : Nat) (x : α) : tabGet d (tabSet c i x) i = x := by
  unfold tabSet
  rw [tabGet_append]
  · simp [tabGet]
  · intro p hp
    simp only [List.mem_filter, decide_eq_true_eq] at hp
    omega

theorem tabGet_tabSet_other {α : Type} (d : α) (c : Tab α) (i j : Nat) (x : α) (h : j ≠ i) : tabGet d (tabSet c i x) j = tabGet d c j := by
  unfold tabSet
  rcases Nat.lt_or_gt_of_ne h with h' | h'
  · rw [tabGet_append_left]
    · exact tabGet_filter d c (fun n => decide (n < i)) j (by simpa using h')
    · intro p hp
      rcases List.mem_cons.mp hp with rfl | hp
      · simp only; omega
      · simp only [List.mem_filter, decide_eq_true_eq] at hp
        omega
  · rw [tabGet_append]
    · simp only [tabGet]
      rw [if_neg (by omega)]
      exact tabGet_filter d c (fun n => decide (i < n)) j (by simpa using h')
    · intro p hp
      simp only [List.mem_filter, decide_eq_true_eq] at hp
      omega

/-! ### Little-endian values -/

@[simp] theorem leBytes_length (n v : Nat) : (leBytes n v).length = n := by
  induction n generalizing v with
  | zero => rfl
  | succ n ih => simp [leBytes, ih]

theorem leNat_leBytes (n v : Nat) : leNat (leBytes n v) = v % 256 ^ n := by
  induction n generalizing v with
  | zero => simp [leBytes, leNat, Nat.mod_one]
  | succ n ih =>
    simp only [leBytes, leNat, ih, BitVec.toNat_ofNat]
    have e : (256 : Nat) ^ (n + 1) = 256 * 256 ^ n := by rw [Nat.pow_succ, Nat.mul_comm]
    rw [e, Nat.mod_mul]

end Sys2Proof.Machine
end

