-- ==== Sys2Proof/Laws/State.lean ====
section
/-! SUPPORT. One lemma per field of State for each update of it, so that no proof unfolds a record update; and what an update of a table reads as. -/

namespace Sys2Proof.Machine

@[simp] theorem putR_cid (s : State) (r : Regs) : (putR s r).cid = s.cid := rfl
@[simp] theorem putR_others (s : State) (r : Regs) : (putR s r).others = s.others := rfl
@[simp] theorem putR_cores (s : State) (r : Regs) : (putR s r).cores = s.cores := rfl
@[simp] theorem putR_clusters (s : State) (r : Regs) : (putR s r).clusters = s.clusters := rfl
@[simp] theorem putR_dies (s : State) (r : Regs) : (putR s r).dies = s.dies := rfl
@[simp] theorem putR_mem (s : State) (r : Regs) : (putR s r).mem = s.mem := rfl
@[simp] theorem putR_regions (s : State) (r : Regs) : (putR s r).regions = s.regions := rfl
@[simp] theorem putR_kernels (s : State) (r : Regs) : (putR s r).kernels = s.kernels := rfl
@[simp] theorem putR_fabric (s : State) (r : Regs) : (putR s r).fabric = s.fabric := rfl
@[simp] theorem putR_seqs (s : State) (r : Regs) : (putR s r).seqs = s.seqs := rfl
@[simp] theorem putR_packets (s : State) (r : Regs) : (putR s r).packets = s.packets := rfl
@[simp] theorem putR_migrations (s : State) (r : Regs) : (putR s r).migrations = s.migrations := rfl
@[simp] theorem putR_repWrites (s : State) (r : Regs) : (putR s r).repWrites = s.repWrites := rfl
@[simp] theorem putR_repPages (s : State) (r : Regs) : (putR s r).repPages = s.repPages := rfl
@[simp] theorem putR_fw (s : State) (r : Regs) : (putR s r).fw = s.fw := rfl
@[simp] theorem putR_now (s : State) (r : Regs) : (putR s r).now = s.now := rfl
@[simp] theorem putR_oracle (s : State) (r : Regs) : (putR s r).oracle = s.oracle := rfl
@[simp] theorem putR_commands (s : State) (r : Regs) : (putR s r).commands = s.commands := rfl
@[simp] theorem putR_auto (s : State) (r : Regs) : (putR s r).auto = s.auto := rfl
@[simp] theorem putR_turn (s : State) (r : Regs) : (putR s r).turn = s.turn := rfl
@[simp] theorem putR_todo (s : State) (r : Regs) : (putR s r).todo = s.todo := rfl
@[simp] theorem putR_free (s : State) (r : Regs) : (putR s r).free = s.free := rfl

@[simp] theorem putR_cx (s : State) (r : Regs) : (putR s r).cx = { s.cx with r := r } := rfl

@[simp] theorem putRun_cid (s : State) (r : Run) : (putRun s r).cid = s.cid := rfl
@[simp] theorem putRun_others (s : State) (r : Run) : (putRun s r).others = s.others := rfl
@[simp] theorem putRun_cores (s : State) (r : Run) : (putRun s r).cores = s.cores := rfl
@[simp] theorem putRun_clusters (s : State) (r : Run) : (putRun s r).clusters = s.clusters := rfl
@[simp] theorem putRun_dies (s : State) (r : Run) : (putRun s r).dies = s.dies := rfl
@[simp] theorem putRun_mem (s : State) (r : Run) : (putRun s r).mem = s.mem := rfl
@[simp] theorem putRun_regions (s : State) (r : Run) : (putRun s r).regions = s.regions := rfl
@[simp] theorem putRun_kernels (s : State) (r : Run) : (putRun s r).kernels = s.kernels := rfl
@[simp] theorem putRun_fabric (s : State) (r : Run) : (putRun s r).fabric = s.fabric := rfl
@[simp] theorem putRun_seqs (s : State) (r : Run) : (putRun s r).seqs = s.seqs := rfl
@[simp] theorem putRun_packets (s : State) (r : Run) : (putRun s r).packets = s.packets := rfl
@[simp] theorem putRun_migrations (s : State) (r : Run) : (putRun s r).migrations = s.migrations := rfl
@[simp] theorem putRun_repWrites (s : State) (r : Run) : (putRun s r).repWrites = s.repWrites := rfl
@[simp] theorem putRun_repPages (s : State) (r : Run) : (putRun s r).repPages = s.repPages := rfl
@[simp] theorem putRun_fw (s : State) (r : Run) : (putRun s r).fw = s.fw := rfl
@[simp] theorem putRun_now (s : State) (r : Run) : (putRun s r).now = s.now := rfl
@[simp] theorem putRun_oracle (s : State) (r : Run) : (putRun s r).oracle = s.oracle := rfl
@[simp] theorem putRun_commands (s : State) (r : Run) : (putRun s r).commands = s.commands := rfl
@[simp] theorem putRun_auto (s : State) (r : Run) : (putRun s r).auto = s.auto := rfl
@[simp] theorem putRun_turn (s : State) (r : Run) : (putRun s r).turn = s.turn := rfl
@[simp] theorem putRun_todo (s : State) (r : Run) : (putRun s r).todo = s.todo := rfl
@[simp] theorem putRun_free (s : State) (r : Run) : (putRun s r).free = s.free := rfl

@[simp] theorem putRun_cx (s : State) (r : Run) : (putRun s r).cx = { s.cx with run := r } := rfl

@[simp] theorem wrS_cid (s : State) (n : BitVec 6) (x : W64) : (wrS s n x).cid = s.cid := rfl
@[simp] theorem wrS_others (s : State) (n : BitVec 6) (x : W64) : (wrS s n x).others = s.others := rfl
@[simp] theorem wrS_cores (s : State) (n : BitVec 6) (x : W64) : (wrS s n x).cores = s.cores := rfl
@[simp] theorem wrS_clusters (s : State) (n : BitVec 6) (x : W64) : (wrS s n x).clusters = s.clusters := rfl
@[simp] theorem wrS_dies (s : State) (n : BitVec 6) (x : W64) : (wrS s n x).dies = s.dies := rfl
@[simp] theorem wrS_mem (s : State) (n : BitVec 6) (x : W64) : (wrS s n x).mem = s.mem := rfl
@[simp] theorem wrS_regions (s : State) (n : BitVec 6) (x : W64) : (wrS s n x).regions = s.regions := rfl
@[simp] theorem wrS_kernels (s : State) (n : BitVec 6) (x : W64) : (wrS s n x).kernels = s.kernels := rfl
@[simp] theorem wrS_fabric (s : State) (n : BitVec 6) (x : W64) : (wrS s n x).fabric = s.fabric := rfl
@[simp] theorem wrS_seqs (s : State) (n : BitVec 6) (x : W64) : (wrS s n x).seqs = s.seqs := rfl
@[simp] theorem wrS_packets (s : State) (n : BitVec 6) (x : W64) : (wrS s n x).packets = s.packets := rfl
@[simp] theorem wrS_migrations (s : State) (n : BitVec 6) (x : W64) : (wrS s n x).migrations = s.migrations := rfl
@[simp] theorem wrS_repWrites (s : State) (n : BitVec 6) (x : W64) : (wrS s n x).repWrites = s.repWrites := rfl
@[simp] theorem wrS_repPages (s : State) (n : BitVec 6) (x : W64) : (wrS s n x).repPages = s.repPages := rfl
@[simp] theorem wrS_fw (s : State) (n : BitVec 6) (x : W64) : (wrS s n x).fw = s.fw := rfl
@[simp] theorem wrS_now (s : State) (n : BitVec 6) (x : W64) : (wrS s n x).now = s.now := rfl
@[simp] theorem wrS_oracle (s : State) (n : BitVec 6) (x : W64) : (wrS s n x).oracle = s.oracle := rfl
@[simp] theorem wrS_commands (s : State) (n : BitVec 6) (x : W64) : (wrS s n x).commands = s.commands := rfl
@[simp] theorem wrS_auto (s : State) (n : BitVec 6) (x : W64) : (wrS s n x).auto = s.auto := rfl
@[simp] theorem wrS_turn (s : State) (n : BitVec 6) (x : W64) : (wrS s n x).turn = s.turn := rfl
@[simp] theorem wrS_todo (s : State) (n : BitVec 6) (x : W64) : (wrS s n x).todo = s.todo := rfl
@[simp] theorem wrS_free (s : State) (n : BitVec 6) (x : W64) : (wrS s n x).free = s.free := rfl

@[simp] theorem wrS_cx (s : State) (n : BitVec 6) (x : W64) : (wrS s n x).cx = { s.cx with r := sSet s.cx.r n.toNat x } := rfl

@[simp] theorem wrG_cid (s : State) (n : BitVec 6) (v : Bool) : (wrG s n v).cid = s.cid := rfl
@[simp] theorem wrG_others (s : State) (n : BitVec 6) (v : Bool) : (wrG s n v).others = s.others := rfl
@[simp] theorem wrG_cores (s : State) (n : BitVec 6) (v : Bool) : (wrG s n v).cores = s.cores := rfl
@[simp] theorem wrG_clusters (s : State) (n : BitVec 6) (v : Bool) : (wrG s n v).clusters = s.clusters := rfl
@[simp] theorem wrG_dies (s : State) (n : BitVec 6) (v : Bool) : (wrG s n v).dies = s.dies := rfl
@[simp] theorem wrG_mem (s : State) (n : BitVec 6) (v : Bool) : (wrG s n v).mem = s.mem := rfl
@[simp] theorem wrG_regions (s : State) (n : BitVec 6) (v : Bool) : (wrG s n v).regions = s.regions := rfl
@[simp] theorem wrG_kernels (s : State) (n : BitVec 6) (v : Bool) : (wrG s n v).kernels = s.kernels := rfl
@[simp] theorem wrG_fabric (s : State) (n : BitVec 6) (v : Bool) : (wrG s n v).fabric = s.fabric := rfl
@[simp] theorem wrG_seqs (s : State) (n : BitVec 6) (v : Bool) : (wrG s n v).seqs = s.seqs := rfl
@[simp] theorem wrG_packets (s : State) (n : BitVec 6) (v : Bool) : (wrG s n v).packets = s.packets := rfl
@[simp] theorem wrG_migrations (s : State) (n : BitVec 6) (v : Bool) : (wrG s n v).migrations = s.migrations := rfl
@[simp] theorem wrG_repWrites (s : State) (n : BitVec 6) (v : Bool) : (wrG s n v).repWrites = s.repWrites := rfl
@[simp] theorem wrG_repPages (s : State) (n : BitVec 6) (v : Bool) : (wrG s n v).repPages = s.repPages := rfl
@[simp] theorem wrG_fw (s : State) (n : BitVec 6) (v : Bool) : (wrG s n v).fw = s.fw := rfl
@[simp] theorem wrG_now (s : State) (n : BitVec 6) (v : Bool) : (wrG s n v).now = s.now := rfl
@[simp] theorem wrG_oracle (s : State) (n : BitVec 6) (v : Bool) : (wrG s n v).oracle = s.oracle := rfl
@[simp] theorem wrG_commands (s : State) (n : BitVec 6) (v : Bool) : (wrG s n v).commands = s.commands := rfl
@[simp] theorem wrG_auto (s : State) (n : BitVec 6) (v : Bool) : (wrG s n v).auto = s.auto := rfl
@[simp] theorem wrG_turn (s : State) (n : BitVec 6) (v : Bool) : (wrG s n v).turn = s.turn := rfl
@[simp] theorem wrG_todo (s : State) (n : BitVec 6) (v : Bool) : (wrG s n v).todo = s.todo := rfl
@[simp] theorem wrG_free (s : State) (n : BitVec 6) (v : Bool) : (wrG s n v).free = s.free := rfl

@[simp] theorem wrG_cx (s : State) (n : BitVec 6) (v : Bool) : (wrG s n v).cx = { s.cx with r := gSet s.cx.r n.toNat v } := rfl

@[simp] theorem modCore_cid (s : State) (k : Nat) (f : CoreSt → CoreSt) : (modCore s k f).cid = s.cid := rfl
@[simp] theorem modCore_cx (s : State) (k : Nat) (f : CoreSt → CoreSt) : (modCore s k f).cx = s.cx := rfl
@[simp] theorem modCore_others (s : State) (k : Nat) (f : CoreSt → CoreSt) : (modCore s k f).others = s.others := rfl
@[simp] theorem modCore_clusters (s : State) (k : Nat) (f : CoreSt → CoreSt) : (modCore s k f).clusters = s.clusters := rfl
@[simp] theorem modCore_dies (s : State) (k : Nat) (f : CoreSt → CoreSt) : (modCore s k f).dies = s.dies := rfl
@[simp] theorem modCore_mem (s : State) (k : Nat) (f : CoreSt → CoreSt) : (modCore s k f).mem = s.mem := rfl
@[simp] theorem modCore_regions (s : State) (k : Nat) (f : CoreSt → CoreSt) : (modCore s k f).regions = s.regions := rfl
@[simp] theorem modCore_kernels (s : State) (k : Nat) (f : CoreSt → CoreSt) : (modCore s k f).kernels = s.kernels := rfl
@[simp] theorem modCore_fabric (s : State) (k : Nat) (f : CoreSt → CoreSt) : (modCore s k f).fabric = s.fabric := rfl
@[simp] theorem modCore_seqs (s : State) (k : Nat) (f : CoreSt → CoreSt) : (modCore s k f).seqs = s.seqs := rfl
@[simp] theorem modCore_packets (s : State) (k : Nat) (f : CoreSt → CoreSt) : (modCore s k f).packets = s.packets := rfl
@[simp] theorem modCore_migrations (s : State) (k : Nat) (f : CoreSt → CoreSt) : (modCore s k f).migrations = s.migrations := rfl
@[simp] theorem modCore_repWrites (s : State) (k : Nat) (f : CoreSt → CoreSt) : (modCore s k f).repWrites = s.repWrites := rfl
@[simp] theorem modCore_repPages (s : State) (k : Nat) (f : CoreSt → CoreSt) : (modCore s k f).repPages = s.repPages := rfl
@[simp] theorem modCore_fw (s : State) (k : Nat) (f : CoreSt → CoreSt) : (modCore s k f).fw = s.fw := rfl
@[simp] theorem modCore_now (s : State) (k : Nat) (f : CoreSt → CoreSt) : (modCore s k f).now = s.now := rfl
@[simp] theorem modCore_oracle (s : State) (k : Nat) (f : CoreSt → CoreSt) : (modCore s k f).oracle = s.oracle := rfl
@[simp] theorem modCore_commands (s : State) (k : Nat) (f : CoreSt → CoreSt) : (modCore s k f).commands = s.commands := rfl
@[simp] theorem modCore_auto (s : State) (k : Nat) (f : CoreSt → CoreSt) : (modCore s k f).auto = s.auto := rfl
@[simp] theorem modCore_turn (s : State) (k : Nat) (f : CoreSt → CoreSt) : (modCore s k f).turn = s.turn := rfl
@[simp] theorem modCore_todo (s : State) (k : Nat) (f : CoreSt → CoreSt) : (modCore s k f).todo = s.todo := rfl
@[simp] theorem modCore_free (s : State) (k : Nat) (f : CoreSt → CoreSt) : (modCore s k f).free = s.free := rfl

@[simp] theorem modCl_cid (s : State) (k : Nat) (f : Cluster → Cluster) : (modCl s k f).cid = s.cid := rfl
@[simp] theorem modCl_cx (s : State) (k : Nat) (f : Cluster → Cluster) : (modCl s k f).cx = s.cx := rfl
@[simp] theorem modCl_others (s : State) (k : Nat) (f : Cluster → Cluster) : (modCl s k f).others = s.others := rfl
@[simp] theorem modCl_cores (s : State) (k : Nat) (f : Cluster → Cluster) : (modCl s k f).cores = s.cores := rfl
@[simp] theorem modCl_dies (s : State) (k : Nat) (f : Cluster → Cluster) : (modCl s k f).dies = s.dies := rfl
@[simp] theorem modCl_mem (s : State) (k : Nat) (f : Cluster → Cluster) : (modCl s k f).mem = s.mem := rfl
@[simp] theorem modCl_regions (s : State) (k : Nat) (f : Cluster → Cluster) : (modCl s k f).regions = s.regions := rfl
@[simp] theorem modCl_kernels (s : State) (k : Nat) (f : Cluster → Cluster) : (modCl s k f).kernels = s.kernels := rfl
@[simp] theorem modCl_fabric (s : State) (k : Nat) (f : Cluster → Cluster) : (modCl s k f).fabric = s.fabric := rfl
@[simp] theorem modCl_seqs (s : State) (k : Nat) (f : Cluster → Cluster) : (modCl s k f).seqs = s.seqs := rfl
@[simp] theorem modCl_packets (s : State) (k : Nat) (f : Cluster → Cluster) : (modCl s k f).packets = s.packets := rfl
@[simp] theorem modCl_migrations (s : State) (k : Nat) (f : Cluster → Cluster) : (modCl s k f).migrations = s.migrations := rfl
@[simp] theorem modCl_repWrites (s : State) (k : Nat) (f : Cluster → Cluster) : (modCl s k f).repWrites = s.repWrites := rfl
@[simp] theorem modCl_repPages (s : State) (k : Nat) (f : Cluster → Cluster) : (modCl s k f).repPages = s.repPages := rfl
@[simp] theorem modCl_fw (s : State) (k : Nat) (f : Cluster → Cluster) : (modCl s k f).fw = s.fw := rfl
@[simp] theorem modCl_now (s : State) (k : Nat) (f : Cluster → Cluster) : (modCl s k f).now = s.now := rfl
@[simp] theorem modCl_oracle (s : State) (k : Nat) (f : Cluster → Cluster) : (modCl s k f).oracle = s.oracle := rfl
@[simp] theorem modCl_commands (s : State) (k : Nat) (f : Cluster → Cluster) : (modCl s k f).commands = s.commands := rfl
@[simp] theorem modCl_auto (s : State) (k : Nat) (f : Cluster → Cluster) : (modCl s k f).auto = s.auto := rfl
@[simp] theorem modCl_turn (s : State) (k : Nat) (f : Cluster → Cluster) : (modCl s k f).turn = s.turn := rfl
@[simp] theorem modCl_todo (s : State) (k : Nat) (f : Cluster → Cluster) : (modCl s k f).todo = s.todo := rfl
@[simp] theorem modCl_free (s : State) (k : Nat) (f : Cluster → Cluster) : (modCl s k f).free = s.free := rfl

@[simp] theorem modDie_cid (s : State) (k : Nat) (f : Die → Die) : (modDie s k f).cid = s.cid := rfl
@[simp] theorem modDie_cx (s : State) (k : Nat) (f : Die → Die) : (modDie s k f).cx = s.cx := rfl
@[simp] theorem modDie_others (s : State) (k : Nat) (f : Die → Die) : (modDie s k f).others = s.others := rfl
@[simp] theorem modDie_cores (s : State) (k : Nat) (f : Die → Die) : (modDie s k f).cores = s.cores := rfl
@[simp] theorem modDie_clusters (s : State) (k : Nat) (f : Die → Die) : (modDie s k f).clusters = s.clusters := rfl
@[simp] theorem modDie_mem (s : State) (k : Nat) (f : Die → Die) : (modDie s k f).mem = s.mem := rfl
@[simp] theorem modDie_regions (s : State) (k : Nat) (f : Die → Die) : (modDie s k f).regions = s.regions := rfl
@[simp] theorem modDie_kernels (s : State) (k : Nat) (f : Die → Die) : (modDie s k f).kernels = s.kernels := rfl
@[simp] theorem modDie_fabric (s : State) (k : Nat) (f : Die → Die) : (modDie s k f).fabric = s.fabric := rfl
@[simp] theorem modDie_seqs (s : State) (k : Nat) (f : Die → Die) : (modDie s k f).seqs = s.seqs := rfl
@[simp] theorem modDie_packets (s : State) (k : Nat) (f : Die → Die) : (modDie s k f).packets = s.packets := rfl
@[simp] theorem modDie_migrations (s : State) (k : Nat) (f : Die → Die) : (modDie s k f).migrations = s.migrations := rfl
@[simp] theorem modDie_repWrites (s : State) (k : Nat) (f : Die → Die) : (modDie s k f).repWrites = s.repWrites := rfl
@[simp] theorem modDie_repPages (s : State) (k : Nat) (f : Die → Die) : (modDie s k f).repPages = s.repPages := rfl
@[simp] theorem modDie_fw (s : State) (k : Nat) (f : Die → Die) : (modDie s k f).fw = s.fw := rfl
@[simp] theorem modDie_now (s : State) (k : Nat) (f : Die → Die) : (modDie s k f).now = s.now := rfl
@[simp] theorem modDie_oracle (s : State) (k : Nat) (f : Die → Die) : (modDie s k f).oracle = s.oracle := rfl
@[simp] theorem modDie_commands (s : State) (k : Nat) (f : Die → Die) : (modDie s k f).commands = s.commands := rfl
@[simp] theorem modDie_auto (s : State) (k : Nat) (f : Die → Die) : (modDie s k f).auto = s.auto := rfl
@[simp] theorem modDie_turn (s : State) (k : Nat) (f : Die → Die) : (modDie s k f).turn = s.turn := rfl
@[simp] theorem modDie_todo (s : State) (k : Nat) (f : Die → Die) : (modDie s k f).todo = s.todo := rfl
@[simp] theorem modDie_free (s : State) (k : Nat) (f : Die → Die) : (modDie s k f).free = s.free := rfl

@[simp] theorem modRegion_cid (s : State) (id : W32) (f : Region → Region) : (modRegion s id f).cid = s.cid := rfl
@[simp] theorem modRegion_cx (s : State) (id : W32) (f : Region → Region) : (modRegion s id f).cx = s.cx := rfl
@[simp] theorem modRegion_others (s : State) (id : W32) (f : Region → Region) : (modRegion s id f).others = s.others := rfl
@[simp] theorem modRegion_cores (s : State) (id : W32) (f : Region → Region) : (modRegion s id f).cores = s.cores := rfl
@[simp] theorem modRegion_clusters (s : State) (id : W32) (f : Region → Region) : (modRegion s id f).clusters = s.clusters := rfl
@[simp] theorem modRegion_dies (s : State) (id : W32) (f : Region → Region) : (modRegion s id f).dies = s.dies := rfl
@[simp] theorem modRegion_mem (s : State) (id : W32) (f : Region → Region) : (modRegion s id f).mem = s.mem := rfl
@[simp] theorem modRegion_kernels (s : State) (id : W32) (f : Region → Region) : (modRegion s id f).kernels = s.kernels := rfl
@[simp] theorem modRegion_fabric (s : State) (id : W32) (f : Region → Region) : (modRegion s id f).fabric = s.fabric := rfl
@[simp] theorem modRegion_seqs (s : State) (id : W32) (f : Region → Region) : (modRegion s id f).seqs = s.seqs := rfl
@[simp] theorem modRegion_packets (s : State) (id : W32) (f : Region → Region) : (modRegion s id f).packets = s.packets := rfl
@[simp] theorem modRegion_migrations (s : State) (id : W32) (f : Region → Region) : (modRegion s id f).migrations = s.migrations := rfl
@[simp] theorem modRegion_repWrites (s : State) (id : W32) (f : Region → Region) : (modRegion s id f).repWrites = s.repWrites := rfl
@[simp] theorem modRegion_repPages (s : State) (id : W32) (f : Region → Region) : (modRegion s id f).repPages = s.repPages := rfl
@[simp] theorem modRegion_fw (s : State) (id : W32) (f : Region → Region) : (modRegion s id f).fw = s.fw := rfl
@[simp] theorem modRegion_now (s : State) (id : W32) (f : Region → Region) : (modRegion s id f).now = s.now := rfl
@[simp] theorem modRegion_oracle (s : State) (id : W32) (f : Region → Region) : (modRegion s id f).oracle = s.oracle := rfl
@[simp] theorem modRegion_commands (s : State) (id : W32) (f : Region → Region) : (modRegion s id f).commands = s.commands := rfl
@[simp] theorem modRegion_auto (s : State) (id : W32) (f : Region → Region) : (modRegion s id f).auto = s.auto := rfl
@[simp] theorem modRegion_turn (s : State) (id : W32) (f : Region → Region) : (modRegion s id f).turn = s.turn := rfl
@[simp] theorem modRegion_todo (s : State) (id : W32) (f : Region → Region) : (modRegion s id f).todo = s.todo := rfl
@[simp] theorem modRegion_free (s : State) (id : W32) (f : Region → Region) : (modRegion s id f).free = s.free := rfl

@[simp] theorem writePa_cid (s : State) (pa : Nat) (l : List Byte) : (writePa s pa l).cid = s.cid := rfl
@[simp] theorem writePa_cx (s : State) (pa : Nat) (l : List Byte) : (writePa s pa l).cx = s.cx := rfl
@[simp] theorem writePa_others (s : State) (pa : Nat) (l : List Byte) : (writePa s pa l).others = s.others := rfl
@[simp] theorem writePa_cores (s : State) (pa : Nat) (l : List Byte) : (writePa s pa l).cores = s.cores := rfl
@[simp] theorem writePa_clusters (s : State) (pa : Nat) (l : List Byte) : (writePa s pa l).clusters = s.clusters := rfl
@[simp] theorem writePa_dies (s : State) (pa : Nat) (l : List Byte) : (writePa s pa l).dies = s.dies := rfl
@[simp] theorem writePa_regions (s : State) (pa : Nat) (l : List Byte) : (writePa s pa l).regions = s.regions := rfl
@[simp] theorem writePa_kernels (s : State) (pa : Nat) (l : List Byte) : (writePa s pa l).kernels = s.kernels := rfl
@[simp] theorem writePa_fabric (s : State) (pa : Nat) (l : List Byte) : (writePa s pa l).fabric = s.fabric := rfl
@[simp] theorem writePa_seqs (s : State) (pa : Nat) (l : List Byte) : (writePa s pa l).seqs = s.seqs := rfl
@[simp] theorem writePa_packets (s : State) (pa : Nat) (l : List Byte) : (writePa s pa l).packets = s.packets := rfl
@[simp] theorem writePa_migrations (s : State) (pa : Nat) (l : List Byte) : (writePa s pa l).migrations = s.migrations := rfl
@[simp] theorem writePa_repWrites (s : State) (pa : Nat) (l : List Byte) : (writePa s pa l).repWrites = s.repWrites := rfl
@[simp] theorem writePa_repPages (s : State) (pa : Nat) (l : List Byte) : (writePa s pa l).repPages = s.repPages := rfl
@[simp] theorem writePa_fw (s : State) (pa : Nat) (l : List Byte) : (writePa s pa l).fw = s.fw := rfl
@[simp] theorem writePa_now (s : State) (pa : Nat) (l : List Byte) : (writePa s pa l).now = s.now := rfl
@[simp] theorem writePa_oracle (s : State) (pa : Nat) (l : List Byte) : (writePa s pa l).oracle = s.oracle := rfl
@[simp] theorem writePa_commands (s : State) (pa : Nat) (l : List Byte) : (writePa s pa l).commands = s.commands := rfl
@[simp] theorem writePa_auto (s : State) (pa : Nat) (l : List Byte) : (writePa s pa l).auto = s.auto := rfl
@[simp] theorem writePa_turn (s : State) (pa : Nat) (l : List Byte) : (writePa s pa l).turn = s.turn := rfl
@[simp] theorem writePa_todo (s : State) (pa : Nat) (l : List Byte) : (writePa s pa l).todo = s.todo := rfl
@[simp] theorem writePa_free (s : State) (pa : Nat) (l : List Byte) : (writePa s pa l).free = s.free := rfl

@[simp] theorem setCtx_cid (s : State) (c : CtxId) (x : Ctx) : (setCtx s c x).cid = s.cid := by
  unfold setCtx; split <;> rfl
@[simp] theorem setCtx_cores (s : State) (c : CtxId) (x : Ctx) : (setCtx s c x).cores = s.cores := by
  unfold setCtx; split <;> rfl
@[simp] theorem setCtx_clusters (s : State) (c : CtxId) (x : Ctx) : (setCtx s c x).clusters = s.clusters := by
  unfold setCtx; split <;> rfl
@[simp] theorem setCtx_dies (s : State) (c : CtxId) (x : Ctx) : (setCtx s c x).dies = s.dies := by
  unfold setCtx; split <;> rfl
@[simp] theorem setCtx_mem (s : State) (c : CtxId) (x : Ctx) : (setCtx s c x).mem = s.mem := by
  unfold setCtx; split <;> rfl
@[simp] theorem setCtx_regions (s : State) (c : CtxId) (x : Ctx) : (setCtx s c x).regions = s.regions := by
  unfold setCtx; split <;> rfl
@[simp] theorem setCtx_kernels (s : State) (c : CtxId) (x : Ctx) : (setCtx s c x).kernels = s.kernels := by
  unfold setCtx; split <;> rfl
@[simp] theorem setCtx_fabric (s : State) (c : CtxId) (x : Ctx) : (setCtx s c x).fabric = s.fabric := by
  unfold setCtx; split <;> rfl
@[simp] theorem setCtx_seqs (s : State) (c : CtxId) (x : Ctx) : (setCtx s c x).seqs = s.seqs := by
  unfold setCtx; split <;> rfl
@[simp] theorem setCtx_packets (s : State) (c : CtxId) (x : Ctx) : (setCtx s c x).packets = s.packets := by
  unfold setCtx; split <;> rfl
@[simp] theorem setCtx_migrations (s : State) (c : CtxId) (x : Ctx) : (setCtx s c x).migrations = s.migrations := by
  unfold setCtx; split <;> rfl
@[simp] theorem setCtx_repWrites (s : State) (c : CtxId) (x : Ctx) : (setCtx s c x).repWrites = s.repWrites := by
  unfold setCtx; split <;> rfl
@[simp] theorem setCtx_repPages (s : State) (c : CtxId) (x : Ctx) : (setCtx s c x).repPages = s.repPages := by
  unfold setCtx; split <;> rfl
@[simp] theorem setCtx_fw (s : State) (c : CtxId) (x : Ctx) : (setCtx s c x).fw = s.fw := by
  unfold setCtx; split <;> rfl
@[simp] theorem setCtx_now (s : State) (c : CtxId) (x : Ctx) : (setCtx s c x).now = s.now := by
  unfold setCtx; split <;> rfl
@[simp] theorem setCtx_oracle (s : State) (c : CtxId) (x : Ctx) : (setCtx s c x).oracle = s.oracle := by
  unfold setCtx; split <;> rfl
@[simp] theorem setCtx_commands (s : State) (c : CtxId) (x : Ctx) : (setCtx s c x).commands = s.commands := by
  unfold setCtx; split <;> rfl
@[simp] theorem setCtx_auto (s : State) (c : CtxId) (x : Ctx) : (setCtx s c x).auto = s.auto := by
  unfold setCtx; split <;> rfl
@[simp] theorem setCtx_turn (s : State) (c : CtxId) (x : Ctx) : (setCtx s c x).turn = s.turn := by
  unfold setCtx; split <;> rfl
@[simp] theorem setCtx_todo (s : State) (c : CtxId) (x : Ctx) : (setCtx s c x).todo = s.todo := by
  unfold setCtx; split <;> rfl
@[simp] theorem setCtx_free (s : State) (c : CtxId) (x : Ctx) : (setCtx s c x).free = s.free := by
  unfold setCtx; split <;> rfl

@[simp] theorem modCtx_cid (s : State) (c : CtxId) (f : Ctx → Ctx) : (modCtx s c f).cid = s.cid := by simp [modCtx]
@[simp] theorem modCtx_cores (s : State) (c : CtxId) (f : Ctx → Ctx) : (modCtx s c f).cores = s.cores := by simp [modCtx]
@[simp] theorem modCtx_clusters (s : State) (c : CtxId) (f : Ctx → Ctx) : (modCtx s c f).clusters = s.clusters := by simp [modCtx]
@[simp] theorem modCtx_dies (s : State) (c : CtxId) (f : Ctx → Ctx) : (modCtx s c f).dies = s.dies := by simp [modCtx]
@[simp] theorem modCtx_mem (s : State) (c : CtxId) (f : Ctx → Ctx) : (modCtx s c f).mem = s.mem := by simp [modCtx]
@[simp] theorem modCtx_regions (s : State) (c : CtxId) (f : Ctx → Ctx) : (modCtx s c f).regions = s.regions := by simp [modCtx]
@[simp] theorem modCtx_kernels (s : State) (c : CtxId) (f : Ctx → Ctx) : (modCtx s c f).kernels = s.kernels := by simp [modCtx]
@[simp] theorem modCtx_fabric (s : State) (c : CtxId) (f : Ctx → Ctx) : (modCtx s c f).fabric = s.fabric := by simp [modCtx]
@[simp] theorem modCtx_seqs (s : State) (c : CtxId) (f : Ctx → Ctx) : (modCtx s c f).seqs = s.seqs := by simp [modCtx]
@[simp] theorem modCtx_packets (s : State) (c : CtxId) (f : Ctx → Ctx) : (modCtx s c f).packets = s.packets := by simp [modCtx]
@[simp] theorem modCtx_migrations (s : State) (c : CtxId) (f : Ctx → Ctx) : (modCtx s c f).migrations = s.migrations := by simp [modCtx]
@[simp] theorem modCtx_repWrites (s : State) (c : CtxId) (f : Ctx → Ctx) : (modCtx s c f).repWrites = s.repWrites := by simp [modCtx]
@[simp] theorem modCtx_repPages (s : State) (c : CtxId) (f : Ctx → Ctx) : (modCtx s c f).repPages = s.repPages := by simp [modCtx]
@[simp] theorem modCtx_fw (s : State) (c : CtxId) (f : Ctx → Ctx) : (modCtx s c f).fw = s.fw := by simp [modCtx]
@[simp] theorem modCtx_now (s : State) (c : CtxId) (f : Ctx → Ctx) : (modCtx s c f).now = s.now := by simp [modCtx]
@[simp] theorem modCtx_oracle (s : State) (c : CtxId) (f : Ctx → Ctx) : (modCtx s c f).oracle = s.oracle := by simp [modCtx]
@[simp] theorem modCtx_commands (s : State) (c : CtxId) (f : Ctx → Ctx) : (modCtx s c f).commands = s.commands := by simp [modCtx]
@[simp] theorem modCtx_auto (s : State) (c : CtxId) (f : Ctx → Ctx) : (modCtx s c f).auto = s.auto := by simp [modCtx]
@[simp] theorem modCtx_turn (s : State) (c : CtxId) (f : Ctx → Ctx) : (modCtx s c f).turn = s.turn := by simp [modCtx]
@[simp] theorem modCtx_todo (s : State) (c : CtxId) (f : Ctx → Ctx) : (modCtx s c f).todo = s.todo := by simp [modCtx]
@[simp] theorem modCtx_free (s : State) (c : CtxId) (f : Ctx → Ctx) : (modCtx s c f).free = s.free := by simp [modCtx]

@[simp] theorem focus_cores (s : State) (c : CtxId) : (focus s c).cores = s.cores := by
  unfold focus; split <;> rfl
@[simp] theorem focus_clusters (s : State) (c : CtxId) : (focus s c).clusters = s.clusters := by
  unfold focus; split <;> rfl
@[simp] theorem focus_dies (s : State) (c : CtxId) : (focus s c).dies = s.dies := by
  unfold focus; split <;> rfl
@[simp] theorem focus_mem (s : State) (c : CtxId) : (focus s c).mem = s.mem := by
  unfold focus; split <;> rfl
@[simp] theorem focus_regions (s : State) (c : CtxId) : (focus s c).regions = s.regions := by
  unfold focus; split <;> rfl
@[simp] theorem focus_kernels (s : State) (c : CtxId) : (focus s c).kernels = s.kernels := by
  unfold focus; split <;> rfl
@[simp] theorem focus_fabric (s : State) (c : CtxId) : (focus s c).fabric = s.fabric := by
  unfold focus; split <;> rfl
@[simp] theorem focus_seqs (s : State) (c : CtxId) : (focus s c).seqs = s.seqs := by
  unfold focus; split <;> rfl
@[simp] theorem focus_packets (s : State) (c : CtxId) : (focus s c).packets = s.packets := by
  unfold focus; split <;> rfl
@[simp] theorem focus_migrations (s : State) (c : CtxId) : (focus s c).migrations = s.migrations := by
  unfold focus; split <;> rfl
@[simp] theorem focus_repWrites (s : State) (c : CtxId) : (focus s c).repWrites = s.repWrites := by
  unfold focus; split <;> rfl
@[simp] theorem focus_repPages (s : State) (c : CtxId) : (focus s c).repPages = s.repPages := by
  unfold focus; split <;> rfl
@[simp] theorem focus_fw (s : State) (c : CtxId) : (focus s c).fw = s.fw := by
  unfold focus; split <;> rfl
@[simp] theorem focus_now (s : State) (c : CtxId) : (focus s c).now = s.now := by
  unfold focus; split <;> rfl
@[simp] theorem focus_oracle (s : State) (c : CtxId) : (focus s c).oracle = s.oracle := by
  unfold focus; split <;> rfl
@[simp] theorem focus_commands (s : State) (c : CtxId) : (focus s c).commands = s.commands := by
  unfold focus; split <;> rfl
@[simp] theorem focus_auto (s : State) (c : CtxId) : (focus s c).auto = s.auto := by
  unfold focus; split <;> rfl
@[simp] theorem focus_turn (s : State) (c : CtxId) : (focus s c).turn = s.turn := by
  unfold focus; split <;> rfl
@[simp] theorem focus_todo (s : State) (c : CtxId) : (focus s c).todo = s.todo := by
  unfold focus; split <;> rfl
@[simp] theorem focus_free (s : State) (c : CtxId) : (focus s c).free = s.free := by
  unfold focus; split <;> rfl

@[simp] theorem focus_self (s : State) : focus s s.cid = s := by simp [focus]
@[simp] theorem focus_cid (s : State) (c : CtxId) : (focus s c).cid = c := by
  unfold focus
  split
  · rename_i h; exact h.symm
  · rfl

/-! ### Reads after updates -/

@[simp] theorem getCtx_self (s : State) : getCtx s s.cid = s.cx := by simp [getCtx]
@[simp] theorem setCtx_self (s : State) (x : Ctx) : setCtx s s.cid x = { s with cx := x } := by simp [setCtx]
theorem ctxNum_inj (c d : CtxId) (h : ctxNum c = ctxNum d) : c = d := by
  obtain ⟨c, p⟩ := c
  obtain ⟨d, q⟩ := d
  simp only [ctxNum] at h
  have e : c.toNat = d.toNat ∧ p = q := by cases p <;> cases q <;> simp at h ⊢ <;> omega
  rw [BitVec.eq_of_toNat_eq e.1, e.2]
@[simp] theorem getCtx_setCtx_same (s : State) (c : CtxId) (x : Ctx) : getCtx (setCtx s c x) c = x := by
  unfold getCtx setCtx
  split
  · simp [*]
  · simp [*]
theorem getCtx_setCtx_other (s : State) (c d : CtxId) (x : Ctx) (h : d ≠ c) : getCtx (setCtx s c x) d = getCtx s d := by
  unfold getCtx setCtx
  by_cases hc : c = s.cid
  · rw [if_pos hc, if_neg (by simpa [hc] using h), if_neg (by simpa [hc] using h)]
  · rw [if_neg hc]
    by_cases hd : d = s.cid
    · rw [if_pos (by simpa using hd), if_pos hd]
    · rw [if_neg (by simpa using hd), if_neg hd]
      exact tabGet_tabSet_other _ _ _ _ _ fun e => h (ctxNum_inj _ _ e)
@[simp] theorem getCl_modCl_same (s : State) (k : Nat) (f : Cluster → Cluster) : getCl (modCl s k f) k = f (getCl s k) := by simp [getCl, modCl]
theorem getCl_modCl_other (s : State) (j k : Nat) (f : Cluster → Cluster) (h : j ≠ k) : getCl (modCl s k f) j = getCl s j := by
  simp only [getCl, modCl]
  exact tabGet_tabSet_other _ _ _ _ _ h
@[simp] theorem getCore_modCore_same (s : State) (k : Nat) (f : CoreSt → CoreSt) : getCore (modCore s k f) k = f (getCore s k) := by simp [getCore, modCore]
@[simp] theorem getDie_modDie_same (s : State) (k : Nat) (f : Die → Die) : getDie (modDie s k f) k = f (getDie s k) := by simp [getDie, modDie]

/-! ### Register files -/

@[simp] theorem sGet_zero (r : Regs) : sGet r 0 = 0 := rfl
@[simp] theorem sSet_zero (r : Regs) (x : W64) : sSet r 0 x = r := rfl
theorem sGet_sSet_same (r : Regs) (n : Nat) (x : W64) (h : n ≠ 0) : sGet (sSet r n x) n = x := by simp [sGet, sSet, h]
theorem sGet_sSet_other (r : Regs) (n m : Nat) (x : W64) (h : m ≠ n) : sGet (sSet r n x) m = sGet r m := by
  unfold sGet sSet
  by_cases hn : n = 0
  · simp [hn]
  · simp only [if_neg hn]
    split
    · rfl
    · exact cellGet_cellSet_other _ _ _ _ h
@[simp] theorem gGet_zero (r : Regs) : gGet r 0 = true := rfl
@[simp] theorem gSet_zero (r : Regs) (v : Bool) : gSet r 0 v = r := rfl

end Sys2Proof.Machine
end

