-- ==== Sys2Proof/Laws/Issue.lean ====
section
/-! SUPPORT. The issue of a bundle of one syllable by a calm context: it commits what the syllable's meaning leaves, or traps where a check or the
meaning traps. -/

namespace Sys2Proof.Machine

/-! ### The scoreboard of a calm context -/

theorem readyAt_nil (f : Item → Bool) : readyAt [] f = 0 := rfl

theorem issueFrom_nil (u : Use) (acc : List (Nat × Nat)) (wall : Nat) : issueFrom [] u acc wall = 0 := by
  have hl : u.later.foldl (fun (m : Nat) (q : Item × Nat) => max m (0 - q.2)) 0 = 0 := by
    induction u.later with
    | nil => rfl
    | cons _ _ ih => simpa using ih
  unfold issueFrom
  simp only [readyAt_nil, hl, Nat.not_lt_zero, if_false, List.foldl_nil]
  induction u.writes with
  | nil => rfl
  | cons _ _ ih => simpa using ih

theorem queued_nil (r : Nat) (l : List Nat) : queued [] r l = 0 := by
  unfold queued
  induction l with
  | nil => rfl
  | cons x t ih => simpa using ih

/-! ### The header of a bundle of one syllable -/

theorem slot_num_lt (y : Syl) : y.slot.num < 8 := by
  generalize y.slot = x
  cases x <;> decide

theorem header_ok : ∀ k < 8, ∀ l ∈ [0, 4, 1],
    ((2 ^ (31 - k) + (255 - 2 ^ (7 - k)) * 2 ^ 16 + l != 0) && !(slots8.any fun j => hdrPresent (2 ^ (31 - k) + (255 - 2 ^ (7 - k)) * 2 ^ 16 + l) j &&
      hdrQuiet (2 ^ (31 - k) + (255 - 2 ^ (7 - k)) * 2 ^ 16 + l) j)) = true ∧
    (hdrLendA (2 ^ (31 - k) + (255 - 2 ^ (7 - k)) * 2 ^ 16 + l) == 0 || hdrLendA (2 ^ (31 - k) + (255 - 2 ^ (7 - k)) * 2 ^ 16 + l) !=
      hdrLendB (2 ^ (31 - k) + (255 - 2 ^ (7 - k)) * 2 ^ 16 + l)) = true := by
  decide

/-- The lend bits of a bundle of one syllable. -/
theorem loneBun_hdr (x : Ctx) (y : Syl) : ∃ l ∈ [0, 4, 1], (loneBun x y).hdr = 2 ^ (31 - y.slot.num) + (255 - 2 ^ (7 - y.slot.num)) * 2 ^ 16 + l := by
  unfold loneBun
  split
  · exact ⟨4, by simp, rfl⟩
  · exact ⟨1, by simp, rfl⟩
  · exact ⟨0, by simp, rfl⟩

theorem headerCheck_lone (x : Ctx) (y : Syl) : headerCheck (loneBun x y) true = .ok () := by
  obtain ⟨l, hl, h⟩ := loneBun_hdr x y
  have := header_ok y.slot.num (slot_num_lt y) l hl
  simp only [headerCheck, need, h, this.1, this.2, if_true]
  rfl

/-! ### The calm cluster -/

theorem otherSlot_ne (c : CtxId) : otherSlot c ≠ c := by
  intro h
  have := congrArg CtxId.sec h
  simp [otherSlot] at this

theorem Calm.other {s : State} (h : Calm s) : getCtx s (otherSlot s.cid) = {} := h.alone _ rfl (otherSlot_ne _)

theorem Calm.stopDue {s : State} (h : Calm s) (k : Bool) : stopDue s s.cid k = none := by
  unfold Machine.stopDue
  simp only [getCtx_self]
  split
  · rfl
  · rw [h.watch]
    simp [stopDue.debug, h.dstop]

theorem Calm.waitingTrap {s : State} (h : Calm s) : waitingTrap s.cx = none := by
  simp [Machine.waitingTrap, h.brakeTrap, h.timing]

theorem Calm.beforeIssue {s : State} (h : Calm s) (k : Try) : beforeIssue s k = k := by
  simp [Machine.beforeIssue, h.stopDue, h.waitingTrap]

theorem Calm.mayIssue {s : State} (h : Calm s) : mayIssue s.cx = true := by
  unfold Machine.mayIssue
  rw [h.mode, h.builtin, h.hold, h.parked]
  cases s.cx.mon.active <;> rfl

theorem Calm.foreland {s : State} (h : Calm s) : foreland s (ctxCl s.cid) = s := by
  simp [Machine.foreland, h.unbraked, landSends, landMcasts, h.net, h.win]

theorem Calm.endHold {s : State} (h : Calm s) : endHold s s.cid = s := by
  simp [Machine.endHold, h.hold]

/-- A calm context waits for nothing that an issue would clear. -/
theorem Calm.clearWait {s : State} (h : Calm s) : modCtx s s.cid clearWait = s := by
  have hr : ({ s.cx.run with waiting := false } : Run) = s.cx.run := by rw [← h.waiting]
  have hn : s.cx.run.state ≠ .wait := by
    rw [h.mode]
    cases s.cx.mon.active <;> simp
  unfold modCtx Machine.clearWait
  simp only [getCtx_self, setCtx_self, if_neg hn]
  split
  · rfl
  · show ({ s with cx := { s.cx with run := { s.cx.run with waiting := false } } } : State) = s
    rw [hr]

/-- No transfer of a calm context is held in a way that brakes. -/
theorem Calm.xferConds {s : State} (h : Calm s) : xferConds s s.cid = [] := by
  have hf : ∀ ch, (chanOf s.cx ch).xfers.filter (lateXfer s s.cid ch) = [] := fun ch => List.filter_eq_nil_iff.mpr fun q hq => by simp [h.prompt ch q hq]
  simp [Machine.xferConds, hf]

theorem mkCtx_cl (cl k : Nat) (p : Bool) (hc : cl < 32) (hk : k < 8) : ctxCl (mkCtx (8 * cl + k) p) = cl := by
  simp only [ctxCl, mkCtx, BitVec.toNat_ofNat]
  omega

theorem ctxCl_lt (c : CtxId) : ctxCl c < 32 := by
  have := c.core.isLt
  simp only [ctxCl]
  omega

theorem isPrim_iff (s : State) (c : CtxId) : isPrim s c = true ↔ primOf s c.core.toNat = c := by
  unfold isPrim primOf mkCtx
  obtain ⟨core, sec⟩ := c
  simp

theorem ctxConds_empty (s : State) (c : CtxId) (tr : State → Try) (h : getCtx s c = {}) : ctxConds s c tr = [] := by
  unfold ctxConds canStall
  rw [h]
  simp

/-- The conditions of a calm context's cluster are those of its own bundle. -/
theorem Calm.conds {s : State} (h : Calm s) (tr : State → Try) (ht : (tryCond s s.cid (tr s)) = none) : conds s (ctxCl s.cid) s.cid tr = [] := by
  unfold Machine.conds
  rw [h.foreland]
  have hw : landConds s (ctxCl s.cid) = [] := by simp [landConds, h.win]
  rw [hw, List.append_nil, List.flatMap_eq_nil_iff]
  intro k hk
  have hk8 : k < 8 := List.mem_range.mp hk
  by_cases hp : primOf s (8 * ctxCl s.cid + k) = s.cid
  · rw [hp]
    dsimp only
    rw [if_pos rfl]
    unfold ctxConds
    split
    · have h1 : holdCond s s.cid = none := by simp [holdCond, h.hold]
      have h2 : rowConds s s.cid = [] := by simp [rowConds, h.rows, h.rowPort]
      rw [h1, h2, h.xferConds, focus_self, ht]
      rfl
    · rfl
  · apply ctxConds_empty
    apply h.alone _ _ hp
    exact mkCtx_cl _ _ _ (ctxCl_lt _) hk8

theorem Calm.freeSlots {s : State} (h : Calm s) : freeSlots s s.cid = 0xFF := by
  unfold Machine.freeSlots
  simp only [h.other, h.unbraked]
  rfl

/-- The outcome of a try is the end of the issue. -/
def tryEnds : Try → Bool
  | .go _ => true
  | .trap _ => true
  | _ => false

/-- A calm context's bundle of one syllable that goes or traps is issued with every slot open. -/
theorem issueLone_calm {s : State} (h : Calm s) (y : Syl) (ht : tryEnds (tryLone s y 0xFF) = true) :
    issueLone s y = settle s (tryLone s y 0xFF) := by
  have hc : tryCond s s.cid (tryLone s y 0xFF) = none := by
    revert ht
    cases tryLone s y 0xFF <;> simp [tryEnds, tryCond]
  unfold issueLone issueWith
  rw [h.endHold, focus_self]
  simp only [h.clearWait, h.unbraked, Option.isSome_none, Bool.false_eq_true, if_false]
  split
  · rw [h.conds (fun s => tryLone s y 0xFF) hc]
  · rw [h.freeSlots]
    revert ht
    cases hq : tryLone s y 0xFF <;> simp [tryEnds]

/-! ### The commit -/

theorem calm_arrayTaken {s : State} (h : Calm s) (ps : List Pick) : arrayTaken s ps = false := by
  unfold arrayTaken
  rw [h.other]
  simp [readyAt_nil]

theorem calm_arrayFree {s : State} (h : Calm s) (t : State) : arrayFree s t = true := by
  unfold arrayFree
  simp only [h.other]
  simp

/-- What is queued with the rank of an access is not ahead of it. -/
theorem queued_same (ahead : List (Nat × Nat)) (rank : Nat) (banks : List Nat) (h : ∀ a ∈ ahead, a.1 = rank) : queued ahead rank banks = 0 := by
  have hb : ∀ b, ahead.countP (fun a => a.2 == b && decide (a.1 < rank)) = 0 := fun b => List.countP_eq_zero.mpr fun a ha => by simp [h a ha]
  unfold queued
  simp only [hb]
  induction banks with
  | nil => rfl
  | cons _ _ ih => simpa using ih

theorem bankUse_rank (s : State) (iss : Iss) (y : Syl) : ∀ a ∈ bankUse s iss y, a.1 = portRank iss.slot y := by
  intro a ha
  unfold bankUse at ha
  split at ha
  · obtain ⟨b, _, rfl⟩ := List.mem_map.mp ha
    rfl
  · cases ha

/-- Nothing of a calm context takes a bank ahead of its one slot: at most the slot's own delivery. -/
theorem calm_banksAhead {s : State} (h : Calm s) (y : Syl) (v : Ctx) (pc : W32) (len : Nat) :
    ∀ a ∈ banksAhead s v pc len [loneSlot y], a.1 = portRank y.slot.num y := by
  intro a ha
  unfold banksAhead at ha
  rw [h.banks, h.other] at ha
  simp only [rowBanks, h.rows, List.filter_nil, List.flatMap_nil, List.append_nil, List.nil_append, List.map_nil, ite_self] at ha
  obtain ⟨p, hp, hq⟩ := List.mem_flatMap.mp ha
  have : p = loneSlot y := by simpa using (List.mem_filter.mp hp).1
  rw [this] at hq
  exact bankUse_rank _ _ _ a hq

theorem calm_heldUntil {s : State} (h : Calm s) (wall : Nat) : heldUntil s.cx wall = [] := by
  simp [heldUntil, h.order, h.port]

theorem doSwaps_run (x : Ctx) (ps : List Pick) : (doSwaps x ps).run = x.run := rfl
theorem doSwaps_r (x : Ctx) (ps : List Pick) : (doSwaps x ps).r = x.r := rfl

theorem guardOn_pc (r : Regs) (p : W32) (g : BitVec 4) : guardOn { r with pc := p } g = guardOn r g := rfl

theorem loneView_sb (s : State) (y : Syl) : (loneView s y).run.sb = s.cx.run.sb := rfl
theorem loneView_rows (s : State) (y : Syl) : (loneView s y).run.rows = s.cx.run.rows := rfl
theorem loneView_issuedNow (s : State) (y : Syl) : (loneView s y).run.issuedNow = s.cx.run.issuedNow := rfl
theorem loneView_guard (s : State) (y : Syl) (g : BitVec 4) : guardOn (loneView s y).r g = guardOn s.cx.r g := rfl

/-- Only a V form issues more than one row at once. -/
theorem semForm_eq (y : Syl) (iss : Iss) (s : State) (h : ∀ sd o, y = .v sd o → rowsOf iss.v.ctl y = 1) : semForm y iss s = semSyl y iss s := by
  cases y with
  | v sd o => simp [semForm, h sd o rfl]
  | _ => rfl

/-- What one slot does in a calm context: its meaning, or nothing where its guard is false or its code is of the band. -/
theorem runPart_calm {s : State} (h : Calm s) (y : Syl) (ahead : List (Nat × Nat)) (ha : ∀ a ∈ ahead, a.1 = portRank y.slot.num y) :
    runPart ahead (loneIss s y) y (loneStart s y) =
      if isBand y || !(guardOn s.cx.r (guardOf y)) then .ok (loneStart s y)
      else match semForm y (loneIss s y) (loneStart s y) with
        | .ok t => .ok t
        | .error e => .error (e, 0) := by
  have hs : (loneIss s y).v.run.sb = [] := by rw [show (loneIss s y).v = loneView s y from rfl, loneView_sb, h.board]
  have hr : (loneIss s y).v.run.rows = [] := by rw [show (loneIss s y).v = loneView s y from rfl, loneView_rows, h.rows]
  have hn : (loneIss s y).v.run.issuedNow = 0 := by rw [show (loneIss s y).v = loneView s y from rfl, loneView_issuedNow, h.slots]
  have hg : guardOn (loneIss s y).v.r (guardOf y) = guardOn s.cx.r (guardOf y) := loneView_guard s y _
  have hq : ∀ l, queued ahead (portRank (loneIss s y).slot y) l = 0 := fun l => queued_same ahead _ l ha
  unfold runPart
  simp only [hs, hr, hn, hg, hq, readyAt_nil, issueFrom_nil, Nat.not_lt_zero, if_false, List.any_nil, Bool.false_or, false_and]
  have hz : (0 : BitVec 8).getLsbD (7 - (loneIss s y).slot) = false := by simp
  simp only [hz, Bool.false_eq_true, if_false]
  all_goals
    split
    · rfl
    · cases semForm y (loneIss s y) (loneStart s y) <;> rfl

theorem runParts_lone (s : State) (y : Syl) (ahead : List (Nat × Nat)) :
    runParts (loneView s y) s.cx.r.pc (loneBun s.cx y).len [] [loneSlot y] ahead (loneStart s y) =
      match runPart ahead (loneIss s y) y (loneStart s y) with
      | .error e => .error (y.slot.num, e)
      | .ok t => .ok t := by
  simp only [runParts, show issOf (loneView s y) s.cx.r.pc (loneBun s.cx y).len (loneSlot y) = loneIss s y from rfl, show (loneSlot y).syl = y from rfl]
  cases runPart ahead (loneIss s y) y (loneStart s y) <;> rfl

theorem dualCheck_lone (s : State) (v : Ctx) (y : Syl) : dualCheck s v [loneSlot y] = .ok [] := by
  have : dualPairs v [loneSlot y] = [] := by simp [dualPairs]
  simp [dualCheck, this]

theorem lonePick_ok (y : Syl) (hw : wfSyl y = true) : lonePick y = (y.slot.num, .ok (loneSlot y)) := by
  simp [lonePick, loneSlot, hw]

/-- What is served at the scratchpad's banks before the one slot. -/
def loneAhead (s : State) (y : Syl) : List (Nat × Nat) := banksAhead s (loneView s y) s.cx.r.pc (loneBun s.cx y).len [loneSlot y]
theorem calm_loneAhead {s : State} (h : Calm s) (y : Syl) : ∀ a ∈ loneAhead s y, a.1 = portRank y.slot.num y := calm_banksAhead h y _ _ _
/-- The try of a calm context's bundle of one syllable that passes the checks. -/
theorem tryLone_calm {s : State} (h : Calm s) (y : Syl) (hw : wfSyl y = true) (hc : PassesChecks s y) :
    tryLone s y 0xFF =
      match runPart (loneAhead s y) (loneIss s y) y (loneStart s y) with
      | .error (.trap t, _) => trapTry s { t with slot := some (t.slot.getD y.slot.num) }
      | .error (.hold _, _) => holdTry s (loneStart s y) (loneView s y) (loneBun s.cx y) [loneSlot y] (loneAhead s y) []
      | .ok t => .go (loneCommit s y t) := by
  unfold tryLone
  rw [h.mayIssue, h.beforeIssue]
  simp only [Bool.not_true, Bool.false_eq_true, if_false]
  unfold tryPicks
  have hp : okPicks [lonePick y] = [loneSlot y] := by simp [okPicks, lonePick_ok y hw]
  simp only [hp]
  rw [show prepare s.cx (loneBun s.cx y) [loneSlot y] = loneView s y from rfl]
  have hm : usedMask (loneBun s.cx y) [lonePick y] &&& ~~~(0xFF : BitVec 8) = 0 := by
    have : (~~~(0xFF : BitVec 8)) = 0 := by decide
    rw [this]; simp
  rw [hm]
  simp only [ne_eq, not_true_eq_false, if_false]
  rw [headerCheck_lone]
  have hc' := hc
  unfold PassesChecks at hc'
  simp only [hc', dualCheck_lone, calm_arrayTaken h, calm_heldUntil h, Bool.false_eq_true, if_false]
  have hk : (if endsKernel (loneView s y) [loneSlot y] = true then stopDue s s.cid true else none) = none := by
    split
    · exact h.stopDue true
    · rfl
  simp only [hk]
  simp only [List.isEmpty_nil, Bool.not_true, Bool.false_eq_true, if_false]
  rw [show ({ s with cx := loneView s y } : State) = loneStart s y from rfl, runParts_lone s y, ← loneAhead]
  cases hr : runPart (loneAhead s y) (loneIss s y) y (loneStart s y) with
  | error e =>
    obtain ⟨e, n⟩ := e
    cases e <;> simp
  | ok t => simp [calm_arrayFree h, loneCommit]

/-- A calm context's bundle of one syllable commits what its meaning leaves. -/
theorem issueLone_ok {s : State} (h : Calm s) (y : Syl) (hw : wfSyl y = true) (hc : PassesChecks s y) (hb : isBand y = false)
    (hg : guardOn s.cx.r (guardOf y) = true) (t : State) (hs : semForm y (loneIss s y) (loneStart s y) = .ok t) : issueLone s y = loneCommit s y t := by
  have ht : tryLone s y 0xFF = .go (loneCommit s y t) := by
    rw [tryLone_calm h y hw hc, runPart_calm h y _ (calm_loneAhead h y)]
    simp [hb, hg, hs]
  rw [issueLone_calm h y (by rw [ht]; rfl), ht]
  rfl

/-- With a false guard, or a code of the band, nothing but the issue itself takes place. -/
theorem issueLone_off {s : State} (h : Calm s) (y : Syl) (hw : wfSyl y = true) (hc : PassesChecks s y)
    (hg : (isBand y || !(guardOn s.cx.r (guardOf y))) = true) : issueLone s y = loneCommit s y (loneStart s y) := by
  have ht : tryLone s y 0xFF = .go (loneCommit s y (loneStart s y)) := by
    rw [tryLone_calm h y hw hc, runPart_calm h y _ (calm_loneAhead h y)]
    simp [hg]
  rw [issueLone_calm h y (by rw [ht]; rfl), ht]
  rfl

/-- Where the meaning traps, nothing of the bundle is done and the trap is taken (03 R43, 16 R315). -/
theorem issueLone_trap {s : State} (h : Calm s) (y : Syl) (hw : wfSyl y = true) (hc : PassesChecks s y) (hb : isBand y = false)
    (hg : guardOn s.cx.r (guardOf y) = true) (t : Trap) (hs : semForm y (loneIss s y) (loneStart s y) = .error (.trap t)) :
    issueLone s y = settle s (trapTry s { t with slot := some (t.slot.getD y.slot.num) }) := by
  have ht : tryLone s y 0xFF = trapTry s { t with slot := some (t.slot.getD y.slot.num) } := by
    rw [tryLone_calm h y hw hc, runPart_calm h y _ (calm_loneAhead h y)]
    simp [hb, hg, hs]
  rw [issueLone_calm h y (by rw [ht]; rfl), ht]

/-! ### What the commit leaves -/

theorem loneBun_repeat (x : Ctx) (y : Syl) : hdrRepeat (loneBun x y).hdr = 0 := by
  obtain ⟨l, hl, h⟩ := loneBun_hdr x y
  rw [h]
  have := slot_num_lt y
  revert l
  generalize y.slot.num = k at *
  intro l hl _
  have : ∀ k < 8, ∀ l ∈ [0, 4, 1], hdrRepeat (2 ^ (31 - k) + (255 - 2 ^ (7 - k)) * 2 ^ 16 + l) = 0 := by decide
  exact this k ‹_› l hl
theorem loneBun_stall (x : Ctx) (y : Syl) : hdrStall (loneBun x y).hdr = 0 := by
  obtain ⟨l, hl, h⟩ := loneBun_hdr x y
  rw [h]
  have := slot_num_lt y
  revert l
  generalize y.slot.num = k at *
  intro l hl _
  have : ∀ k < 8, ∀ l ∈ [0, 4, 1], hdrStall (2 ^ (31 - k) + (255 - 2 ^ (7 - k)) * 2 ^ 16 + l) = 0 := by decide
  exact this k ‹_› l hl
theorem loneBun_len (x : Ctx) (y : Syl) : (loneBun x y).len = 4 + y.slot.bits / 8 := rfl

theorem doSwaps_lone (x : Ctx) (y : Syl) : doSwaps x [loneSlot y] =
    if swapOf y then { x with ctl := swapForm x.ctl (y.slot.num - 3) (formOf y) } else x := by
  simp only [doSwaps, List.foldl_cons, List.foldl_nil]
  show ({ x with ctl := if swapOf y then _ else _ } : Ctx) = _
  split <;> rfl
theorem doSwaps_rptidx (x : Ctx) (y : Syl) : (doSwaps x [loneSlot y]).ctl.rptidx = x.ctl.rptidx := by
  rw [doSwaps_lone]
  split <;> rfl

/-- What the issue shows the slot: the state before it, the pc at the next bundle. -/
theorem loneView_r {s : State} (h : Calm s) (y : Syl) : (loneView s y).r = { s.cx.r with pc := s.cx.r.pc + .ofNat 32 (4 + y.slot.bits / 8) } := by
  have : s.cx.ctl.rptidx.toNat = hdrRepeat (loneBun s.cx y).hdr := by rw [loneBun_repeat, h.first]; rfl
  simp only [loneView, prepare, doSwaps_r]
  rw [doSwaps_rptidx, if_pos this]
  rfl

theorem loneView_r32 {s : State} (h : Calm s) (y : Syl) (hb : y.slot.bits = 32) : (loneView s y).r = { s.cx.r with pc := s.cx.r.pc + 8 } := by
  rw [loneView_r h, hb]
  have : BitVec.ofNat 32 (4 + 32 / 8) = 8 := by decide
  rw [this]
theorem loneView_r64 {s : State} (h : Calm s) (y : Syl) (hb : y.slot.bits = 64) : (loneView s y).r = { s.cx.r with pc := s.cx.r.pc + 12 } := by
  rw [loneView_r h, hb]
  have : BitVec.ofNat 32 (4 + 64 / 8) = 12 := by decide
  rw [this]

theorem countBoundary_eq (x : Ctx) : ∃ w, countBoundary x = { x with run := { x.run with watchStop := w } } := by
  unfold countBoundary
  split
  · exact ⟨_, rfl⟩
  · exact ⟨x.run.watchStop, rfl⟩

/-- No generator is drawn from beside a `mov` of a bundle of one syllable. -/
theorem movLast_lone (v : Ctx) (pc : W32) (len : Nat) (y : Syl) (s : State) : movLast v pc len [loneSlot y] s = s := by
  unfold movLast
  simp only [List.foldl_cons, List.foldl_nil]
  split
  · rename_i o ho
    have hn : (loneSlot y).slot = 0 := by
      have e : y = .s (.movToSys o) := ho
      rw [e]
      rfl
    simp [hn]
  · rfl

/-- A commit with no companion to follow leaves the slot's effect, with the run control of the issue. -/
theorem loneCommit_eq {s : State} (y : Syl) (t : State) (hrow : s.cx.run.rows = []) (ho : t = { s with cx := t.cx }) (hp : t.cx.run.post = none)
    (hh : t.cx.run.hold = none) :
    ∃ run : Run, loneCommit s y t =
      { t with cx := { t.cx with ctl := { t.cx.ctl with rptidx := 0 }, prog := { t.cx.prog with starve := 0 }, run := run } } ∧
      run.hold = none ∧ run.post = none ∧ run.parkedOn = t.cx.run.parkedOn ∧
      run.state = if t.cx.run.state = .monitor then .monitor else if t.cx.run.state = .parked then .parked else .run := by
  have hz : ¬ (s.cx.ctl.rptidx.toNat < hdrRepeat (loneBun s.cx y).hdr) := by rw [loneBun_repeat]; omega
  have hd : ∀ u, dualRecords s u [loneSlot y] [] = u := by intro u; unfold dualRecords; cases primKernel s s.cid <;> rfl
  have hm : ∀ u : State, remaskRows s (loneView s y) [loneSlot y] u = u := by intro u; unfold remaskRows; rw [hrow]; split <;> rfl
  unfold loneCommit commit
  dsimp only
  rw [movLast_lone, hm, hd]
  simp only [hz, if_false]
  generalize hx : Ctx.mk _ _ _ _ _ _ _ _ _ _ = x
  obtain ⟨w, hw⟩ := countBoundary_eq x
  rw [hw]
  have hc : t.cid = s.cid := by rw [ho]
  unfold afterIssue
  have hg : ∀ x', getCtx { t with cx := x' } s.cid = x' := by
    intro x'
    have : s.cid = t.cid := hc.symm
    simp [getCtx, this]
  rw [hg]
  subst hx
  simp only [hp, hh, reduceCtorEq, false_and, if_false]
  refine ⟨_, rfl, rfl, rfl, rfl, ?_⟩
  simp

/-- The state after a calm issue whose slot leaves its context running. -/
theorem leaves_lone {s : State} (h : Calm s) (y : Syl) (t : State) (ho : t = { s with cx := t.cx }) (hp : t.cx.run.post = none)
    (hh : t.cx.run.hold = none) (hk : t.cx.run.parkedOn = none) (hs : t.cx.run.state = s.cx.run.state) (hr : t.cx.ctl.rptidx = 0) :
    Leaves s (loneCommit s y t) t.cx := by
  obtain ⟨run, e, h1, _, h3, h4⟩ := loneCommit_eq y t h.rows ho hp hh
  have hm := h.mode
  rw [e]
  refine ⟨?_, rfl, rfl, rfl, rfl, rfl, rfl, rfl, ?_, rfl, ?_, h1, h3.trans hk⟩
  · rw [ho]
  · dsimp only
    rw [← hr]
  · rw [h4, hs, hm]
    cases s.cx.mon.active <;> simp

/-- What a calm issue starts from. -/
theorem loneView_run {s : State} (y : Syl) : (loneView s y).run.post = s.cx.run.post ∧ (loneView s y).run.hold = s.cx.run.hold ∧
    (loneView s y).run.parkedOn = s.cx.run.parkedOn ∧ (loneView s y).run.state = s.cx.run.state := ⟨rfl, rfl, rfl, rfl⟩
theorem loneView_ctl {s : State} (y : Syl) (hs : swapOf y = false) : (loneView s y).ctl = { s.cx.ctl with sticky := newSticky s.cx.ctl.sticky [loneSlot y] } := by
  show { (doSwaps s.cx [loneSlot y]).ctl with sticky := newSticky (doSwaps s.cx [loneSlot y]).ctl.sticky [loneSlot y] } = _
  have : (doSwaps s.cx [loneSlot y]).ctl = s.cx.ctl := by simp [doSwaps, loneSlot, hs]
  rw [this]

/-! ### The checks of a bundle of one syllable -/

theorem cycleReads_scalar {s : State} (h : Calm s) (x : Ctx) (y : Syl) (hx : x.run = s.cx.run) (h3 : y.slot.num ≠ 3) (h4 : y.slot.num ≠ 4) (h5 : y.slot.num ≠ 5) :
    ∀ i, cycleReads s x [loneSlot y] i = [] := by
  intro i
  have e : (loneSlot y).slot = y.slot.num := rfl
  simp [cycleReads, hx, h.rows, h.board, readyAt_nil, e, h3, h4, h5]

/-- A list of checks that all pass. -/
theorem forM_ok {α ε : Type} (l : List α) (f : α → Except ε Unit) (h : ∀ a ∈ l, f a = .ok ()) : l.forM f = .ok () := by
  induction l with
  | nil => rfl
  | cons a t ih =>
    show (f a >>= fun _ => List.forM t f) = _
    rw [h a (by simp)]
    exact ih fun b hb => h b (by simp [hb])

theorem resolved_lone (y : Syl) (hw : wfSyl y = true) (k : Nat) : resolved [lonePick y] k = if y.slot.num = k then some (.ok (loneSlot y)) else none := by
  rw [lonePick_ok y hw]
  unfold resolved
  by_cases hk : y.slot.num = k <;> simp [hk]

/-- A syllable of a slot without read ports passes the checks exactly when its fields and its form are legal. -/
theorem passesChecks_scalar {s : State} (h : Calm s) (y : Syl) (hw : wfSyl y = true) (h3 : y.slot.num ≠ 3) (h4 : y.slot.num ≠ 4) (h5 : y.slot.num ≠ 5)
    (hl : ∀ x, lentRead x y = none) (hb : badField y 0 = false) (hf : formLegal (loneView s y).ctl y false = true) : PassesChecks s y := by
  unfold PassesChecks
  have hn : (List.range 16).map (cycleReads s (doSwaps s.cx [loneSlot y]) [loneSlot y]) = List.replicate 16 [] := by
    rw [funext (cycleReads_scalar h (doSwaps s.cx [loneSlot y]) y rfl h3 h4 h5)]
    rfl
  have he : ∀ k, (List.replicate 16 ([] : List (Nat × Side × Nat))).any (fun r => bankBreach r k) = false := fun k => rfl
  rw [hn]
  have hr : hdrRepeat (loneBun s.cx y).hdr = 0 := loneBun_repeat _ _
  have hd : (((loneSlot y).record.map (·.disp)).getD 0 : W64) = 0 := by
    unfold loneSlot
    by_cases hk : y.slot.num = 1 <;> simp [hk]
  have hk : ∀ k, slotCheck (loneView s y) (loneBun s.cx y) (List.replicate 16 []) [lonePick y] k = .ok () := by
    intro k
    unfold slotCheck
    rw [resolved_lone y hw]
    have hy : (loneSlot y).syl = y := rfl
    by_cases hk : y.slot.num = k
    · simp only [hk, if_true, hd, hy, hb, hf, hl, hr, need, he, Bool.and_false, Bool.not_false, decide_false, Nat.lt_irrefl]
      rfl
    · simp only [hk, if_false, need, he, Bool.and_false, Bool.not_false, if_true]
      rfl
  exact forM_ok _ _ fun k _ => hk k

/-! ### The issue as a whole -/

/-- The issue of a syllable whose meaning answers a state that leaves the context running. -/
theorem issue_leaves {s : State} (h : Calm s) (y : Syl) (hw : wfSyl y = true) (hc : PassesChecks s y) (hb : isBand y = false)
    (hg : guardOn s.cx.r (guardOf y) = true) (t : State) (hs : semForm y (loneIss s y) (loneStart s y) = .ok t) (ho : t = { s with cx := t.cx })
    (hr : t.cx.run.post = (loneView s y).run.post ∧ t.cx.run.hold = (loneView s y).run.hold ∧ t.cx.run.parkedOn = (loneView s y).run.parkedOn ∧
      t.cx.run.state = (loneView s y).run.state) (hi : t.cx.ctl.rptidx = (loneView s y).ctl.rptidx) : Leaves s (issueLone s y) t.cx := by
  rw [issueLone_ok h y hw hc hb hg t hs]
  obtain ⟨h1, h2, h3, h4⟩ := hr
  exact leaves_lone h y t ho (h1.trans h.post) (h2.trans h.hold) (h3.trans h.parked) h4 (hi.trans ((doSwaps_rptidx _ _).trans h.first))

/-- Two contexts that differ only in what every issue moves leave the same. -/
theorem Leaves.congr {s t : State} {x x' : Ctx} (h : Leaves s t x) (h1 : x.r = x'.r) (h2 : x.va = x'.va) (h3 : x.vb = x'.vb) (h4 : x.m = x'.m)
    (h5 : x.sys = x'.sys) (h6 : x.mon = x'.mon) (h7 : x.con = x'.con) (h8 : { x.ctl with sticky := x'.ctl.sticky } = x'.ctl)
    (h9 : { x.prog with starve := x'.prog.starve, recency := x'.prog.recency } = x'.prog) : Leaves s t x' := by
  refine ⟨h.outside, h.r.trans h1, h.va.trans h2, h.vb.trans h3, h.m.trans h4, h.sys.trans h5, h.mon.trans h6, h.con.trans h7, ?_, ?_, h.state, h.hold, h.parked⟩
  · rw [h.ctl, ← h8]
  · rw [h.prog, ← h9]

/-- What leaves the memories of the context as they were leaves every byte as it was. -/
theorem Leaves.sameMemory {s t : State} {x : Ctx} (h : Leaves s t x) (hx : x.prog.scratch = s.cx.prog.scratch) : SameMemory s t := by
  have e := h.outside
  refine ⟨fun a => ?_, fun d a => ?_, fun a => ?_⟩
  · rw [e]
  · rw [e]; rfl
  · rw [h.prog]
    show cellGet x.prog.scratch a = _
    rw [hx]

theorem sSet_pc (r : Regs) (n : Nat) (x : W64) (p : W32) : sSet { r with pc := p } n x = { sSet r n x with pc := p } := by
  unfold sSet
  split <;> rfl
theorem gSet_pc (r : Regs) (n : Nat) (x : Bool) (p : W32) : gSet { r with pc := p } n x = { gSet r n x with pc := p } := by
  unfold gSet
  split <;> rfl

/-- Every instruction of a slot is the issue of a bundle that holds its syllable. -/
theorem exec_instrOf (y : Syl) (s : State) : exec (instrOf y) s = .next (issueLone s y) := by
  cases y with
  | s y => cases y <;> rfl
  | l y => cases y <;> rfl
  | k y => cases y <;> rfl
  | v sd y => cases y <;> rfl
  | m y => cases y <;> rfl
  | c sd y => cases y <;> rfl
  | band n w => rfl

/-- An instruction of the S slot that writes one s register. -/
theorem exec_wrS {s : State} (h : Calm s) (y : SSyl) (hw : wfSyl (.s y) = true) (hf : ∀ c, formLegal c (.s y) false = true)
    (hg : guardOn s.cx.r (guardOf (.s y)) = true) (n : BitVec 6) (v : W64)
    (hs : semS y (loneIss s (.s y)) (loneStart s (.s y)) = .ok (wrS (loneStart s (.s y)) n v)) :
    Leaves s (issueLone s (.s y)) { s.cx with r := { sSet s.cx.r n.toNat v with pc := s.cx.r.pc + 8 } } ∧ SameMemory s (issueLone s (.s y)) := by
  have hc : PassesChecks s (.s y) := passesChecks_scalar h _ hw (by simp [Syl.slot, Slot.num]) (by simp [Syl.slot, Slot.num]) (by simp [Syl.slot, Slot.num])
    (fun _ => rfl) rfl (hf _)
  have hl := issue_leaves h _ hw hc rfl hg _ hs rfl ⟨rfl, rfl, rfl, rfl⟩ rfl
  refine ⟨hl.congr ?_ rfl rfl rfl rfl rfl rfl ?_ rfl, hl.sameMemory rfl⟩
  · show sSet (loneView s (.s y)).r n.toNat v = _
    rw [loneView_r32 h _ rfl, sSet_pc]
  · show { (loneView s (.s y)).ctl with sticky := s.cx.ctl.sticky } = s.cx.ctl
    rw [loneView_ctl _ rfl]
/-- An instruction of the S slot that writes one guard. -/
theorem exec_wrG {s : State} (h : Calm s) (y : SSyl) (hw : wfSyl (.s y) = true) (hf : ∀ c, formLegal c (.s y) false = true)
    (hg : guardOn s.cx.r (guardOf (.s y)) = true) (n : BitVec 6) (v : Bool)
    (hs : semS y (loneIss s (.s y)) (loneStart s (.s y)) = .ok (wrG (loneStart s (.s y)) n v)) :
    Leaves s (issueLone s (.s y)) { s.cx with r := { gSet s.cx.r n.toNat v with pc := s.cx.r.pc + 8 } } ∧ SameMemory s (issueLone s (.s y)) := by
  have hc : PassesChecks s (.s y) := passesChecks_scalar h _ hw (by simp [Syl.slot, Slot.num]) (by simp [Syl.slot, Slot.num]) (by simp [Syl.slot, Slot.num])
    (fun _ => rfl) rfl (hf _)
  have hl := issue_leaves h _ hw hc rfl hg _ hs rfl ⟨rfl, rfl, rfl, rfl⟩ rfl
  refine ⟨hl.congr ?_ rfl rfl rfl rfl rfl rfl ?_ rfl, hl.sameMemory rfl⟩
  · show gSet (loneView s (.s y)).r n.toNat v = _
    rw [loneView_r32 h _ rfl, gSet_pc]
  · show { (loneView s (.s y)).ctl with sticky := s.cx.ctl.sticky } = s.cx.ctl
    rw [loneView_ctl _ rfl]

end Sys2Proof.Machine
end

