-- ==== Sys2Proof/Laws/PerInstr.lean ====
section
/-! SUPPORT. Per instruction: the word of every well-formed syllable fits its slot (03 R31). -/

namespace Sys2Proof.Laws.Encoding

/-- The word of the instruction's syllable fits the width of its slot; a step of the part has no word. -/
def Statement (i : Instr) : Prop := ∀ y, sylOf i = some y → wfSyl y = true → encodeSyl y < 2 ^ y.slot.bits

/-- An opcode of 8 bits above a field word that fits below it. -/
theorem opAt_lt (op sh f : Nat) (ho : op < 256) (hf : f < 2 ^ sh) : opAt op sh f < 2 ^ (sh + 8) := by
  unfold opAt
  rw [Nat.pow_add]
  have : (op + 1) * 2 ^ sh ≤ 2 ^ 8 * 2 ^ sh := Nat.mul_le_mul_right _ (by omega)
  rw [Nat.add_mul] at this
  omega
theorem of_s {i : Instr} {y : SSyl} (h : sylOf i = some (.s y)) (hb : encodeS y < 2 ^ 32) : Statement i := by
  intro z hz _
  rw [h] at hz
  cases hz
  exact hb
theorem of_l {i : Instr} {y : LSyl} (h : sylOf i = some (.l y)) (hb : encodeL y < 2 ^ 32) : Statement i := by
  intro z hz _
  rw [h] at hz
  cases hz
  exact hb
theorem of_k {i : Instr} {y : KSyl} (h : sylOf i = some (.k y)) (hb : encodeK y < 2 ^ 32) : Statement i := by
  intro z hz _
  rw [h] at hz
  cases hz
  exact hb
theorem of_v {i : Instr} {sd : Side} {y : VSyl} (h : sylOf i = some (.v sd y)) (hb : encodeV y < 2 ^ 64) : Statement i := by
  intro z hz _
  rw [h] at hz
  cases hz
  cases sd <;> exact hb
theorem of_m {i : Instr} {y : MSyl} (h : sylOf i = some (.m y)) (hb : encodeM y < 2 ^ 64) : Statement i := by
  intro z hz _
  rw [h] at hz
  cases hz
  exact hb
theorem of_c {i : Instr} {sd : Side} {y : CSyl} (h : sylOf i = some (.c sd y)) (hb : encodeC y < 2 ^ 32) : Statement i := by
  intro z hz _
  rw [h] at hz
  cases hz
  cases sd <;> exact hb
theorem of_none {i : Instr} (h : sylOf i = none) : Statement i := by
  intro z hz
  rw [h] at hz
  cases hz

theorem bundleIssue (k : IssueIn) : Statement (.bundleIssue k) := of_none rfl
theorem brakeRelease (cl : ClId) : Statement (.brakeRelease cl) := of_none rfl
theorem boundaryAdmit (cl : ClId) : Statement (.boundaryAdmit cl) := of_none rfl
theorem brakeTimeout (cl : ClId) : Statement (.brakeTimeout cl) := of_none rfl
theorem formRowIssue (c : CtxId) (slot : BitVec 3) : Statement (.formRowIssue c slot) := of_none rfl
theorem resultLand (c : CtxId) : Statement (.resultLand c) := of_none rfl
theorem forwardCompatNop (slot : BitVec 3) (w : BitVec 64) : Statement (.forwardCompatNop slot w) := by
  intro z hz hw
  cases hz
  simp only [wfSyl, bandWord] at hw
  simp only [encodeSyl, Syl.slot]
  have := slot.isLt
  have := w.isLt
  rcases (by omega : slot.toNat = 0 ∨ slot.toNat = 1 ∨ slot.toNat = 2 ∨ slot.toNat = 3 ∨ slot.toNat = 4 ∨ slot.toNat = 5 ∨ slot.toNat = 6 ∨ slot.toNat = 7) with
    h | h | h | h | h | h | h | h <;> rw [h] at hw ⊢ <;> simp [Slot.all, Slot.bits, Slot.wide] at hw ⊢ <;> omega
theorem add (o : SR) : Statement (.add o) := of_s rfl (opAt_lt 0x00 24 _ (by decide) (encSR_lt o))
theorem sub (o : SR) : Statement (.sub o) := of_s rfl (opAt_lt 0x01 24 _ (by decide) (encSR_lt o))
theorem mul (o : SR) : Statement (.mul o) := of_s rfl (opAt_lt 0x02 24 _ (by decide) (encSR_lt o))
theorem mulh (o : SR) : Statement (.mulh o) := of_s rfl (opAt_lt 0x03 24 _ (by decide) (encSR_lt o))
theorem mulhu (o : SR) : Statement (.mulhu o) := of_s rfl (opAt_lt 0x04 24 _ (by decide) (encSR_lt o))
theorem and (o : SR) : Statement (.and o) := of_s rfl (opAt_lt 0x05 24 _ (by decide) (encSR_lt o))
theorem or (o : SR) : Statement (.or o) := of_s rfl (opAt_lt 0x06 24 _ (by decide) (encSR_lt o))
theorem xor (o : SR) : Statement (.xor o) := of_s rfl (opAt_lt 0x07 24 _ (by decide) (encSR_lt o))
theorem andn (o : SR) : Statement (.andn o) := of_s rfl (opAt_lt 0x08 24 _ (by decide) (encSR_lt o))
theorem shl (o : SR) : Statement (.shl o) := of_s rfl (opAt_lt 0x09 24 _ (by decide) (encSR_lt o))
theorem shr (o : SR) : Statement (.shr o) := of_s rfl (opAt_lt 0x0A 24 _ (by decide) (encSR_lt o))
theorem sra (o : SR) : Statement (.sra o) := of_s rfl (opAt_lt 0x0B 24 _ (by decide) (encSR_lt o))
theorem rotl (o : SR) : Statement (.rotl o) := of_s rfl (opAt_lt 0x0C 24 _ (by decide) (encSR_lt o))
theorem min (o : SR) : Statement (.min o) := of_s rfl (opAt_lt 0x0D 24 _ (by decide) (encSR_lt o))
theorem max (o : SR) : Statement (.max o) := of_s rfl (opAt_lt 0x0E 24 _ (by decide) (encSR_lt o))
theorem minu (o : SR) : Statement (.minu o) := of_s rfl (opAt_lt 0x0F 24 _ (by decide) (encSR_lt o))
theorem maxu (o : SR) : Statement (.maxu o) := of_s rfl (opAt_lt 0x10 24 _ (by decide) (encSR_lt o))
theorem popc (o : SU) : Statement (.popc o) := of_s rfl (opAt_lt 0x11 24 _ (by decide) (encSU_lt o))
theorem clz (o : SU) : Statement (.clz o) := of_s rfl (opAt_lt 0x12 24 _ (by decide) (encSU_lt o))
theorem ctz (o : SU) : Statement (.ctz o) := of_s rfl (opAt_lt 0x13 24 _ (by decide) (encSU_lt o))
theorem bext (o : SR) : Statement (.bext o) := of_s rfl (opAt_lt 0x14 24 _ (by decide) (encSR_lt o))
theorem bins (o : SR) : Statement (.bins o) := of_s rfl (opAt_lt 0x15 24 _ (by decide) (encSR_lt o))
theorem cmpeq (o : SR) : Statement (.cmpeq o) := of_s rfl (opAt_lt 0x16 24 _ (by decide) (encSR_lt o))
theorem cmpne (o : SR) : Statement (.cmpne o) := of_s rfl (opAt_lt 0x17 24 _ (by decide) (encSR_lt o))
theorem cmplt (o : SR) : Statement (.cmplt o) := of_s rfl (opAt_lt 0x18 24 _ (by decide) (encSR_lt o))
theorem cmpltu (o : SR) : Statement (.cmpltu o) := of_s rfl (opAt_lt 0x19 24 _ (by decide) (encSR_lt o))
theorem cmple (o : SR) : Statement (.cmple o) := of_s rfl (opAt_lt 0x1A 24 _ (by decide) (encSR_lt o))
theorem cmpleu (o : SR) : Statement (.cmpleu o) := of_s rfl (opAt_lt 0x1B 24 _ (by decide) (encSR_lt o))
theorem gand (o : SR) : Statement (.gand o) := of_s rfl (opAt_lt 0x1C 24 _ (by decide) (encSR_lt o))
theorem gor (o : SR) : Statement (.gor o) := of_s rfl (opAt_lt 0x1D 24 _ (by decide) (encSR_lt o))
theorem gxor (o : SR) : Statement (.gxor o) := of_s rfl (opAt_lt 0x1E 24 _ (by decide) (encSR_lt o))
theorem gnot (o : SU) : Statement (.gnot o) := of_s rfl (opAt_lt 0x1F 24 _ (by decide) (encSU_lt o))
theorem addSi (o : SI) : Statement (.addSi o) := of_s rfl (opAt_lt 0x20 24 _ (by decide) (encSI_lt o))
theorem andSi (o : SI) : Statement (.andSi o) := of_s rfl (opAt_lt 0x21 24 _ (by decide) (encSI_lt o))
theorem orSi (o : SI) : Statement (.orSi o) := of_s rfl (opAt_lt 0x22 24 _ (by decide) (encSI_lt o))
theorem xorSi (o : SI) : Statement (.xorSi o) := of_s rfl (opAt_lt 0x23 24 _ (by decide) (encSI_lt o))
theorem shlSi (o : SI) : Statement (.shlSi o) := of_s rfl (opAt_lt 0x24 24 _ (by decide) (encSI_lt o))
theorem shrSi (o : SI) : Statement (.shrSi o) := of_s rfl (opAt_lt 0x25 24 _ (by decide) (encSI_lt o))
theorem sraSi (o : SI) : Statement (.sraSi o) := of_s rfl (opAt_lt 0x26 24 _ (by decide) (encSI_lt o))
theorem cmpeqSi (o : SI) : Statement (.cmpeqSi o) := of_s rfl (opAt_lt 0x27 24 _ (by decide) (encSI_lt o))
theorem cmpltSi (o : SI) : Statement (.cmpltSi o) := of_s rfl (opAt_lt 0x28 24 _ (by decide) (encSI_lt o))
theorem cmpltuSi (o : SI) : Statement (.cmpltuSi o) := of_s rfl (opAt_lt 0x29 24 _ (by decide) (encSI_lt o))
theorem movi (o : SJ) : Statement (.movi o) := of_s rfl (opAt_lt 0x2A 24 _ (by decide) (encSJ_lt o))
theorem movkH1 (o : SJ) : Statement (.movkH1 o) := of_s rfl (opAt_lt 0x2B 24 _ (by decide) (encSJ_lt o))
theorem movkH2 (o : SJ) : Statement (.movkH2 o) := of_s rfl (opAt_lt 0x2C 24 _ (by decide) (encSJ_lt o))
theorem movkH3 (o : SJ) : Statement (.movkH3 o) := of_s rfl (opAt_lt 0x2D 24 _ (by decide) (encSJ_lt o))
theorem movkH4 (o : SK) : Statement (.movkH4 o) := of_s rfl (opAt_lt 0x2E 24 _ (by decide) (encSK_lt o))
theorem addSj (o : SJ) : Statement (.addSj o) := of_s rfl (opAt_lt 0x2F 24 _ (by decide) (encSJ_lt o))
theorem andSj (o : SJ) : Statement (.andSj o) := of_s rfl (opAt_lt 0x30 24 _ (by decide) (encSJ_lt o))
theorem orSj (o : SJ) : Statement (.orSj o) := of_s rfl (opAt_lt 0x31 24 _ (by decide) (encSJ_lt o))
theorem xorSj (o : SJ) : Statement (.xorSj o) := of_s rfl (opAt_lt 0x32 24 _ (by decide) (encSJ_lt o))
theorem sld8 (o : SM) : Statement (.sld8 o) := of_s rfl (opAt_lt 0x33 24 _ (by decide) (encSM_lt o))
theorem sld16 (o : SM) : Statement (.sld16 o) := of_s rfl (opAt_lt 0x34 24 _ (by decide) (encSM_lt o))
theorem sld32 (o : SM) : Statement (.sld32 o) := of_s rfl (opAt_lt 0x35 24 _ (by decide) (encSM_lt o))
theorem sld64 (o : SM) : Statement (.sld64 o) := of_s rfl (opAt_lt 0x36 24 _ (by decide) (encSM_lt o))
theorem sldz8 (o : SM) : Statement (.sldz8 o) := of_s rfl (opAt_lt 0x37 24 _ (by decide) (encSM_lt o))
theorem sldz16 (o : SM) : Statement (.sldz16 o) := of_s rfl (opAt_lt 0x38 24 _ (by decide) (encSM_lt o))
theorem sldz32 (o : SM) : Statement (.sldz32 o) := of_s rfl (opAt_lt 0x39 24 _ (by decide) (encSM_lt o))
theorem sst8 (o : SM) : Statement (.sst8 o) := of_s rfl (opAt_lt 0x3A 24 _ (by decide) (encSM_lt o))
theorem sst16 (o : SM) : Statement (.sst16 o) := of_s rfl (opAt_lt 0x3B 24 _ (by decide) (encSM_lt o))
theorem sst32 (o : SM) : Statement (.sst32 o) := of_s rfl (opAt_lt 0x3C 24 _ (by decide) (encSM_lt o))
theorem sst64 (o : SM) : Statement (.sst64 o) := of_s rfl (opAt_lt 0x3D 24 _ (by decide) (encSM_lt o))
theorem lop3 (o : Lop) : Statement (.lop3 o) := of_s rfl (by
  have := encLop_lt o
  simp only [encodeS, opAt]
  omega)
theorem fset (o : SF) : Statement (.fset o) := of_s rfl (opAt_lt 0x44 24 _ (by decide) (encSF_lt o))
theorem fsetReg (o : SFR) : Statement (.fsetReg o) := of_s rfl (opAt_lt 0x45 24 _ (by decide) (encSFR_lt o))
theorem vrot (o : SV) : Statement (.vrot o) := of_s rfl (opAt_lt 0x46 24 _ (by decide) (encSV_lt o))
theorem cpyFromS (o : SX) : Statement (.cpyFromS o) := of_s rfl (opAt_lt 0x47 24 _ (by decide) (encSX_lt o))
theorem cpyToS (o : SX) : Statement (.cpyToS o) := of_s rfl (opAt_lt 0x48 24 _ (by decide) (encSX_lt o))
theorem wdone (o : SW) : Statement (.wdone o) := of_s rfl (opAt_lt 0x49 24 _ (by decide) (encSW_lt o))
theorem movFromSys (o : SY) : Statement (.movFromSys o) := of_s rfl (opAt_lt 0x4A 24 _ (by decide) (encSY_lt o))
theorem movToSys (o : SY) : Statement (.movToSys o) := of_s rfl (opAt_lt 0x4B 24 _ (by decide) (encSY_lt o))
theorem trap (o : SC) : Statement (.trap o) := of_s rfl (opAt_lt 0x50 24 _ (by decide) (encSC_lt o))
theorem esc (o : SS) : Statement (.esc o) := of_s rfl (opAt_lt 0x51 24 _ (by decide) (encSS_lt o))
theorem mret (o : SG) : Statement (.mret o) := of_s rfl (opAt_lt 0x52 24 _ (by decide) (encSG_lt o))
theorem yield (o : SG) : Statement (.yield o) := of_s rfl (opAt_lt 0x53 24 _ (by decide) (encSG_lt o))
theorem pmq (o : SY) : Statement (.pmq o) := of_s rfl (opAt_lt 0x54 24 _ (by decide) (encSY_lt o))
theorem pmpull (o : SC) : Statement (.pmpull o) := of_s rfl (opAt_lt 0x55 24 _ (by decide) (encSC_lt o))
theorem ctxsave (o : SS) : Statement (.ctxsave o) := of_s rfl (opAt_lt 0x56 24 _ (by decide) (encSS_lt o))
theorem ctxrest (o : SS) : Statement (.ctxrest o) := of_s rfl (opAt_lt 0x57 24 _ (by decide) (encSS_lt o))
theorem ctxsw (o : SG) : Statement (.ctxsw o) := of_s rfl (opAt_lt 0x58 24 _ (by decide) (encSG_lt o))
theorem dstop (o : SC) : Statement (.dstop o) := of_s rfl (opAt_lt 0x59 24 _ (by decide) (encSC_lt o))
theorem wpset (o : SN) : Statement (.wpset o) := of_s rfl (opAt_lt 0x5A 24 _ (by decide) (encSN_lt o))
theorem wpclr (o : SN) : Statement (.wpclr o) := of_s rfl (opAt_lt 0x5B 24 _ (by decide) (encSN_lt o))
theorem rdtick (o : SS) : Statement (.rdtick o) := of_s rfl (opAt_lt 0x5C 24 _ (by decide) (encSS_lt o))
theorem rdcyc (o : SS) : Statement (.rdcyc o) := of_s rfl (opAt_lt 0x5D 24 _ (by decide) (encSS_lt o))
theorem br (o : LB) : Statement (.br o) := of_l rfl (opAt_lt 0x00 24 _ (by decide) (encLB_lt o))
theorem call (o : LB) : Statement (.call o) := of_l rfl (opAt_lt 0x01 24 _ (by decide) (encLB_lt o))
theorem ret (o : SG) : Statement (.ret o) := of_l rfl (opAt_lt 0x02 24 _ (by decide) (encSG_lt o))
theorem loop (o : LP) : Statement (.loop o) := of_l rfl (opAt_lt 0x03 24 _ (by decide) (encLP_lt o))
theorem loopImm (o : LI) : Statement (.loopImm o) := of_l rfl (opAt_lt 0x04 24 _ (by decide) (encLI_lt o))
theorem lend (o : LE) : Statement (.lend o) := of_l rfl (opAt_lt 0x05 24 _ (by decide) (encLE_lt o))
theorem lexit (o : LE) : Statement (.lexit o) := of_l rfl (opAt_lt 0x06 24 _ (by decide) (encLE_lt o))
theorem bstep (o : LS) : Statement (.bstep o) := of_l rfl (opAt_lt 0x07 24 _ (by decide) (encLS_lt o))
theorem bset (o : LS) : Statement (.bset o) := of_l rfl (opAt_lt 0x08 24 _ (by decide) (encLS_lt o))
theorem dict (o : LD) : Statement (.dict o) := of_l rfl (opAt_lt 0x09 24 _ (by decide) (encLD_lt o))
theorem ifence (o : SG) : Statement (.ifence o) := of_l rfl (opAt_lt 0x0A 24 _ (by decide) (encSG_lt o))
theorem kend (o : SG) : Statement (.kend o) := of_l rfl (opAt_lt 0x0B 24 _ (by decide) (encSG_lt o))
theorem qset (o : LQ) : Statement (.qset o) := of_l rfl (opAt_lt 0x0C 24 _ (by decide) (encLQ_lt o))
theorem kld (o : KL) : Statement (.kld o) := of_k rfl (opAt_lt 0x00 24 _ (by decide) (encKL_lt o))
theorem kldp (o : KL) : Statement (.kldp o) := of_k rfl (opAt_lt 0x01 24 _ (by decide) (encKL_lt o))
theorem kfill (o : KF) : Statement (.kfill o) := of_k rfl (opAt_lt 0x02 24 _ (by decide) (encKF_lt o))
theorem kcpy (o : KC) : Statement (.kcpy o) := of_k rfl (opAt_lt 0x03 24 _ (by decide) (encKC_lt o))
theorem vaddF32 (sd : Side) (o : VR) : Statement (.vaddF32 sd o) := of_v rfl (opAt_lt 0x00 56 _ (by decide) (encVR_lt o))
theorem vsubF32 (sd : Side) (o : VR) : Statement (.vsubF32 sd o) := of_v rfl (opAt_lt 0x01 56 _ (by decide) (encVR_lt o))
theorem vmulF32 (sd : Side) (o : VR) : Statement (.vmulF32 sd o) := of_v rfl (opAt_lt 0x02 56 _ (by decide) (encVR_lt o))
theorem vfmaF32 (sd : Side) (o : V3) : Statement (.vfmaF32 sd o) := of_v rfl (opAt_lt 0x03 56 _ (by decide) (encV3_lt o))
theorem vfmsF32 (sd : Side) (o : V3) : Statement (.vfmsF32 sd o) := of_v rfl (opAt_lt 0x04 56 _ (by decide) (encV3_lt o))
theorem vfnmaF32 (sd : Side) (o : V3) : Statement (.vfnmaF32 sd o) := of_v rfl (opAt_lt 0x05 56 _ (by decide) (encV3_lt o))
theorem vminF32 (sd : Side) (o : VR) : Statement (.vminF32 sd o) := of_v rfl (opAt_lt 0x06 56 _ (by decide) (encVR_lt o))
theorem vmaxF32 (sd : Side) (o : VR) : Statement (.vmaxF32 sd o) := of_v rfl (opAt_lt 0x07 56 _ (by decide) (encVR_lt o))
theorem vabsF32 (sd : Side) (o : VR) : Statement (.vabsF32 sd o) := of_v rfl (opAt_lt 0x08 56 _ (by decide) (encVR_lt o))
theorem vnegF32 (sd : Side) (o : VR) : Statement (.vnegF32 sd o) := of_v rfl (opAt_lt 0x09 56 _ (by decide) (encVR_lt o))
theorem vcmpeqF32 (sd : Side) (o : VR) : Statement (.vcmpeqF32 sd o) := of_v rfl (opAt_lt 0x0A 56 _ (by decide) (encVR_lt o))
theorem vcmpltF32 (sd : Side) (o : VR) : Statement (.vcmpltF32 sd o) := of_v rfl (opAt_lt 0x0B 56 _ (by decide) (encVR_lt o))
theorem vcmpleF32 (sd : Side) (o : VR) : Statement (.vcmpleF32 sd o) := of_v rfl (opAt_lt 0x0C 56 _ (by decide) (encVR_lt o))
theorem vcmpunF32 (sd : Side) (o : VR) : Statement (.vcmpunF32 sd o) := of_v rfl (opAt_lt 0x0D 56 _ (by decide) (encVR_lt o))
theorem vsel (sd : Side) (o : V3) : Statement (.vsel sd o) := of_v rfl (opAt_lt 0x0E 56 _ (by decide) (encV3_lt o))
theorem vclassF32 (sd : Side) (o : VR) : Statement (.vclassF32 sd o) := of_v rfl (opAt_lt 0x0F 56 _ (by decide) (encVR_lt o))
theorem vrecipF32 (sd : Side) (o : VR) : Statement (.vrecipF32 sd o) := of_v rfl (opAt_lt 0x10 56 _ (by decide) (encVR_lt o))
theorem vrsqrtF32 (sd : Side) (o : VR) : Statement (.vrsqrtF32 sd o) := of_v rfl (opAt_lt 0x11 56 _ (by decide) (encVR_lt o))
theorem vsqrtF32 (sd : Side) (o : VR) : Statement (.vsqrtF32 sd o) := of_v rfl (opAt_lt 0x12 56 _ (by decide) (encVR_lt o))
theorem vexp2F32 (sd : Side) (o : VR) : Statement (.vexp2F32 sd o) := of_v rfl (opAt_lt 0x13 56 _ (by decide) (encVR_lt o))
theorem vlog2F32 (sd : Side) (o : VR) : Statement (.vlog2F32 sd o) := of_v rfl (opAt_lt 0x14 56 _ (by decide) (encVR_lt o))
theorem vsinpiF32 (sd : Side) (o : VR) : Statement (.vsinpiF32 sd o) := of_v rfl (opAt_lt 0x15 56 _ (by decide) (encVR_lt o))
theorem vcospiF32 (sd : Side) (o : VR) : Statement (.vcospiF32 sd o) := of_v rfl (opAt_lt 0x16 56 _ (by decide) (encVR_lt o))
theorem vrecipBf16 (sd : Side) (o : VR) : Statement (.vrecipBf16 sd o) := of_v rfl (opAt_lt 0x18 56 _ (by decide) (encVR_lt o))
theorem vrsqrtBf16 (sd : Side) (o : VR) : Statement (.vrsqrtBf16 sd o) := of_v rfl (opAt_lt 0x19 56 _ (by decide) (encVR_lt o))
theorem vsqrtBf16 (sd : Side) (o : VR) : Statement (.vsqrtBf16 sd o) := of_v rfl (opAt_lt 0x1A 56 _ (by decide) (encVR_lt o))
theorem vexp2Bf16 (sd : Side) (o : VR) : Statement (.vexp2Bf16 sd o) := of_v rfl (opAt_lt 0x1B 56 _ (by decide) (encVR_lt o))
theorem vlog2Bf16 (sd : Side) (o : VR) : Statement (.vlog2Bf16 sd o) := of_v rfl (opAt_lt 0x1C 56 _ (by decide) (encVR_lt o))
theorem vsinpiBf16 (sd : Side) (o : VR) : Statement (.vsinpiBf16 sd o) := of_v rfl (opAt_lt 0x1D 56 _ (by decide) (encVR_lt o))
theorem vcospiBf16 (sd : Side) (o : VR) : Statement (.vcospiBf16 sd o) := of_v rfl (opAt_lt 0x1E 56 _ (by decide) (encVR_lt o))
theorem vaddBf16 (sd : Side) (o : VR) : Statement (.vaddBf16 sd o) := of_v rfl (opAt_lt 0x20 56 _ (by decide) (encVR_lt o))
theorem vsubBf16 (sd : Side) (o : VR) : Statement (.vsubBf16 sd o) := of_v rfl (opAt_lt 0x21 56 _ (by decide) (encVR_lt o))
theorem vmulBf16 (sd : Side) (o : VR) : Statement (.vmulBf16 sd o) := of_v rfl (opAt_lt 0x22 56 _ (by decide) (encVR_lt o))
theorem vfmaBf16 (sd : Side) (o : V3) : Statement (.vfmaBf16 sd o) := of_v rfl (opAt_lt 0x23 56 _ (by decide) (encV3_lt o))
theorem vminBf16 (sd : Side) (o : VR) : Statement (.vminBf16 sd o) := of_v rfl (opAt_lt 0x24 56 _ (by decide) (encVR_lt o))
theorem vmaxBf16 (sd : Side) (o : VR) : Statement (.vmaxBf16 sd o) := of_v rfl (opAt_lt 0x25 56 _ (by decide) (encVR_lt o))
theorem vcmpeqBf16 (sd : Side) (o : VR) : Statement (.vcmpeqBf16 sd o) := of_v rfl (opAt_lt 0x26 56 _ (by decide) (encVR_lt o))
theorem vcmpltBf16 (sd : Side) (o : VR) : Statement (.vcmpltBf16 sd o) := of_v rfl (opAt_lt 0x27 56 _ (by decide) (encVR_lt o))
theorem vaddF16 (sd : Side) (o : VR) : Statement (.vaddF16 sd o) := of_v rfl (opAt_lt 0x28 56 _ (by decide) (encVR_lt o))
theorem vsubF16 (sd : Side) (o : VR) : Statement (.vsubF16 sd o) := of_v rfl (opAt_lt 0x29 56 _ (by decide) (encVR_lt o))
theorem vmulF16 (sd : Side) (o : VR) : Statement (.vmulF16 sd o) := of_v rfl (opAt_lt 0x2A 56 _ (by decide) (encVR_lt o))
theorem vfmaF16 (sd : Side) (o : V3) : Statement (.vfmaF16 sd o) := of_v rfl (opAt_lt 0x2B 56 _ (by decide) (encV3_lt o))
theorem vaddI32 (sd : Side) (o : VR) : Statement (.vaddI32 sd o) := of_v rfl (opAt_lt 0x30 56 _ (by decide) (encVR_lt o))
theorem vsubI32 (sd : Side) (o : VR) : Statement (.vsubI32 sd o) := of_v rfl (opAt_lt 0x31 56 _ (by decide) (encVR_lt o))
theorem vmulI32 (sd : Side) (o : VR) : Statement (.vmulI32 sd o) := of_v rfl (opAt_lt 0x32 56 _ (by decide) (encVR_lt o))
theorem vmulhI32 (sd : Side) (o : VR) : Statement (.vmulhI32 sd o) := of_v rfl (opAt_lt 0x33 56 _ (by decide) (encVR_lt o))
theorem vaddsI32 (sd : Side) (o : VR) : Statement (.vaddsI32 sd o) := of_v rfl (opAt_lt 0x34 56 _ (by decide) (encVR_lt o))
theorem vsubsI32 (sd : Side) (o : VR) : Statement (.vsubsI32 sd o) := of_v rfl (opAt_lt 0x35 56 _ (by decide) (encVR_lt o))
theorem vminI32 (sd : Side) (o : VR) : Statement (.vminI32 sd o) := of_v rfl (opAt_lt 0x36 56 _ (by decide) (encVR_lt o))
theorem vmaxI32 (sd : Side) (o : VR) : Statement (.vmaxI32 sd o) := of_v rfl (opAt_lt 0x37 56 _ (by decide) (encVR_lt o))
theorem vminN32 (sd : Side) (o : VR) : Statement (.vminN32 sd o) := of_v rfl (opAt_lt 0x38 56 _ (by decide) (encVR_lt o))
theorem vmaxN32 (sd : Side) (o : VR) : Statement (.vmaxN32 sd o) := of_v rfl (opAt_lt 0x39 56 _ (by decide) (encVR_lt o))
theorem vand (sd : Side) (o : VR) : Statement (.vand sd o) := of_v rfl (opAt_lt 0x3A 56 _ (by decide) (encVR_lt o))
theorem vor (sd : Side) (o : VR) : Statement (.vor sd o) := of_v rfl (opAt_lt 0x3B 56 _ (by decide) (encVR_lt o))
theorem vxor (sd : Side) (o : VR) : Statement (.vxor sd o) := of_v rfl (opAt_lt 0x3C 56 _ (by decide) (encVR_lt o))
theorem vshl (sd : Side) (o : VR) : Statement (.vshl sd o) := of_v rfl (opAt_lt 0x3D 56 _ (by decide) (encVR_lt o))
theorem vshr (sd : Side) (o : VR) : Statement (.vshr sd o) := of_v rfl (opAt_lt 0x3E 56 _ (by decide) (encVR_lt o))
theorem vsra (sd : Side) (o : VR) : Statement (.vsra sd o) := of_v rfl (opAt_lt 0x3F 56 _ (by decide) (encVR_lt o))
theorem vcmpeqI32 (sd : Side) (o : VR) : Statement (.vcmpeqI32 sd o) := of_v rfl (opAt_lt 0x40 56 _ (by decide) (encVR_lt o))
theorem vcmpltI32 (sd : Side) (o : VR) : Statement (.vcmpltI32 sd o) := of_v rfl (opAt_lt 0x41 56 _ (by decide) (encVR_lt o))
theorem vcmpltN32 (sd : Side) (o : VR) : Statement (.vcmpltN32 sd o) := of_v rfl (opAt_lt 0x42 56 _ (by decide) (encVR_lt o))
theorem vcvtF32I32 (sd : Side) (o : VR) : Statement (.vcvtF32I32 sd o) := of_v rfl (opAt_lt 0x43 56 _ (by decide) (encVR_lt o))
theorem vcvtI32F32 (sd : Side) (o : VR) : Statement (.vcvtI32F32 sd o) := of_v rfl (opAt_lt 0x44 56 _ (by decide) (encVR_lt o))
theorem vcvtF32Bf16 (sd : Side) (o : VR) : Statement (.vcvtF32Bf16 sd o) := of_v rfl (opAt_lt 0x45 56 _ (by decide) (encVR_lt o))
theorem vcvtBf16F32 (sd : Side) (o : VR) : Statement (.vcvtBf16F32 sd o) := of_v rfl (opAt_lt 0x46 56 _ (by decide) (encVR_lt o))
theorem vcvtF32F16 (sd : Side) (o : VR) : Statement (.vcvtF32F16 sd o) := of_v rfl (opAt_lt 0x47 56 _ (by decide) (encVR_lt o))
theorem vcvtF16F32 (sd : Side) (o : VR) : Statement (.vcvtF16F32 sd o) := of_v rfl (opAt_lt 0x48 56 _ (by decide) (encVR_lt o))
theorem vcvtF32E4m3 (sd : Side) (o : VR) : Statement (.vcvtF32E4m3 sd o) := of_v rfl (opAt_lt 0x49 56 _ (by decide) (encVR_lt o))
theorem vcvtE4m3F32 (sd : Side) (o : VR) : Statement (.vcvtE4m3F32 sd o) := of_v rfl (opAt_lt 0x4A 56 _ (by decide) (encVR_lt o))
theorem vcvtF32E5m2 (sd : Side) (o : VR) : Statement (.vcvtF32E5m2 sd o) := of_v rfl (opAt_lt 0x4B 56 _ (by decide) (encVR_lt o))
theorem vcvtE5m2F32 (sd : Side) (o : VR) : Statement (.vcvtE5m2F32 sd o) := of_v rfl (opAt_lt 0x4C 56 _ (by decide) (encVR_lt o))
theorem vquantQ4 (sd : Side) (o : VR) : Statement (.vquantQ4 sd o) := of_v rfl (opAt_lt 0x4D 56 _ (by decide) (encVR_lt o))
theorem vdequantQ4 (sd : Side) (o : VR) : Statement (.vdequantQ4 sd o) := of_v rfl (opAt_lt 0x4E 56 _ (by decide) (encVR_lt o))
theorem vquantQ8 (sd : Side) (o : VR) : Statement (.vquantQ8 sd o) := of_v rfl (opAt_lt 0x4F 56 _ (by decide) (encVR_lt o))
theorem vperm (sd : Side) (o : VR) : Statement (.vperm sd o) := of_v rfl (opAt_lt 0x50 56 _ (by decide) (encVR_lt o))
theorem vrotl (sd : Side) (o : VR) : Statement (.vrotl sd o) := of_v rfl (opAt_lt 0x51 56 _ (by decide) (encVR_lt o))
theorem vbcast (sd : Side) (o : VR) : Statement (.vbcast sd o) := of_v rfl (opAt_lt 0x52 56 _ (by decide) (encVR_lt o))
theorem vzip (sd : Side) (o : VR) : Statement (.vzip sd o) := of_v rfl (opAt_lt 0x53 56 _ (by decide) (encVR_lt o))
theorem vunzip (sd : Side) (o : VR) : Statement (.vunzip sd o) := of_v rfl (opAt_lt 0x54 56 _ (by decide) (encVR_lt o))
theorem vredsumF32 (sd : Side) (o : VR) : Statement (.vredsumF32 sd o) := of_v rfl (opAt_lt 0x55 56 _ (by decide) (encVR_lt o))
theorem vredmaxF32 (sd : Side) (o : VR) : Statement (.vredmaxF32 sd o) := of_v rfl (opAt_lt 0x56 56 _ (by decide) (encVR_lt o))
theorem vredminF32 (sd : Side) (o : VR) : Statement (.vredminF32 sd o) := of_v rfl (opAt_lt 0x57 56 _ (by decide) (encVR_lt o))
theorem vredsumI32 (sd : Side) (o : VR) : Statement (.vredsumI32 sd o) := of_v rfl (opAt_lt 0x58 56 _ (by decide) (encVR_lt o))
theorem vmand (sd : Side) (o : VR) : Statement (.vmand sd o) := of_v rfl (opAt_lt 0x59 56 _ (by decide) (encVR_lt o))
theorem vmor (sd : Side) (o : VR) : Statement (.vmor sd o) := of_v rfl (opAt_lt 0x5A 56 _ (by decide) (encVR_lt o))
theorem vmxor (sd : Side) (o : VR) : Statement (.vmxor sd o) := of_v rfl (opAt_lt 0x5B 56 _ (by decide) (encVR_lt o))
theorem vmnot (sd : Side) (o : VR) : Statement (.vmnot sd o) := of_v rfl (opAt_lt 0x5C 56 _ (by decide) (encVR_lt o))
theorem vrng (sd : Side) (o : VR) : Statement (.vrng sd o) := of_v rfl (opAt_lt 0x5D 56 _ (by decide) (encVR_lt o))
theorem vrngset (sd : Side) (o : VR) : Statement (.vrngset sd o) := of_v rfl (opAt_lt 0x5E 56 _ (by decide) (encVR_lt o))
theorem vxfer (sd : Side) (o : VR) : Statement (.vxfer sd o) := of_v rfl (opAt_lt 0x5F 56 _ (by decide) (encVR_lt o))
theorem vldF32 (sd : Side) (o : VM) : Statement (.vldF32 sd o) := of_v rfl (opAt_lt 0x60 56 _ (by decide) (encVM_lt o))
theorem vldI32 (sd : Side) (o : VM) : Statement (.vldI32 sd o) := of_v rfl (opAt_lt 0x61 56 _ (by decide) (encVM_lt o))
theorem vldBf16 (sd : Side) (o : VM) : Statement (.vldBf16 sd o) := of_v rfl (opAt_lt 0x62 56 _ (by decide) (encVM_lt o))
theorem vldF16 (sd : Side) (o : VM) : Statement (.vldF16 sd o) := of_v rfl (opAt_lt 0x63 56 _ (by decide) (encVM_lt o))
theorem vstF32 (sd : Side) (o : VM) : Statement (.vstF32 sd o) := of_v rfl (opAt_lt 0x64 56 _ (by decide) (encVM_lt o))
theorem vstI32 (sd : Side) (o : VM) : Statement (.vstI32 sd o) := of_v rfl (opAt_lt 0x65 56 _ (by decide) (encVM_lt o))
theorem vstBf16 (sd : Side) (o : VM) : Statement (.vstBf16 sd o) := of_v rfl (opAt_lt 0x66 56 _ (by decide) (encVM_lt o))
theorem vstF16 (sd : Side) (o : VM) : Statement (.vstF16 sd o) := of_v rfl (opAt_lt 0x67 56 _ (by decide) (encVM_lt o))
theorem vpmulP16 (sd : Side) (o : VR) : Statement (.vpmulP16 sd o) := of_v rfl (opAt_lt 0x68 56 _ (by decide) (encVR_lt o))
theorem vpmulP8 (sd : Side) (o : VR) : Statement (.vpmulP8 sd o) := of_v rfl (opAt_lt 0x69 56 _ (by decide) (encVR_lt o))
theorem vpcmpP16 (sd : Side) (o : VR) : Statement (.vpcmpP16 sd o) := of_v rfl (opAt_lt 0x6A 56 _ (by decide) (encVR_lt o))
theorem vpscP16 (sd : Side) (o : VR) : Statement (.vpscP16 sd o) := of_v rfl (opAt_lt 0x6B 56 _ (by decide) (encVR_lt o))
theorem vpsumP16 (sd : Side) (o : VR) : Statement (.vpsumP16 sd o) := of_v rfl (opAt_lt 0x6C 56 _ (by decide) (encVR_lt o))
theorem vpresP16 (sd : Side) (o : VR) : Statement (.vpresP16 sd o) := of_v rfl (opAt_lt 0x6D 56 _ (by decide) (encVR_lt o))
theorem vplenP16 (sd : Side) (o : VR) : Statement (.vplenP16 sd o) := of_v rfl (opAt_lt 0x6E 56 _ (by decide) (encVR_lt o))
theorem vpcvtP8 (sd : Side) (o : VR) : Statement (.vpcvtP8 sd o) := of_v rfl (opAt_lt 0x6F 56 _ (by decide) (encVR_lt o))
theorem mpush (o : MO) : Statement (.mpush o) := of_m rfl (opAt_lt 0x00 56 _ (by decide) (encMO_lt o))
theorem mshift (o : MO) : Statement (.mshift o) := of_m rfl (opAt_lt 0x01 56 _ (by decide) (encMO_lt o))
theorem macc (o : MO) : Statement (.macc o) := of_m rfl (opAt_lt 0x02 56 _ (by decide) (encMO_lt o))
theorem maccp (o : MO) : Statement (.maccp o) := of_m rfl (opAt_lt 0x03 56 _ (by decide) (encMO_lt o))
theorem mdrain (o : MO) : Statement (.mdrain o) := of_m rfl (opAt_lt 0x04 56 _ (by decide) (encMO_lt o))
theorem manch (o : MO) : Statement (.manch o) := of_m rfl (opAt_lt 0x05 56 _ (by decide) (encMO_lt o))
theorem mzero (o : MO) : Statement (.mzero o) := of_m rfl (opAt_lt 0x06 56 _ (by decide) (encMO_lt o))
theorem mrow (o : MO) : Statement (.mrow o) := of_m rfl (opAt_lt 0x07 56 _ (by decide) (encMO_lt o))
theorem mexact (o : MO) : Statement (.mexact o) := of_m rfl (opAt_lt 0x08 56 _ (by decide) (encMO_lt o))
theorem mdrainv (o : MO) : Statement (.mdrainv o) := of_m rfl (opAt_lt 0x09 56 _ (by decide) (encMO_lt o))
theorem copy1d (sd : Side) (o : CA) : Statement (.copy1d sd o) := of_c rfl (opAt_lt 0x00 24 _ (by decide) (encCA_lt o))
theorem copy2d (sd : Side) (o : CA) : Statement (.copy2d sd o) := of_c rfl (opAt_lt 0x01 24 _ (by decide) (encCA_lt o))
theorem copy3d (sd : Side) (o : CA) : Statement (.copy3d sd o) := of_c rfl (opAt_lt 0x02 24 _ (by decide) (encCA_lt o))
theorem gather (sd : Side) (o : CA) : Statement (.gather sd o) := of_c rfl (opAt_lt 0x03 24 _ (by decide) (encCA_lt o))
theorem scatter (sd : Side) (o : CA) : Statement (.scatter sd o) := of_c rfl (opAt_lt 0x04 24 _ (by decide) (encCA_lt o))
theorem mcast (sd : Side) (o : CA) : Statement (.mcast sd o) := of_c rfl (opAt_lt 0x05 24 _ (by decide) (encCA_lt o))
theorem send (sd : Side) (o : CA) : Statement (.send sd o) := of_c rfl (opAt_lt 0x06 24 _ (by decide) (encCA_lt o))
theorem recv (sd : Side) (o : CA) : Statement (.recv sd o) := of_c rfl (opAt_lt 0x07 24 _ (by decide) (encCA_lt o))
theorem bankWadd (sd : Side) (o : CA) : Statement (.bankWadd sd o) := of_c rfl (opAt_lt 0x08 24 _ (by decide) (encCA_lt o))
theorem bankAdd (sd : Side) (o : CA) : Statement (.bankAdd sd o) := of_c rfl (opAt_lt 0x09 24 _ (by decide) (encCA_lt o))
theorem bankMax (sd : Side) (o : CA) : Statement (.bankMax sd o) := of_c rfl (opAt_lt 0x0A 24 _ (by decide) (encCA_lt o))
theorem bankMin (sd : Side) (o : CA) : Statement (.bankMin sd o) := of_c rfl (opAt_lt 0x0B 24 _ (by decide) (encCA_lt o))
theorem barArrive (sd : Side) (o : CA) : Statement (.barArrive sd o) := of_c rfl (opAt_lt 0x0C 24 _ (by decide) (encCA_lt o))
theorem barWait (sd : Side) (o : CA) : Statement (.barWait sd o) := of_c rfl (opAt_lt 0x0D 24 _ (by decide) (encCA_lt o))
theorem sfence (sd : Side) (o : CA) : Statement (.sfence sd o) := of_c rfl (opAt_lt 0x0E 24 _ (by decide) (encCA_lt o))
theorem srst (sd : Side) (o : CA) : Statement (.srst sd o) := of_c rfl (opAt_lt 0x0F 24 _ (by decide) (encCA_lt o))
theorem copy1dCs (sd : Side) (o : CS) : Statement (.copy1dCs sd o) := of_c rfl (opAt_lt 0x10 24 _ (by decide) (encCS_lt o))
theorem copy2dCs (sd : Side) (o : CS) : Statement (.copy2dCs sd o) := of_c rfl (opAt_lt 0x11 24 _ (by decide) (encCS_lt o))
theorem copy3dCs (sd : Side) (o : CS) : Statement (.copy3dCs sd o) := of_c rfl (opAt_lt 0x12 24 _ (by decide) (encCS_lt o))
theorem gatherCs (sd : Side) (o : CS) : Statement (.gatherCs sd o) := of_c rfl (opAt_lt 0x13 24 _ (by decide) (encCS_lt o))
theorem scatterCs (sd : Side) (o : CS) : Statement (.scatterCs sd o) := of_c rfl (opAt_lt 0x14 24 _ (by decide) (encCS_lt o))
theorem st32 (sd : Side) (o : CS) : Statement (.st32 sd o) := of_c rfl (opAt_lt 0x15 24 _ (by decide) (encCS_lt o))
theorem st64 (sd : Side) (o : CS) : Statement (.st64 sd o) := of_c rfl (opAt_lt 0x16 24 _ (by decide) (encCS_lt o))
theorem ld64 (sd : Side) (o : CS) : Statement (.ld64 sd o) := of_c rfl (opAt_lt 0x17 24 _ (by decide) (encCS_lt o))
theorem atomAdd (sd : Side) (o : CS) : Statement (.atomAdd sd o) := of_c rfl (opAt_lt 0x18 24 _ (by decide) (encCS_lt o))
theorem atomAnd (sd : Side) (o : CS) : Statement (.atomAnd sd o) := of_c rfl (opAt_lt 0x19 24 _ (by decide) (encCS_lt o))
theorem atomOr (sd : Side) (o : CS) : Statement (.atomOr sd o) := of_c rfl (opAt_lt 0x1A 24 _ (by decide) (encCS_lt o))
theorem atomXor (sd : Side) (o : CS) : Statement (.atomXor sd o) := of_c rfl (opAt_lt 0x1B 24 _ (by decide) (encCS_lt o))
theorem atomMax (sd : Side) (o : CS) : Statement (.atomMax sd o) := of_c rfl (opAt_lt 0x1C 24 _ (by decide) (encCS_lt o))
theorem atomMin (sd : Side) (o : CS) : Statement (.atomMin sd o) := of_c rfl (opAt_lt 0x1D 24 _ (by decide) (encCS_lt o))
theorem atomSwap (sd : Side) (o : CS) : Statement (.atomSwap sd o) := of_c rfl (opAt_lt 0x1E 24 _ (by decide) (encCS_lt o))
theorem atomCas (sd : Side) (o : CS) : Statement (.atomCas sd o) := of_c rfl (opAt_lt 0x1F 24 _ (by decide) (encCS_lt o))
theorem msaCas4 (sd : Side) (o : CS) : Statement (.msaCas4 sd o) := of_c rfl (opAt_lt 0x20 24 _ (by decide) (encCS_lt o))
theorem msaEnq (sd : Side) (o : CS) : Statement (.msaEnq sd o) := of_c rfl (opAt_lt 0x21 24 _ (by decide) (encCS_lt o))
theorem msaDeq (sd : Side) (o : CS) : Statement (.msaDeq sd o) := of_c rfl (opAt_lt 0x22 24 _ (by decide) (encCS_lt o))
theorem msaChase (sd : Side) (o : CS) : Statement (.msaChase sd o) := of_c rfl (opAt_lt 0x23 24 _ (by decide) (encCS_lt o))
theorem scLd64 (sd : Side) (o : CS) : Statement (.scLd64 sd o) := of_c rfl (opAt_lt 0x24 24 _ (by decide) (encCS_lt o))
theorem scSt64 (sd : Side) (o : CS) : Statement (.scSt64 sd o) := of_c rfl (opAt_lt 0x25 24 _ (by decide) (encCS_lt o))
theorem scSwap (sd : Side) (o : CS) : Statement (.scSwap sd o) := of_c rfl (opAt_lt 0x26 24 _ (by decide) (encCS_lt o))
theorem scAdd (sd : Side) (o : CS) : Statement (.scAdd sd o) := of_c rfl (opAt_lt 0x27 24 _ (by decide) (encCS_lt o))
theorem transferComplete (c : CtxId) (ch : Side) (t : XferIn) : Statement (.transferComplete c ch t) := of_none rfl
theorem releaseWriteSend (c : CtxId) (ch : Side) (tid : BitVec 32) : Statement (.releaseWriteSend c ch tid) := of_none rfl
theorem sendArrival (cl : ClId) : Statement (.sendArrival cl) := of_none rfl
theorem mcastLanding (cl : ClId) : Statement (.mcastLanding cl) := of_none rfl
theorem barrierArrivalSend (c : CtxId) (bar : BarId) : Statement (.barrierArrivalSend c bar) := of_none rfl
theorem barrierRootArrival (bar : BarRef) : Statement (.barrierRootArrival bar) := of_none rfl
theorem barrierFlipReach (bar : BarRef) (cl : ClId) : Statement (.barrierFlipReach bar cl) := of_none rfl
theorem scPerform (c : CtxId) (ch : Side) (tid : BitVec 32) : Statement (.scPerform c ch tid) := of_none rfl
theorem streamPacketArrive (p : Packet) : Statement (.streamPacketArrive p) := of_none rfl
theorem stream0PacketArrive (p : Packet) : Statement (.stream0PacketArrive p) := of_none rfl
theorem ackReceive (a : Ack) : Statement (.ackReceive a) := of_none rfl
theorem packetResendTimeout (k : PktKey) : Statement (.packetResendTimeout k) := of_none rfl
theorem planeFail (plane : BitVec 3) : Statement (.planeFail plane) := of_none rfl
theorem streamResync (c : CtxId) (ch : Side) (tid : BitVec 32) : Statement (.streamResync c ch tid) := of_none rfl
theorem resyncReceive (r : Resync) : Statement (.resyncReceive r) := of_none rfl
theorem pairRekey (peer : BitVec 12) (plane : BitVec 3) : Statement (.pairRekey peer plane) := of_none rfl
theorem replicaWriteApply (die : BitVec 4) : Statement (.replicaWriteApply die) := of_none rfl
theorem replicaReadServe (c : CtxId) (ch : Side) (tid : BitVec 32) : Statement (.replicaReadServe c ch tid) := of_none rfl
theorem migrationCutover (page : BitVec 64) : Statement (.migrationCutover page) := of_none rfl
theorem pageWalkDone (region : BitVec 32) (va : BitVec 64) : Statement (.pageWalkDone region va) := of_none rfl
theorem twMatmul (t : TileIn) : Statement (.twMatmul t) := of_none rfl
theorem twMatmulp (t : TileIn) : Statement (.twMatmulp t) := of_none rfl
theorem twUnary (t : TileIn) : Statement (.twUnary t) := of_none rfl
theorem twBinary (t : TileIn) : Statement (.twBinary t) := of_none rfl
theorem twReduce (t : TileIn) : Statement (.twReduce t) := of_none rfl
theorem twTranspose (t : TileIn) : Statement (.twTranspose t) := of_none rfl
theorem twGather (t : TileIn) : Statement (.twGather t) := of_none rfl
theorem twScatteradd (t : TileIn) : Statement (.twScatteradd t) := of_none rfl
theorem twAllreduce (t : TileIn) : Statement (.twAllreduce t) := of_none rfl
theorem twPhreduce (t : TileIn) : Statement (.twPhreduce t) := of_none rfl
theorem twCall (t : TileIn) : Statement (.twCall t) := of_none rfl
theorem twBarrier (t : TileIn) : Statement (.twBarrier t) := of_none rfl
theorem twSfence (t : TileIn) : Statement (.twSfence t) := of_none rfl
theorem twCopy (t : TileIn) : Statement (.twCopy t) := of_none rfl
theorem twFill (t : TileIn) : Statement (.twFill t) := of_none rfl
theorem twQuant (t : TileIn) : Statement (.twQuant t) := of_none rfl
theorem twDequant (t : TileIn) : Statement (.twDequant t) := of_none rfl
theorem twConvert (t : TileIn) : Statement (.twConvert t) := of_none rfl
theorem twRng (t : TileIn) : Statement (.twRng t) := of_none rfl
theorem twWadd (t : TileIn) : Statement (.twWadd t) := of_none rfl
theorem twDrain (t : TileIn) : Statement (.twDrain t) := of_none rfl
theorem twSignal (t : TileIn) : Statement (.twSignal t) := of_none rfl
theorem twWait (t : TileIn) : Statement (.twWait t) := of_none rfl
theorem twNop (t : TileIn) : Statement (.twNop t) := of_none rfl
theorem twForwardBand (op : BitVec 4) (t : TileIn) : Statement (.twForwardBand op t) := of_none rfl
theorem tileStageDone (e : EntryId) : Statement (.tileStageDone e) := of_none rfl
theorem tileChildIssue (e : EntryId) : Statement (.tileChildIssue e) := of_none rfl
theorem tileChildComplete (e : EntryId) (k : BitVec 32) : Statement (.tileChildComplete e k) := of_none rfl
theorem tileChildFault (e : EntryId) (k : BitVec 32) : Statement (.tileChildFault e k) := of_none rfl
theorem tileJoinDone (e : EntryId) : Statement (.tileJoinDone e) := of_none rfl
theorem tileCommit (e : EntryId) : Statement (.tileCommit e) := of_none rfl
theorem kernelStart (e : EntryId) (c : CtxId) : Statement (.kernelStart e c) := of_none rfl
theorem promotion (core : BitVec 8) : Statement (.promotion core) := of_none rfl
theorem starvationMark (core : BitVec 8) : Statement (.starvationMark core) := of_none rfl
theorem yieldEligible (c : CtxId) : Statement (.yieldEligible c) := of_none rfl
theorem preemption (c : CtxId) : Statement (.preemption c) := of_none rfl
theorem progressTimeout (region : BitVec 32) : Statement (.progressTimeout region) := of_none rfl
theorem escAnswer (c : CtxId) (ans : EscAns) : Statement (.escAnswer c ans) := of_none rfl
theorem ctxRequestDecided (c : CtxId) : Statement (.ctxRequestDecided c) := of_none rfl
theorem contextSave (c : CtxId) : Statement (.contextSave c) := of_none rfl
theorem unitDepartureDone (cl : ClId) (fails : Bool) : Statement (.unitDepartureDone cl fails) := of_none rfl
theorem saveFailed (cl : ClId) : Statement (.saveFailed cl) := of_none rfl
theorem contextRestore (c : CtxId) (region : BitVec 32) (image : BitVec 64) : Statement (.contextRestore c region image) := of_none rfl
theorem pullLand (c : CtxId) (unit : BitVec 10) : Statement (.pullLand c unit) := of_none rfl
theorem restoreUnreachable (c : CtxId) (unit : BitVec 10) : Statement (.restoreUnreachable c unit) := of_none rfl
theorem directoryReread (c : CtxId) (unit : BitVec 10) : Statement (.directoryReread c unit) := of_none rfl
theorem stopLanding (c : CtxId) : Statement (.stopLanding c) := of_none rfl
theorem debuggerStopRequest (c : CtxId) (code : BitVec 14) : Statement (.debuggerStopRequest c code) := of_none rfl
theorem watchChannelMatch (c : CtxId) (ch : Side) (tid : BitVec 32) : Statement (.watchChannelMatch c ch tid) := of_none rfl
theorem samplePoint (cl : ClId) : Statement (.samplePoint cl) := of_none rfl
theorem segmentRollover (cl : ClId) : Statement (.segmentRollover cl) := of_none rfl
theorem traceDrain (cl : ClId) : Statement (.traceDrain cl) := of_none rfl
theorem ringEnable (k : BitVec 6) : Statement (.ringEnable k) := of_none rfl
theorem ringRestart (k : BitVec 6) : Statement (.ringRestart k) := of_none rfl
theorem registerWrite (k : AppAccess) (bytes : List Byte) : Statement (.registerWrite k bytes) := of_none rfl
theorem ringPacketTake (k : BitVec 6) : Statement (.ringPacketTake k) := of_none rfl
theorem submit (c : Cmd) : Statement (.submit c) := of_none rfl
theorem regionInstall (c : Cmd) : Statement (.regionInstall c) := of_none rfl
theorem regionRemove (c : Cmd) : Statement (.regionRemove c) := of_none rfl
theorem kernelRegister (c : Cmd) : Statement (.kernelRegister c) := of_none rfl
theorem map (c : Cmd) : Statement (.map c) := of_none rfl
theorem unmap (c : Cmd) : Statement (.unmap c) := of_none rfl
theorem traceSet (c : Cmd) : Statement (.traceSet c) := of_none rfl
theorem dumpSet (c : Cmd) : Statement (.dumpSet c) := of_none rfl
theorem exportSet (c : Cmd) : Statement (.exportSet c) := of_none rfl
theorem savePool (c : Cmd) : Statement (.savePool c) := of_none rfl
theorem mailboxMessage (src dst : BitVec 3) (m : BitVec 512) : Statement (.mailboxMessage src dst m) := of_none rfl
theorem getVersion : Statement (.getVersion) := of_none rfl
theorem getCapabilities (flags : BitVec 32) : Statement (.getCapabilities flags) := of_none rfl
theorem negotiateAlgorithms (shake slh : Bool) : Statement (.negotiateAlgorithms shake slh) := of_none rfl
theorem getDigests : Statement (.getDigests) := of_none rfl
theorem getCertificate (cslot : BitVec 4) (off len : BitVec 16) : Statement (.getCertificate cslot off len) := of_none rfl
theorem challenge (cslot : BitVec 4) (nonce : BitVec 256) : Statement (.challenge cslot nonce) := of_none rfl
theorem getMeasurements (idx : BitVec 8) (sign : Bool) (nonce : BitVec 256) : Statement (.getMeasurements idx sign nonce) := of_none rfl
theorem keyExchange (share : BitVec 768) (nonce : BitVec 256) : Statement (.keyExchange share nonce) := of_none rfl
theorem finish (mac : BitVec 512) : Statement (.finish mac) := of_none rfl
theorem endSession : Statement (.endSession) := of_none rfl
theorem unsupportedRequest (code : BitVec 8) : Statement (.unsupportedRequest code) := of_none rfl
theorem firmwareImageWrite (image sig : BitVec 512) (version : BitVec 64) : Statement (.firmwareImageWrite image sig version) := of_none rfl
theorem functionSwitch (f : BitVec 3) : Statement (.functionSwitch f) := of_none rfl
theorem firmwareRemeasure (f : BitVec 3) (digest : BitVec 512) : Statement (.firmwareRemeasure f digest) := of_none rfl
theorem packageColdReset : Statement (.packageColdReset) := of_none rfl
theorem packageWarmReset : Statement (.packageWarmReset) := of_none rfl
theorem hostDieReset : Statement (.hostDieReset) := of_none rfl
theorem computeDieReset (die : BitVec 3) : Statement (.computeDieReset die) := of_none rfl
theorem clusterClear (cl : ClId) : Statement (.clusterClear cl) := of_none rfl
theorem coreReset (core : BitVec 8) : Statement (.coreReset core) := of_none rfl
theorem engineReset (e : EngineId) : Statement (.engineReset e) := of_none rfl
theorem firmwareCoreReset (f : BitVec 3) : Statement (.firmwareCoreReset f) := of_none rfl
theorem tamperEvent (k : Tamper) : Statement (.tamperEvent k) := of_none rfl
theorem clockRatioChange (cl : ClId) (n : BitVec 5) : Statement (.clockRatioChange cl n) := of_none rfl
theorem thermalShutdown : Statement (.thermalShutdown) := of_none rfl
theorem telemetryPeriodic (ty : BitVec 16) : Statement (.telemetryPeriodic ty) := of_none rfl
theorem peerWithdraw (region : BitVec 32) (p : PeerIn) : Statement (.peerWithdraw region p) := of_none rfl
theorem debuggerAttach (region : BitVec 32) (on : Bool) : Statement (.debuggerAttach region on) := of_none rfl
theorem pageMigrationStart (region : BitVec 32) (va : BitVec 64) (die : BitVec 3) : Statement (.pageMigrationStart region va die) := of_none rfl
theorem pageReplication (region : BitVec 32) (va : BitVec 64) (dies : BitVec 8) : Statement (.pageReplication region va dies) := of_none rfl
theorem telemetryRequest (ty : BitVec 16) : Statement (.telemetryRequest ty) := of_none rfl

end Sys2Proof.Laws.Encoding
end

