-- ==== Sys2Proof/Tests/Slice0.lean ====
section
/-! SUPPORT. Small tests: operands that the checks refuse, words written out from the encodings of the spec, single steps whose results the spec
gives, and for every statement of Certificates/Slice0 states and operands that meet its hypotheses. -/

namespace Sys2Proof.Tests

open Sys2Proof Sys2Proof.Machine

set_option maxRecDepth 100000
set_option Elab.async false

/-! ### Operands that the checks refuse (03 R49-R57) -/

def vr : VR := { g := 0, vd := 2, vsa := 4, vsb := 6, imm := 0, rm := 0, mask := 0, form := 0, sw := 0 }
/-- The same with one source. -/
def vr1 : VR := { vr with vsb := 0 }
def v3 : V3 := { g := 0, vd := 2, vsa := 4, vsb := 6, vsc := 8, rm := 0, mask := 0, form := 0, sw := 0 }
def vm : VM := { g := 0, v := 2, b := 0, off := 0, mask := 0, form := 0, sw := 0 }
def mo : MO := { g := 0, acc := 0, row := 0, src := 0, v := 0, disp := 0, fmt := 0, form := 0, sw := 0 }
def ca : CA := { g := 0, d := 0, s := 1, len := 2, form := 0, sw := 0 }
def ca0 : CA := { g := 0, d := 1, s := 0, len := 0, form := 0, sw := 0 }
def cs : CS := { g := 0, d := 0, s := 1, stream := 0, scope := 0, acq := 0, rel := 0 }

theorem test_wf_scalar : ∀ y ∈ [SSyl.cmpeq ⟨0, 0, 2, 3⟩, .cmpne ⟨0, 8, 2, 3⟩, .cmplt ⟨0, 8, 2, 3⟩, .cmpltu ⟨0, 0, 2, 3⟩, .cmple ⟨0, 0, 2, 3⟩, .cmpleu ⟨0, 8, 2, 3⟩,
    .gand ⟨0, 0, 1, 2⟩, .gand ⟨0, 1, 8, 2⟩, .gor ⟨0, 1, 2, 8⟩, .gxor ⟨0, 8, 1, 2⟩, .gnot ⟨0, 1, 8⟩, .gnot ⟨0, 0, 1⟩, .shlSi ⟨0, 1, 2, 64⟩, .shrSi ⟨0, 1, 2, 64⟩,
    .sraSi ⟨0, 1, 2, 255⟩, .cmpeqSi ⟨0, 0, 2, 3⟩, .cmpltSi ⟨0, 8, 2, 3⟩, .cmpltuSi ⟨0, 63, 2, 3⟩, .fset ⟨0, 5, 0, 0, 1⟩, .fsetReg ⟨0, 7, 0, 0, 1⟩], wfS y = false := by decide

theorem test_wf_system : ∀ y ∈ [SSyl.cpyFromS ⟨0, 1, 1, 0⟩, .cpyFromS ⟨0, 1, 0, 8⟩, .cpyFromS ⟨0, 1, 2, 32⟩, .cpyFromS ⟨0, 1, 3, 32⟩, .cpyFromS ⟨0, 1, 6, 0⟩, .cpyToS ⟨0, 1, 1, 16⟩,
    .cpyToS ⟨0, 1, 1, 3⟩, .cpyToS ⟨0, 1, 7, 0⟩, .movFromSys ⟨0, 1, 6⟩, .movFromSys ⟨0, 1, 0x1C⟩, .movToSys ⟨0, 1, 0x60⟩, .movToSys ⟨0, 1, 0x206⟩, .movToSys ⟨0, 1, 0x218⟩,
    .movFromSys ⟨0, 1, 0x221⟩, .pmq ⟨0, 1, 512⟩, .pmq ⟨0, 1, 0x1080⟩, .pmpull ⟨0, 0x2080⟩, .pmpull ⟨0, 0x3020⟩], wfS y = false := by decide

theorem test_wf_loop : ∀ y ∈ [LSyl.loop ⟨0, 0, 1, 8⟩, .loopImm ⟨0, 0, 1, 8⟩, .loopImm ⟨0, 0, 0, 1⟩], wfL y = false := by decide

theorem test_wf_vector : ∀ y ∈ [VSyl.vaddF32 { vr with rm := 5 }, .vaddF32 { vr with imm := 1 }, .vfmaF32 { v3 with rm := 5 }, .vminF32 { vr with rm := 1 }, .vabsF32 vr,
    .vcmpeqF32 { vr with vd := 16 }, .vsel { v3 with rm := 1 }, .vrecipF32 vr, .vcmpeqBf16 { vr with vd := 3 }, .vcmpltI32 { vr with vd := 16 }, .vshl { vr with imm := 1 },
    .vshl { vr with imm := 256 }, .vshr { vr1 with imm := 288 }, .vcvtF32Bf16 { vr1 with imm := 2 }, .vcvtF32E4m3 { vr1 with imm := 4 }, .vcvtBf16F32 { vr with imm := 1 },
    .vquantQ4 { vr1 with imm := 4 }, .vquantQ8 { vr1 with imm := 3 }, .vdequantQ4 vr, .vrotl { vr1 with imm := 320 }, .vbcast { vr1 with imm := 64 }, .vzip { vr with imm := 2 },
    .vunzip { vr with imm := 2 }, .vredsumF32 { vr1 with rm := 5 }, .vredmaxF32 vr, .vmand { vr with vd := 16 }, .vmor { vr with vsa := 16 }, .vmxor { vr with vsb := 16 }, .vmnot vr,
    .vrng vr1, .vrngset { vr1 with vd := 0, imm := 2 }, .vrngset vr1, .vxfer vr, .vpcmpP16 { vr with imm := 32 }, .vpcmpP16 { vr with vd := 1 }, .vpscP16 { vr1 with imm := 4 },
    .vpsumP16 { vr1 with imm := 4 }, .vpresP16 vr, .vplenP16 vr, .vpcvtP8 { vr with imm := 1 }, .vpcvtP8 { vr with imm := 2 }], wfV y = false := by decide

theorem test_wf_matrix : ∀ y ∈ [MSyl.mpush { mo with acc := 1 }, .mpush { mo with row := 1 }, .mpush { mo with v := 1 }, .mpush { mo with src := 2, disp := 1 }, .mpush { mo with src := 3, fmt := 7 },
    .mshift { mo with src := 1 }, .macc { mo with row := 1 }, .macc { mo with fmt := 1 }, .maccp { mo with src := 2, fmt := 7 }, .mdrain { mo with fmt := 5 }, .mdrain { mo with v := 1 },
    .manch { mo with disp := 1024 }, .manch { mo with disp := .ofInt 23 (-1025) }, .mzero { mo with disp := 1 }, .mrow { mo with fmt := 1 }, .mexact { mo with row := 2 }, .mdrainv mo,
    .mdrainv { mo with src := 2, fmt := 5 }], wfM y = false := by decide

theorem test_wf_copy : ∀ y ∈ [CSyl.copy2d { ca with len := 31 }, .copy3d { ca with len := 29 }, .gather { ca with len := 31 }, .scatter { ca with len := 31 }, .recv ca, .barArrive ca,
    .barWait { ca0 with s := 1 }, .sfence { ca0 with len := 1 }, .srst ca, .copy1dCs { cs with s := 31 }, .copy2dCs { cs with s := 30 }, .copy3dCs { cs with s := 28 },
    .gatherCs { cs with s := 30 }, .scatterCs { cs with s := 30 }, .st32 { cs with scope := 1, acq := 1 }, .st64 { cs with scope := 6 }, .ld64 { cs with scope := 1, rel := 1 },
    .ld64 { cs with stream := 1 }, .atomAdd { cs with s := 31 }, .atomCas { cs with acq := 1 }, .msaCas4 { cs with s := 24 }, .msaEnq { cs with s := 31 }, .msaDeq { cs with s := 31 },
    .msaChase { cs with s := 31 }, .scLd64 { cs with scope := 1 }, .scSt64 { cs with stream := 1 }, .scSwap { cs with s := 31 }, .scAdd { cs with s := 31 }], wfC y = false := by decide

theorem test_wf_band : bandWord 0 0xEF000000 = false ∧ bandWord 0 0x1F0000000 = false ∧ bandWord 3 0xEF00000000000000 = false ∧ bandWord 5 0xF000000000000000 = true ∧
    wf (.forwardCompatNop 2 0xEF000000) = false := by decide

/-! ### Words of the spec's encodings -/

/-- The word decodes to the syllable. -/
def readsAs (x : Slot) (w : Nat) (y : Syl) : Bool :=
  match decodeSyl x w with
  | .ok z => z == y
  | .error _ => false

/-- 03 R50, R51, R57: S slot. -/
theorem test_decode_scalar :
    readsAs .s 0x2F010100 (.s (.addSj { g := 0, rd := 4, imm := 0x100 })) = true ∧ readsAs .s 0x24018108 (.s (.shlSi { g := 0, rd := 6, ra := 1, imm := 8 })) = true ∧
    readsAs .s 0x17004814 (.s (.cmpne { g := 0, rd := 1, ra := 8, rb := 5 })) = true ∧ readsAs .s 0x4B028210 (.s (.movToSys { g := 0, s := 10, n := 0x210 })) = true ∧
    readsAs .s 0x5A000001 (.s (.wpset { g := 0, n := 1 })) = true := by decide +kernel
/-- 03 R52, R53: L and K slots. -/
theorem test_decode_control : readsAs .l 0x001FFFFA (.l (.br { g := 1, off := -6 })) = true ∧ readsAs .l 0x0B000000 (.l (.kend { g := 0 })) = true ∧
    readsAs .k 0x01058001 (.k (.kldp { g := 0, x := 1, b := 3, off := 1 })) = true := by decide +kernel
/-- 03 R54: VA and VB slots. -/
theorem test_decode_vector :
    readsAs .va 0x0300140080180400 (.v .a (.vfmaF32 { g := 0, vd := 10, vsa := 2, vsb := 3, vsc := 4, rm := 0, mask := 0, form := 0, sw := 0 })) = true ∧
    readsAs .va 0x5503E86400000003 (.v .a (.vredsumF32 { g := 0, vd := 500, vsa := 400, vsb := 0, imm := 0, rm := 0, mask := 0, form := 1, sw := 1 })) = true := by decide +kernel
/-- 03 R55: M slot. -/
theorem test_decode_matrix : readsAs .m 0x0200000000000003 (.m (.macc { mo with form := 1, sw := 1 })) = true ∧
    readsAs .m 0x0400500000020000 (.m (.mdrain { mo with row := 5, disp := 0x200 })) = true := by decide +kernel
/-- 03 R56: C0 and C1 slots. -/
theorem test_decode_copy : readsAs .c0 0x000290C0 (.c .a (.copy1d { g := 0, d := 5, s := 4, len := 6, form := 0, sw := 0 })) = true ∧
    readsAs .c1 0x1603A0EA (.c .b (.st64 { g := 0, d := 7, s := 8, stream := 3, scope := 5, acq := 0, rel := 1 })) = true ∧
    readsAs .c0 0x1F0428A2 (.c .a (.atomCas { g := 0, d := 8, s := 10, stream := 2, scope := 4, acq := 0, rel := 1 })) = true ∧
    readsAs .c0 0x0D008000 (.c .a (.barWait { g := 0, d := 1, s := 0, len := 0, form := 0, sw := 0 })) = true := by decide +kernel
/-- 13 R265: a tile word as the table numbers its bits. -/
theorem test_decode_table : (decodeTableWord 32 0x2F010100 == some (.addSj { g := 0, rd := 4, imm := 0x100 })) = true ∧
    (decodeTableWord 64 0x0300140080180400 == some (.vfmaF32 .a { g := 0, vd := 10, vsa := 2, vsb := 3, vsc := 4, rm := 0, mask := 0, form := 0, sw := 0 })) = true := by decide +kernel

/-! ### States that issue at once -/

/-- One context on core 0, running, every unit present, nothing pending. -/
def calm : State := placeWord State.reset 32 0
/-- The same with a changed context. -/
def calmWith (f : Ctx → Ctx) : State := { calm with cx := f calm.cx }
/-- A context with changed registers. -/
def withRegs (f : Regs → Regs) (x : Ctx) : Ctx := { x with r := f x.r }
/-- A context in its monitor. -/
def inMonitor (x : Ctx) : Ctx := { x with mon := { x.mon with active := true }, run := { x.run with state := .monitor } }

def quietCheck (s : State) : Bool :=
  let r := s.cx.run
  decide (r.state = if s.cx.mon.active then .monitor else .run) && !s.cx.prog.builtin && r.sb.isEmpty && r.rows.isEmpty && !r.waiting && r.rowPort.isNone && r.hold.isNone &&
    r.parkedOn.isNone && r.portUntil.isNone && r.itemUntil == 0 && r.touch.isEmpty && r.issuedNow == 0 && r.dstop.isNone && r.watchStop.isNone && r.timing.isNone &&
    r.brakeTrap.isNone && r.post.isNone && s.cx.ctl.rptidx == 0 && (getCl s (ctxCl s.cid)).brake.isNone &&
    ((chanOf s.cx .a).xfers.all fun q => !lateXfer s s.cid .a q) && (chanOf s.cx .b).xfers.all fun q => !lateXfer s s.cid .b q
def calmCheck (s : State) : Bool := quietCheck s && (getCl s (ctxCl s.cid)).net.isEmpty && (getCl s (ctxCl s.cid)).win.isEmpty && s.others.isEmpty

theorem quiet_of (s : State) (h : quietCheck s = true) : Quiet s := by
  simp only [quietCheck, Bool.and_eq_true, decide_eq_true_eq, List.isEmpty_iff, Option.isNone_iff_eq_none, Bool.not_eq_true', List.all_eq_true, beq_iff_eq] at h
  obtain ⟨⟨⟨⟨⟨⟨⟨⟨⟨⟨⟨⟨⟨⟨⟨⟨⟨⟨⟨⟨h1, h2⟩, h3⟩, h4⟩, h5⟩, h6⟩, h7⟩, h8⟩, h9⟩, h10⟩, h11⟩, h12⟩, h13⟩, h14⟩, h15⟩, h16⟩, h17⟩, h18⟩, h19⟩, h20⟩, h21⟩ := h
  exact ⟨h1, h2, h3, h4, h5, h6, h7, h8, h9, h10, h11, h12, h13, h14, h15, h16, h17, h18, h19, fun ch => by cases ch <;> assumption⟩

theorem calm_of (s : State) (h : calmCheck s = true) : Calm s := by
  simp only [calmCheck, Bool.and_eq_true, List.isEmpty_iff] at h
  exact { quiet_of s h.1.1.1 with net := h.1.1.2, win := h.1.2, alone := fun c _ e => by simp [getCtx, e, h.2, tabGet] }

/-- The syllable is ready, for each of a list. -/
def readyCheck (s : State) (l : List Syl) : Bool := calmCheck s && l.all fun y => wfSyl y && guardOn s.cx.r (guardOf y)
theorem ready_of (s : State) (l : List Syl) (h : readyCheck s l = true) : ∀ y ∈ l, Ready s y := by
  simp only [readyCheck, Bool.and_eq_true, List.all_eq_true] at h
  exact fun y hy => ⟨calm_of s h.1, (h.2 y hy).1, (h.2 y hy).2⟩
/-- The checks at decode pass. -/
def passesCheck (s : State) (y : Syl) : Bool :=
  match slots8.forM (slotCheck (loneView s y) (loneBun s.cx y) ((List.range 16).map (cycleReads s (doSwaps s.cx [loneSlot y]) [loneSlot y])) [lonePick y]) with
  | .ok _ => true
  | .error _ => false
theorem passes_of (s : State) (y : Syl) (h : passesCheck s y = true) : PassesChecks s y := by
  unfold passesCheck at h
  unfold PassesChecks
  split at h
  next u e => exact e
  next => simp at h
theorem present_of (s : State) (h : (s.cx.prog.footprint == List.range 800 && s.cx.prog.absent.isEmpty) = true) : AllPresent s := by
  simp only [Bool.and_eq_true, beq_iff_eq, List.isEmpty_iff] at h
  exact ⟨fun u hu => by rw [h.1]; exact List.mem_range.mpr hu, h.2⟩
theorem unwatched_of (s : State) (h : (s.cx.mon.watch.toList.all fun w => !w.armed) = true) : Unwatched s := by
  simp only [List.all_eq_true, Bool.not_eq_true'] at h
  intro k w e
  exact h w (by rw [Vector.getElem?_eq_some_iff] at e; obtain ⟨hk, rfl⟩ := e; simp [Vector.mem_toList_iff])
/-- A result that is no error equals what is claimed of it. -/
def okIs {ε α : Type} [DecidableEq α] (x : Except ε α) (a : α) : Bool :=
  match x with
  | .ok b => decide (b = a)
  | .error _ => false
theorem ok_of {ε α : Type} [DecidableEq α] (x : Except ε α) (a : α) (h : okIs x a = true) : x = .ok a := by
  cases x <;> simp_all [okIs]
/-- A result that is the error claimed. -/
def errIs {ε α : Type} [DecidableEq ε] (x : Except ε α) (a : ε) : Bool :=
  match x with
  | .ok _ => false
  | .error b => decide (b = a)
theorem err_of {ε α : Type} [DecidableEq ε] (x : Except ε α) (a : ε) (h : errIs x a = true) : x = .error a := by
  cases x <;> simp_all [errIs]
theorem ok_exists {ε α : Type} (x : Except ε α) (h : x.isOk = true) : ∃ a, x = .ok a := by
  cases x <;> simp_all [Except.isOk, Except.toBool]

/-! ### S slot -/

/-- A form of every syllable of the S slot that writes an s register or a guard and touches nothing else. -/
def plainForms : List Syl :=
  (([.add, .sub, .mul, .mulh, .mulhu, .and, .or, .xor, .andn, .shl, .shr, .sra, .rotl, .min, .max, .minu, .maxu, .bext, .bins, .cmpeq, .cmpne, .cmplt, .cmpltu, .cmple, .cmpleu, .gand, .gor,
    .gxor] : List (SR → SSyl)).flatMap fun f => [f ⟨0, 1, 2, 3⟩, f ⟨0, 7, 7, 7⟩]).map .s ++
  (([.popc, .clz, .ctz, .gnot] : List (SU → SSyl)).map fun f => .s (f ⟨0, 7, 7⟩)) ++
  (([.addSi, .andSi, .orSi, .xorSi, .shlSi, .shrSi, .sraSi, .cmpeqSi, .cmpltSi, .cmpltuSi] : List (SI → SSyl)).map fun f => .s (f ⟨0, 7, 2, 63⟩)) ++
  (([.movi, .movkH1, .movkH2, .movkH3, .addSj, .andSj, .orSj, .xorSj] : List (SJ → SSyl)).map fun f => .s (f ⟨0, 63, 0x3FFF⟩)) ++
  [.s (.add ⟨0, 0, 63, 63⟩), .s (.movkH4 ⟨0, 63, 255⟩), .s (.lop3 ⟨3, 63, 1, 2, 63⟩)]
theorem witness_ScalarArithmetic : ∀ y ∈ plainForms, Ready calm y := ready_of _ _ (by decide +kernel)
/-- Registers at the ends of the clauses of `clz` and `ctz`: no bit set, every bit set. -/
theorem witness_ScalarBitsAndGuards : (∀ y ∈ plainForms, Ready (calmWith (withRegs fun r => { r with s := [(2, 2 ^ 63), (7, 2 ^ 64 - 1)], g := 0xAB })) y) ∧
    sv (calmWith (withRegs fun r => { r with s := [(7, 2 ^ 64 - 1)] })) 7 = 2 ^ 64 - 1 ∧ sv calm 7 = 0 := ⟨ready_of _ _ (by decide +kernel), by decide +kernel, by decide +kernel⟩

theorem witness_address_misaligned : ((0x1FFFFC : W32).toNat + (1 : Int)) % (2 : Nat) ≠ 0 := by decide
theorem witness_address_outside : ((0 : W32).toNat + (-8 : Int)) % (8 : Nat) = 0 ∧ ((0 : W32).toNat + (-8 : Int)) < 0 ∧ (0x200000 : Int) < (0x1FFFFC : W32).toNat + 4 + (4 : Nat) := by decide
theorem witness_address_inside : ((0x1FFFF8 : W32).toNat + (0 : Int)) % (8 : Nat) = 0 ∧ (0 : Int) ≤ (0x1FFFF8 : W32).toNat + 0 ∧ (0x1FFFF8 : W32).toNat + (0 : Int) + (8 : Nat) ≤ 0x200000 := by decide

/-- The context with its base registers at the edges of the scratchpad and a footprint of one unit. -/
def edges : State := calmWith (withRegs fun r => { r with b := [(0, 0x1FFFF8), (1, 0x200000), (2, 4)] })
def oneUnit : State := { edges with cx := { edges.cx with prog := { edges.cx.prog with footprint := [511] } } }
def accesses8 : List (SM → SSyl) := [.sld8, .sld16, .sld32, .sld64, .sldz8, .sldz16, .sldz32, .sst8, .sst16, .sst32, .sst64]
theorem witness_ScalarAddresses : (∀ y ∈ accesses8.flatMap fun f => [Syl.s (f ⟨0, 9, 0, 0⟩), .s (f ⟨0, 9, 1, 0⟩), .s (f ⟨0, 9, 2, 0⟩)], Ready oneUnit y) ∧
    scalarAddr oneUnit ⟨0, 9, 1, 0⟩ 8 = .error (.trap { code := 0x0D, val := 0x200000 }) ∧ scalarAddr oneUnit ⟨0, 9, 2, 0⟩ 8 = .error (.trap { code := 0x0C, val := 4 }) ∧
    scalarAddr oneUnit ⟨0, 9, 2, 0⟩ 4 = .ok 4 ∧ 4 / 4096 ∉ oneUnit.cx.prog.footprint :=
  ⟨ready_of _ _ (by decide +kernel), err_of _ _ (by decide +kernel), err_of _ _ (by decide +kernel), ok_of _ _ (by decide +kernel), by decide +kernel⟩
theorem units_of (s : State) (l : List Nat) (h : (l.all fun u => s.cx.prog.footprint.contains u && !s.cx.prog.absent.contains u) = true) : UnitsPresent s l := by
  simp only [List.all_eq_true, Bool.and_eq_true, List.contains_iff_mem, Bool.not_eq_true', Bool.eq_false_iff, ne_eq] at h
  exact h
theorem witness_ScalarLoads : (∀ y ∈ accesses8.map fun f => Syl.s (f ⟨0, 9, 0, 0⟩), Ready oneUnit y) ∧ scalarAddr oneUnit ⟨0, 9, 0, 0⟩ 8 = .ok 0x1FFFF8 ∧
    UnitsPresent oneUnit [0x1FFFF8 / 4096] := ⟨ready_of _ _ (by decide +kernel), ok_of _ _ (by decide +kernel), units_of _ _ (by decide +kernel)⟩
theorem witness_ScalarStores : (∀ y ∈ accesses8.map fun f => Syl.s (f ⟨0, 9, 0, 0⟩), Ready oneUnit y) ∧ Unwatched oneUnit ∧ scalarAddr oneUnit ⟨0, 9, 0, 0⟩ 8 = .ok 0x1FFFF8 ∧
    UnitsPresent oneUnit [0x1FFFF8 / 4096] :=
  ⟨ready_of _ _ (by decide +kernel), unwatched_of _ (by decide +kernel), ok_of _ _ (by decide +kernel), units_of _ _ (by decide +kernel)⟩

/-- 03 R47: each field of a form at its limits; the registers s16 to s19 hold one above them. -/
def formVals : State := calmWith (withRegs fun r => { r with s := [(1, 16), (2, 17), (3, 64), (4, 65), (5, -2048), (6, 2048), (7, -(2 ^ 31)), (8, 2 ^ 31)] })
theorem witness_Forms : (∀ y ∈ [Syl.s (.fset ⟨0, 4, 3, 0, 16⟩), .s (.fset ⟨0, 0, 0, 0, 0⟩), .s (.fset ⟨0, 2, 1, 1, 64⟩), .s (.fset ⟨0, 2, 1, 1, 65⟩), .s (.fset ⟨0, 0, 0, 2, 2047⟩),
      .s (.fset ⟨0, 0, 0, 2, 2048⟩), .s (.fset ⟨0, 0, 0, 3, 0xFFF⟩), .s (.fsetReg ⟨0, 0, 0, 0, 1⟩), .s (.fsetReg ⟨0, 0, 0, 0, 2⟩), .s (.fsetReg ⟨0, 0, 0, 1, 3⟩), .s (.fsetReg ⟨0, 0, 0, 1, 4⟩),
      .s (.fsetReg ⟨0, 0, 0, 2, 5⟩), .s (.fsetReg ⟨0, 0, 0, 2, 6⟩), .s (.fsetReg ⟨0, 0, 0, 3, 7⟩), .s (.fsetReg ⟨0, 0, 0, 3, 8⟩), .s (.vrot ⟨0, 0, 2032⟩), .s (.vrot ⟨0, 1, 8⟩)], Ready formVals y) ∧
    (sv formVals 1).toInt = 16 ∧ (sv formVals 2).toInt = 17 ∧ (sv formVals 3).toInt = 64 ∧ (sv formVals 4).toInt = 65 ∧ (sv formVals 5).toInt = -2048 ∧ (sv formVals 6).toInt = 2048 ∧
    (sv formVals 7).toInt = -(2 ^ 31) ∧ (sv formVals 8).toInt = 2 ^ 31 := ⟨ready_of _ _ (by decide +kernel), by decide +kernel⟩
/-- 05 R107: a file whose region starts at the last multiple of 16, turned to its end. -/
theorem witness_Forms_rotation : ({ base := 2032, rot := 15 } : VFile).rot.toNat < 2048 - ({ base := 2032, rot := 15 } : VFile).base.toNat ∧ ({ base := 2032 } : VFile).base ≠ 0 ∧
    ({} : VFile).base = 0 ∧ ({} : VFile).rot.toNat < 2048 - ({} : VFile).base.toNat := by decide

theorem witness_FileCopies : (∀ y ∈ [Syl.s (.cpyFromS ⟨0, 1, 0, 7⟩), .s (.cpyFromS ⟨0, 1, 2, 31⟩), .s (.cpyFromS ⟨0, 1, 3, 31⟩), .s (.cpyFromS ⟨0, 1, 4, 2047⟩), .s (.cpyFromS ⟨0, 1, 5, 2047⟩),
      .s (.cpyToS ⟨0, 1, 0, 7⟩), .s (.cpyToS ⟨0, 1, 1, 14⟩), .s (.cpyToS ⟨0, 1, 1, 0⟩), .s (.cpyToS ⟨0, 1, 1, 1⟩), .s (.cpyToS ⟨0, 1, 2, 31⟩), .s (.cpyToS ⟨0, 1, 3, 31⟩),
      .s (.cpyToS ⟨0, 1, 4, 2047⟩), .s (.cpyToS ⟨0, 1, 5, 2047⟩)], Ready calm y) ∧ pendingOf calm.cx .a 31 = none ∧ pendingOf calm.cx .b 31 = none ∧ AllPresent calm :=
  ⟨ready_of _ _ (by decide +kernel), by decide +kernel, by decide +kernel, present_of _ (by decide +kernel)⟩

/-- 05 R110, 13 R292: the system registers of kernels and those of the monitor. -/
def kernelNums : List (BitVec 14) := [0, 1, 2, 3, 4, 5] ++ (List.range 20).map (fun n => .ofNat 14 (8 + n)) ++ (List.range 32).map fun n => .ofNat 14 (0x40 + n)
def monitorNums : List (BitVec 14) := (List.range 6).map (fun n => .ofNat 14 (0x200 + n)) ++ (List.range 16).map (fun n => .ofNat 14 (0x208 + n)) ++ [0x220]
/-- s1 holds a base and a count that fit, s2 a base that is no multiple of 16. -/
def rotVals (x : Ctx) : Ctx := { x with r := { x.r with s := [(1, 0x0F07F0), (2, 0x8)] } }
theorem witness_SystemRegisters :
    (∀ y ∈ (kernelNums ++ monitorNums).flatMap fun n => [Syl.s (.movFromSys ⟨0, 5, n⟩), .s (.movToSys ⟨0, 1, n⟩), .s (.movToSys ⟨0, 2, n⟩)], Ready (calmWith fun x => inMonitor (rotVals x)) y) ∧
    (calmWith fun x => inMonitor (rotVals x)).cx.mon.active = true ∧
    (∀ y ∈ monitorNums.flatMap fun n => [Syl.s (.movFromSys ⟨0, 5, n⟩), .s (.movToSys ⟨0, 5, n⟩)], Ready calm y) ∧ calm.cx.mon.active = false ∧
    let v := sv (calmWith rotVals) 1
    (v.extractLsb' 0 11).toNat % 16 = 0 ∧ v.extractLsb' 0 11 ≠ 0 ∧ (v.extractLsb' 16 11).toNat < 2048 - (v.extractLsb' 0 11).toNat ∧ ((sv (calmWith rotVals) 2).extractLsb' 0 11).toNat % 16 ≠ 0 :=
  ⟨ready_of _ _ (by decide +kernel), by decide +kernel, ready_of _ _ (by decide +kernel), by decide +kernel, by decide +kernel⟩

theorem witness_TrapEntry : calm.cx.mon.active = false ∧ (calmWith inMonitor).cx.mon.active = true ∧ ({ code := 9 } : Trap).dropFail = none ∧ ({ code := 9 } : Trap).staged = none := by
  decide +kernel
theorem witness_MonitorCalls : (∀ y ∈ [Syl.s (.trap ⟨0, 0x3FFF⟩), .s (.esc ⟨0, 63⟩), .s (.mret ⟨0⟩), .s (.ctxsave ⟨0, 1⟩), .s (.ctxrest ⟨0, 1⟩), .s (.ctxsw ⟨0⟩), .s (.wpset ⟨0, 3⟩), .s (.wpclr ⟨0, 3⟩)],
    Ready calm y ∧ Ready (calmWith inMonitor) y) ∧ calm.cx.mon.active = false ∧ (calmWith inMonitor).cx.mon.active = true :=
  ⟨fun y h => ⟨ready_of _ _ (by decide +kernel) y h, ready_of _ _ (by decide +kernel) y h⟩, by decide +kernel, by decide +kernel⟩

/-- Unit 600 is absent, unit 3 outside the footprint. -/
def partAbsent : State := calmWith fun x => { x with prog := { x.prog with footprint := [1, 600], absent := [600] } }
/-- A primary in its monitor, with a parked secondary of its tenant on its core. -/
def withMate : State := { calmWith inMonitor with others := [(1, { run := { state := .parked } })] }
theorem witness_SystemInstructions : (∀ y ∈ [Syl.s (.yield ⟨0⟩), .s (.pmq ⟨0, 5, 0x1058⟩), .s (.pmq ⟨0, 5, 1⟩), .s (.pmq ⟨0, 5, 3⟩), .s (.pmpull ⟨0, 0x1058⟩), .s (.pmpull ⟨0, 1⟩), .s (.dstop ⟨0, 7⟩),
      .s (.rdtick ⟨0, 5⟩), .s (.rdcyc ⟨0, 5⟩)], Ready partAbsent y) ∧ 3 ∉ partAbsent.cx.prog.footprint ∧ 512 + 88 ∈ partAbsent.cx.prog.absent ∧ 1 ∉ partAbsent.cx.prog.absent ∧
    (∀ y ∈ [Syl.s (.ctxsave ⟨0, 5⟩), .s (.ctxrest ⟨0, 5⟩), .s (.ctxsw ⟨0⟩), .s (.wpset ⟨0, 3⟩), .s (.wpclr ⟨0, 0⟩)], Ready (calmWith inMonitor) y) ∧
    isPrim (calmWith inMonitor) calm.cid = true ∧ Quiet withMate ∧ withMate.cx.mon.active = true ∧ isPrim withMate withMate.cid = true ∧ guardOn withMate.cx.r 0 = true ∧
    (getCtx withMate (otherSlot withMate.cid)).run.state ≠ .empty ∧ (getCtx withMate (otherSlot withMate.cid)).prog.tenant = withMate.cx.prog.tenant :=
  ⟨ready_of _ _ (by decide +kernel), by decide +kernel, by decide +kernel, by decide +kernel, ready_of _ _ (by decide +kernel), by decide +kernel, quiet_of _ (by decide +kernel), by decide +kernel,
    by decide +kernel, by decide +kernel, by decide +kernel, by decide +kernel⟩

/-- Channel 0 has transfer 9 of 10 incomplete and a failure of transfer 3; s1 to s4 name 3, 8, 9 and 11. -/
def waiting : State := calmWith fun x => { x with
  r := { x.r with s := [(1, 3), (2, 2), (3, 9), (4, 11)] }
  con := { x.con with c0 := { tid := 10, xfers := [{ tid := 9, op := .sfence ca0 }], fails := [(3, 0x0A)] } } }
theorem witness_WaitDone : (∀ y ∈ [Syl.s (.wdone ⟨0, 0, 1⟩), .s (.wdone ⟨0, 0, 2⟩), .s (.wdone ⟨0, 0, 3⟩), .s (.wdone ⟨0, 0, 4⟩), .s (.wdone ⟨0, 1, 0⟩)], Ready waiting y) ∧ waiting.cx.mon.active = false ∧
    let c := waiting.cx.con.c0
    let done : W32 := (c.xfers.head?.map (·.tid)).getD (c.tid + 1)
    let u := fun n => (sv waiting n).setWidth 32
    let issued := fun (u : W32) => (c.tid - u).toNat < 2 ^ 31
    let complete := fun (u : W32) => 1 ≤ (done - u).toNat ∧ (done - u).toNat ≤ 2 ^ 31
    let bad := fun (u : W32) => c.fails.find? fun f => decide ((u - f.1).toNat < 2 ^ 31)
    ¬ issued (u 4) ∧ (issued (u 2) ∧ complete (u 2) ∧ bad (u 2) = none) ∧ (issued (u 3) ∧ ¬ complete (u 3)) ∧ issued (u 1) ∧ complete (u 1) ∧ bad (u 1) = some (3, 0x0A) :=
  ⟨ready_of _ _ (by decide +kernel), by decide +kernel, by decide +kernel⟩

/-! ### L and K slots -/

def fullStack : State := calmWith (withRegs fun r => { r with rstack := [4, 8, 12, 16, 20, 24, 28, 32] })
theorem witness_BranchesAndPredicates : (∀ y ∈ [Syl.l (.br ⟨0, 0x7FFFF⟩), .l (.call ⟨0, 0x80000⟩), .l (.ret ⟨0⟩), .l (.bset ⟨0, 7, 0x10000⟩), .l (.bstep ⟨0, 7, 0xFFFF⟩), .l (.qset ⟨0, 255⟩),
      .l (.ifence ⟨0⟩)], Ready calm y ∧ Ready fullStack y) ∧ calm.cx.r.rstack.length < 8 ∧ calm.cx.r.rstack = [] ∧ 8 ≤ fullStack.cx.r.rstack.length ∧
    fullStack.cx.r.rstack = [4, 8, 12, 16, 20, 24, 28] ++ [32] :=
  ⟨fun y h => ⟨ready_of _ _ (by decide +kernel) y h, ready_of _ _ (by decide +kernel) y h⟩, by decide +kernel, by decide +kernel, by decide +kernel, by decide +kernel⟩

/-- Loop 3 is in its last pass, loop 2 goes on; the others are inactive. -/
def looping : State := calmWith (withRegs fun r => { r with
  s := [(1, 2 ^ 32 - 1), (2, 2 ^ 32)]
  loops := #v[{}, {}, { active := true, count := 3, stages := 8, passes := 10, iter := 1, start := 16 }, { active := true, count := 1, stages := 1, passes := 1 }] })
theorem witness_Loops : (∀ y ∈ [Syl.l (.loopImm ⟨0, 3, 0x3FFF, 7⟩), .l (.loop ⟨0, 0, 1, 7⟩), .l (.loop ⟨0, 0, 2, 0⟩), .l (.loop ⟨0, 0, 0, 0⟩), .l (.lend ⟨0, 0⟩), .l (.lend ⟨0, 2⟩), .l (.lend ⟨0, 3⟩),
      .l (.lexit ⟨0, 0⟩), .l (.lexit ⟨0, 3⟩)], Ready looping y) ∧ (sv looping 1).toNat < 2 ^ 32 ∧ 2 ^ 32 ≤ (sv looping 2).toNat ∧ (loopGet looping.cx.r 0).active = false ∧
    (loopGet looping.cx.r 2).active = true ∧ (loopGet looping.cx.r 3).active = true := ⟨ready_of _ _ (by decide +kernel), by decide +kernel⟩

/-- 0xFFF: the last offset of `dict` reaches the monitor's pages; 0xEF1 ends just before them. -/
def twoPages : State := { calm with cores := [(0, { map0 := [(0, 1), (1, 2)] })] }
def idleFail : State := calmWith fun x => { x with con := { x.con with c1 := { tid := 4, fails := [(4, 0x13)] } } }
theorem witness_TemplateLoad : (∀ y ∈ [Syl.l (.dict ⟨0, 0⟩), .l (.dict ⟨0, 0xEF1⟩), .l (.dict ⟨0, 0xEF2⟩)], Ready twoPages y) ∧ 64 * 0xEF1 + 960 ≤ 0x3C000 ∧ ¬ 64 * 0xEF2 + 960 ≤ 0x3C000 ∧
    fetchByte twoPages twoPages.cid twoPages.cx (64 * 0xEF1) = none ∧ ((List.range 960).all fun k => (fetchByte twoPages twoPages.cid twoPages.cx k).isSome) = true :=
  ⟨ready_of _ _ (by decide +kernel), by decide, by decide, by decide +kernel, by decide +kernel⟩
theorem witness_RunEnd : Ready calm (.l (.kend ⟨0⟩)) ∧ Ready waiting (.l (.kend ⟨0⟩)) ∧ Ready idleFail (.l (.kend ⟨0⟩)) ∧ calm.cx.prog.kind01 = false ∧ calm.cx.con.c0.xfers = [] ∧ calm.cx.con.c1.xfers = [] ∧
    calm.cx.con.c0.fails = [] ∧ calm.cx.con.c1.fails = [] ∧ waiting.cx.con.c0.xfers ≠ [] ∧ waiting.cx.prog.kind01 = false ∧ idleFail.cx.con.c0.fails = [] ∧ idleFail.cx.con.c1.fails.head? = some (4, 0x13) ∧
    idleFail.cx.con.c1.xfers = [] ∧ Ready (calmWith fun x => { x with prog := { x.prog with kind01 := true } }) (.l (.kend ⟨0⟩)) :=
  ⟨ready_of _ [_] (by decide +kernel) _ (List.mem_singleton_self _), ready_of _ [_] (by decide +kernel) _ (List.mem_singleton_self _), ready_of _ [_] (by decide +kernel) _ (List.mem_singleton_self _),
    by decide +kernel, by decide +kernel, by decide +kernel, by decide +kernel, by decide +kernel, by decide +kernel, by decide +kernel, by decide +kernel, by decide +kernel, by decide +kernel,
    ready_of _ [_] (by decide +kernel) _ (List.mem_singleton_self _)⟩

/-- b0 at the last 128 bytes of the scratchpad, b1 one byte on; b2 a panel whose pages are Q4, b3 one whose second page is not, b4 the last page, b5 no panel. -/
def panels : State := calmWith fun x => { x with
  r := { x.r with b := [(0, 0x1FFF80), (1, 0x1FFF81), (2, 0x1000), (3, 0x2000), (4, 0x1FF000), (5, 0x4000), (6, 0x200000), (7, 12)] }, sys := { x.sys with tags := [(1, 0x60), (2, 0x60), (511, 0x60)] } }
theorem witness_ScaleLatches : (∀ y ∈ [Syl.k (.kld ⟨0, 3, 0, 0⟩), .k (.kld ⟨0, 0, 1, 0⟩), .k (.kldp ⟨0, 1, 2, 0⟩), .k (.kldp ⟨0, 1, 2, 1⟩), .k (.kldp ⟨0, 1, 3, 1⟩), .k (.kldp ⟨0, 1, 4, 1⟩), .k (.kldp ⟨0, 1, 5, 0⟩),
      .k (.kldp ⟨0, 1, 6, 0⟩), .k (.kldp ⟨0, 1, 7, 0⟩), .k (.kfill ⟨0, 3, 255⟩), .k (.kcpy ⟨0, 3, 0⟩)], Ready panels y) ∧ AllPresent panels ∧ UnitsPresent panels [0x1FFF80 / 4096, (0x1FFF80 + 127) / 4096] ∧
    (bGet panels.cx.r 0).toNat + 128 ≤ 0x200000 ∧ 0x200000 < (bGet panels.cx.r 1).toNat + 128 ∧ (tagAt panels.cx 0x1000).toNat / 4 = 0x18 ∧
    (let at_ := fun (b o p : Nat) => let n := o * 128 + p; b + n / (4096 / 17) * 4096 + n % (4096 / 17) * 17 + 16
     (∀ p, p < 128 → at_ 0x1000 0 p < 0x200000 ∧ tagAt panels.cx (at_ 0x1000 0 p) = 0x60) ∧
     (∀ q, q < 112 → at_ 0x2000 1 q < 0x200000 ∧ tagAt panels.cx (at_ 0x2000 1 q) = 0x60) ∧ tagAt panels.cx (at_ 0x2000 1 112) ≠ 0x60 ∧
     (∀ q, q < 112 → at_ 0x1FF000 1 q < 0x200000 ∧ tagAt panels.cx (at_ 0x1FF000 1 q) = 0x60) ∧ 0x200000 ≤ at_ 0x1FF000 1 112) ∧ (tagAt panels.cx 0x4000).toNat / 4 ≠ 0x18 ∧
    (tagAt panels.cx 0x4000).toNat / 4 ≠ 0x19 :=
  ⟨ready_of _ _ (by decide +kernel), present_of _ (by decide +kernel), units_of _ _ (by decide +kernel), by decide +kernel, by decide +kernel, by decide +kernel, by decide +kernel, by decide +kernel,
    by decide +kernel⟩

/-! ### VA and VB slots -/

def allHere (s : State) : Bool := s.cx.prog.footprint == List.range 800 && s.cx.prog.absent.isEmpty
theorem checked_of (s : State) (l : List Syl) (h : (readyCheck s l && l.all (passesCheck s) && allHere s) = true) : ∀ y ∈ l, Ready s y ∧ PassesChecks s y ∧ AllPresent s := by
  simp only [Bool.and_eq_true, List.all_eq_true] at h
  exact fun y hy => ⟨ready_of s l h.1.1 y hy, passes_of s y (h.1.2 y hy), present_of s h.2⟩
theorem vready_of (s : State) (sd : Side) (l : List VSyl) (h : (readyCheck s (l.map (.v sd)) && (l.map (Syl.v sd)).all (passesCheck s) && allHere s) = true) : ∀ y ∈ l, VReady s sd y :=
  fun y hy => checked_of s _ h (.v sd y) (List.mem_map_of_mem hy)
theorem mready_of (s : State) (l : List MSyl) (h : (readyCheck s (l.map .m) && (l.map Syl.m).all (passesCheck s) && allHere s) = true) : ∀ y ∈ l, MReady s y :=
  fun y hy => checked_of s _ h (.m y) (List.mem_map_of_mem hy)

/-- Forms of more than one row and of fewer than 64 columns, with masks and lanes that the sides' files hold. -/
def vectors : State := calmWith fun x => { x with
  r := { x.r with b := [(0, 0x1FFF00), (1, 0x1FFE00), (2, 0x1FFE02), (3, 0x200000), (4, 4096)] }
  va := { rows := [(4, 0x3F8000007FC000017F800000)], masks := [(3, 0x5)], base := 16, rot := 3 }, vb := { rows := [(4, 0x80000001)], masks := [(3, 2 ^ 63)] }
  ctl := { x.ctl with forms := .ofFn fun i => if i.val < 16 then (if i.val % 8 = 2 then 0x118400 else 0x1FC000) else formReset (i.val / 8) }
  sys := { x.sys with tags := [(510, 0x40), (511, 0x40)] } }
def floats2 : List (VR → VSyl) := [.vaddF32, .vsubF32, .vmulF32, .vaddBf16, .vsubBf16, .vmulBf16, .vaddF16, .vsubF16, .vmulF16, .vcvtBf16F32, .vcvtF16F32]
def floats1 : List (VR → VSyl) := [.vrecipF32, .vrsqrtF32, .vsqrtF32, .vexp2F32, .vlog2F32, .vsinpiF32, .vcospiF32, .vrecipBf16, .vrsqrtBf16, .vsqrtBf16, .vexp2Bf16, .vlog2Bf16, .vsinpiBf16,
  .vcospiBf16, .vcvtF32I32, .vcvtI32F32, .vcvtE4m3F32, .vcvtE5m2F32, .vredsumF32]
def floats3 : List (V3 → VSyl) := [.vfmaF32, .vfmsF32, .vfnmaF32, .vfmaBf16, .vfmaF16]
def lanes2 : List (VR → VSyl) := [.vminF32, .vmaxF32, .vminBf16, .vmaxBf16, .vaddI32, .vsubI32, .vmulI32, .vmulhI32, .vaddsI32, .vsubsI32, .vminI32, .vmaxI32, .vminN32, .vmaxN32, .vand, .vor, .vxor,
  .vshl, .vshr, .vsra, .vperm, .vzip, .vunzip, .vpmulP16, .vpmulP8]
def lanes1 : List (VR → VSyl) := [.vabsF32, .vnegF32, .vclassF32, .vcvtF32Bf16, .vcvtF32F16, .vcvtF32E4m3, .vcvtF32E5m2, .vrotl, .vbcast, .vredmaxF32, .vredminF32,
  .vredsumI32, .vxfer, .vpscP16, .vpsumP16, .vpresP16, .vplenP16]
def masks2 : List (VR → VSyl) := [.vcmpeqF32, .vcmpltF32, .vcmpleF32, .vcmpunF32, .vcmpeqBf16, .vcmpltBf16, .vcmpeqI32, .vcmpltI32, .vcmpltN32, .vmand, .vmor, .vmxor, .vpcmpP16]
/-- Three sources in different banks (03 R39). -/
def v3r : V3 := { v3 with vsc := 9 }
/-- Every syllable of the slot that reads and writes registers only: in one row and every lane, and in stochastic mode, two rows of seven lanes and under a mask. -/
def vectorForms : List VSyl :=
  ((floats2 ++ lanes2).map fun f => f vr) ++ ((floats1 ++ lanes1).map fun f => f vr1) ++ floats3.map (fun f => f v3r) ++ masks2.map (fun f => f vr) ++
  floats2.map (fun f => f { vr with rm := 4, mask := 3, form := 1 }) ++ floats1.map (fun f => f { vr1 with rm := 4, mask := 3, form := 1 }) ++
  floats3.map (fun f => f { v3r with rm := 4, mask := 3, form := 1 }) ++
  [.vquantQ4 vr1, .vdequantQ4 vr1, .vquantQ8 vr1, .vsel v3r, .vshl { vr1 with imm := 287 }, .vsra { vr1 with imm := 256 }, .vrotl { vr1 with imm := 319 }, .vbcast { vr1 with imm := 63 }, .vzip { vr with imm := 1 }, .vunzip { vr with imm := 1 },
   .vcvtF32Bf16 { vr1 with imm := 1 }, .vcvtF32E4m3 { vr1 with imm := 3 }, .vcvtE5m2F32 { vr1 with imm := 3 }, .vquantQ4 { vr1 with imm := 3 }, .vquantQ8 { vr1 with imm := 2 }, .vcvtF32I32 { vr1 with rm := 1 },
   .vpsumP16 { vr1 with imm := 3 }, .vpscP16 { vr1 with imm := 3 }, .vpcvtP8 vr, .vpcvtP8 { vr1 with imm := 1 }, .vpcvtP8 { vr1 with imm := 3 }, .vmnot { vr1 with vd := 15, vsa := 0 },
   .vrng { vr1 with vsa := 0, form := 1 }, .vrngset { vr1 with vd := 0, imm := 1 }, .vrngset { vr1 with vd := 0 }, .vcmpltF32 { vr with vd := 15, mask := 3 }, .vpcmpP16 { vr with imm := 31 }]
theorem vector_ready : ∀ y ∈ vectorForms, VReady vectors .a y := vready_of _ _ _ (by decide +kernel)
theorem vector_ready_b : ∀ y ∈ [VSyl.vaddI32 vr, .vshl vr, .vcmpltN32 vr, .vpcmpP16 vr], VReady vectors .b y := vready_of _ _ _ (by decide +kernel)
/-- What the hypotheses of the statements on the slot's syllables ask for; the masks of a form of fewer lanes; a register off the rows of a form. -/
theorem witness_VectorFloats : (∀ y ∈ vectorForms, VReady vectors .a y) ∧ formRows (vform vectors .a (.vaddF32 { vr with form := 1 }) 1) = 2 ∧
    OffRows vectors .a 2 2 0 ∧ laneOn vectors .a (.vaddF32 vr) 1 3 0 = true ∧ laneOn vectors .a (.vaddF32 vr) 1 3 1 = false ∧ laneOn vectors .a (.vaddF32 vr) 1 0 7 = false :=
  ⟨vector_ready, by decide +kernel, by unfold OffRows; decide +kernel, by decide +kernel, by decide +kernel, by decide +kernel⟩
theorem witness_VectorIntegers : ∀ y ∈ (lanes2 ++ masks2).map fun f => f vr, VReady vectors .a y := fun y h =>
  vector_ready y (by simp only [List.map_append, List.mem_append, vectorForms] at h ⊢; rcases h with h | h <;> simp [h])
theorem witness_VectorConversions : ∀ y ∈ [VSyl.vquantQ4 vr1, .vdequantQ4 vr1, .vquantQ8 vr1, .vpcvtP8 { vr1 with imm := 3 }, .vcvtF32E4m3 { vr1 with imm := 3 }], VReady vectors .a y :=
  fun y h => vector_ready y (by simp only [vectorForms, List.mem_append, List.mem_cons, List.not_mem_nil, or_false] at h ⊢; rcases h with h | h | h | h | h <;> simp [h])
theorem witness_VectorPermutes : ∀ y ∈ [VSyl.vrng { vr1 with vsa := 0, form := 1 }, .vrngset { vr1 with vd := 0, imm := 1 }, .vrngset { vr1 with vd := 0 }, .vmnot { vr1 with vd := 15, vsa := 0 }],
    VReady vectors .a y :=
  fun y h => vector_ready y (by simp only [vectorForms, List.mem_append, List.mem_cons, List.not_mem_nil, or_false] at h ⊢; rcases h with h | h | h | h <;> simp [h])
theorem witness_VectorReductions : ∀ y ∈ [VSyl.vredsumF32 { vr1 with rm := 4, mask := 3, form := 1 }, .vredsumF32 vr1, .vpsumP16 { vr1 with imm := 3 }], VReady vectors .a y :=
  fun y h => vector_ready y (by simp only [vectorForms, floats1, List.mem_append, List.mem_cons, List.not_mem_nil, or_false, List.map_cons] at h ⊢; rcases h with h | h | h <;> simp [h])

def vmem : List (VM → VSyl) := [.vldF32, .vldI32, .vldBf16, .vldF16, .vstF32, .vstI32, .vstBf16, .vstF16]
/-- A row at the top of the scratchpad, two rows at its end, an address that is misaligned, one outside, and one whose page has another tag. -/
theorem vmem_ready : ∀ y ∈ vmem.flatMap fun f => [f vm, f { vm with b := 1, form := 1 }, f { vm with b := 2 }, f { vm with b := 3 }, f { vm with b := 4 }, f { vm with off := 4 }], VReady vectors .b y :=
  vready_of _ _ _ (by decide +kernel)
theorem witness_VectorMemory : Unwatched vectors ∧
    (∀ l, l < 64 → let a := vmLane vectors vm 0 l; a % 4 = 0 ∧ 0 ≤ a ∧ a + 4 ≤ 0x200000 ∧ tagAt vectors.cx a.toNat = 0x40) ∧
    (∀ i, i < 2 → ∀ l, l < 7 → let a := vmLane vectors { vm with b := 1, form := 1 } i l; a % 4 = 0 ∧ 0 ≤ a ∧ a + 4 ≤ 0x200000 ∧ tagAt vectors.cx a.toNat = 0x40) ∧
    vmLane vectors { vm with b := 2 } 0 0 % 4 ≠ 0 ∧ 0x200000 < vmLane vectors { vm with b := 3 } 0 0 + 4 ∧
    (vmLane vectors { vm with off := 4 } 0 0 + 4 ≤ 0x200000 ∧ vmLane vectors { vm with off := 4 } 0 0 % 4 = 0 ∧ 0x200000 < vmLane vectors { vm with off := 4 } 0 63 + 4) ∧
    vmLane vectors { vm with b := 4 } 0 0 % 4 = 0 ∧ tagAt vectors.cx (vmLane vectors { vm with b := 4 } 0 0).toNat ≠ 0x40 :=
  ⟨unwatched_of _ (by decide +kernel), by decide +kernel, by decide +kernel, by decide +kernel⟩

/-! ### M slot -/

/-- A result that is no error and of which `f` holds. -/
def okSat {ε α : Type} (x : Except ε α) (f : α → Bool) : Bool :=
  match x with
  | .ok a => f a
  | .error _ => false
theorem okSat_of {ε α : Type} (x : Except ε α) (f : α → Bool) (h : okSat x f = true) : ∃ a, x = .ok a ∧ f a = true := by
  cases x <;> simp_all [okSat]

/-- Pages at either end of the scratchpad have the tag; the pipes and the drain pointer stand at panels in it, tile 1 is in phasor mode. -/
def tagged (tag : Nat) (mode : Nat) (f : Mat → Mat) : State := calmWith fun x => { x with
  sys := { x.sys with tags := [0, 1, 2, 3, 4, 5, 508, 509, 510, 511].map fun i => (i, .ofNat 8 tag) }
  m := f { x.m with mpa := 0xA000000000000000, mpb := 0xA000000000001000, mpd := 0xA000000000000100, t0 := { mode := .ofNat 2 mode }, t1 := { mode := 2 } }
  prog := { x.prog with scratch := [(0, 0x38), (1, 0xC0), (4096, 0x40)] } }
def fp8s : State := tagged 0x4C 0 id
def q4s : State := tagged 0x61 0 fun m => { m with mpa := 0xA000000000000000 }
def filled : State := tagged 0x4C 0 fun m => { m with held := { filled := true, code := 0x13, raw := 0x38, scale := 0 } }
def anchored : State := tagged 0x4C 1 fun m => { m with t0 := { mode := 1, anchor := 2028 } }
def phasors : State := tagged 0x70 2 id
/-- Panels at indices 0 and 1, lent registers of either file in each format. -/
def pushes : List MSyl := [.mpush mo, .mpush { mo with src := 1, disp := 2 }, .mpush { mo with src := 2, v := 5, fmt := 6 }, .mpush { mo with src := 3, v := 2047, fmt := 0 }]
def negs : List MSyl := [.mpush { mo with disp := .ofInt 23 (-1) }, .macc { mo with disp := .ofInt 23 (-1) }]
def clears : List MSyl := [.mexact mo, .mexact { mo with acc := 1, row := 1 }, .manch { mo with disp := 1023 }, .manch { mo with disp := .ofInt 23 (-1024) }, .mzero mo, .mzero { mo with acc := 1 },
  .mrow { mo with row := 127 }, .mrow { mo with acc := 1, row := 3 }]

theorem fp8s_ready : ∀ y ∈ pushes ++ negs ++ clears ++ [MSyl.mshift { mo with row := 1 }, .macc mo, .macc { mo with src := 1 }, .maccp mo, .macc { mo with acc := 1 }], MReady fp8s y :=
  mready_of _ _ (by decide +kernel)
theorem filled_ready : ∀ y ∈ pushes ++ [MSyl.mshift { mo with row := 1 }, .mshift { mo with row := 127 }, .macc { mo with src := 1 }], MReady filled y := mready_of _ _ (by decide +kernel)

theorem witness_TilesAndEdges_modes : (tileGet fp8s.cx.m 0).mode ≠ 2 ∧ (tileGet fp8s.cx.m 1).mode = 2 ∧ fp8s.cx.m.held.filled = false ∧ filled.cx.m.held.filled = true ∧
    fp8s.cx.run.kSched = .replicate 4 none ∧ fp8s.cx.run.kWall = .replicate 4 none := by decide +kernel
def edgeFound (s : State) (o : MO) (col : Bool) : Bool :=
  okSat (fetchPanels (loneStart s (.m (.mpush o))) (loneIss s (.m (.mpush o))) o.disp.toInt.toNat (!col) col (fun c => elemWidth c != 0) none) fun e =>
    (List.range 128).all fun p => decide (((if col then e.2.1 else e.1).2[p]?).getD 0 < 2 ^ 16)
/-- A panel of FP8 on the column side and one of Q4 on the row side. -/
theorem witness_TilesAndEdges : edgeFound fp8s { mo with src := 1, disp := 2 } true = true ∧ MReady q4s (.mpush mo) ∧ edgeFound q4s mo false = true :=
  ⟨by decide +kernel, mready_of _ [_] (by decide +kernel) _ (List.mem_singleton_self _), by decide +kernel⟩

/-- The edges of an accumulate are found. -/
def edgesFound (s : State) (o : MO) (phasor : Bool) : Bool :=
  (beatEdges o (loneIss s (.m (if phasor then .maccp o else .macc o))) phasor (beatStart s (if phasor then .maccp o else .macc o) o)).isOk
theorem witness_Accumulate : edgesFound fp8s mo false = true ∧ edgesFound phasors mo true = true := ⟨by decide +kernel, by decide +kernel⟩
theorem witness_Accumulate_ready : (∀ y ∈ [MSyl.macc { mo with disp := 2 }], MReady q4s y) ∧ (∀ y ∈ [MSyl.macc { mo with src := 2, fmt := 3 }], MReady anchored y) ∧ ∀ y ∈ [MSyl.maccp mo], MReady phasors y :=
  ⟨mready_of _ _ (by decide +kernel), mready_of _ _ (by decide +kernel), mready_of _ _ (by decide +kernel)⟩
theorem witness_Accumulate_latch : isPrim fp8s fp8s.cid = true ∧
    let s := { fp8s with cx := { fp8s.cx with run := { fp8s.cx.run with sched := 11, kSched := #v[some 5, none, some 6, none] } } }
    let iss : Iss := { v := s.cx, delta := 0, bundle := 0, next := 0, slot := 5 }
    iss.v.mon.active = false ∧ 5 + 6 ≤ iss.v.run.sched ∧ iss.v.run.sched < 6 + 6 := by decide +kernel

/-- 06 R138: the first panel, the last one, one of FP16 and panels of Q4 and Q8 at their positions' ends. -/
def panelFits (s : State) (off k : Nat) (fmt : Byte) : Bool :=
  let code := fmt.toNat / 4
  let w := elemWidth code / 8
  let q := decide (code = 0x18 ∨ code = 0x19)
  let z := if code = 0x18 then 17 else 33
  let e := if code = 0x18 then k % 32 / 2 else k % 32
  let n := fun p => k / 32 * 128 + p
  let at_ := fun p => if q then off + n p / (4096 / z) * 4096 + n p % (4096 / z) * z + e else off + (k * 128 + p) * w
  (decide (code ≠ 0x18) || k % 2 == 0) && (if q then off % 4096 == 0 else decide (0 < w) && off % w == 0) && fmtLegal fmt && decide (off < 2 ^ 21) && tagAt s.cx off == fmt &&
    (List.range 128).all fun p => decide (at_ p + max 1 w ≤ 2 ^ 21) && tagAt s.cx (at_ p) == fmt
theorem witness_PanelBytes : AllPresent (tagged 0x48 0 id) ∧ AllPresent (tagged 0x61 0 id) ∧ panelFits (tagged 0x4C 0 id) (2 ^ 21 - 128) 0 0x4C = true ∧ panelFits (tagged 0x48 0 id) 2 7 0x48 = true ∧
    panelFits (tagged 0x61 0 id) 4096 34 0x61 = true ∧ panelFits (tagged 0x65 0 id) (2 ^ 21 - 12288) 33 0x65 = true :=
  ⟨present_of _ (by decide +kernel), present_of _ (by decide +kernel), by decide +kernel, by decide +kernel, by decide +kernel, by decide +kernel⟩

def drainvs : List MSyl := [.mdrainv { mo with src := 2, v := 2046, fmt := 0 }, .mdrainv { mo with src := 3, fmt := 3 }, .mdrainv { mo with src := 2, fmt := 4, row := 127 }, .mdrainv { mo with acc := 1, src := 3, fmt := 2 }]
def drains : List MSyl := [.mdrain { mo with fmt := 3 }, .mdrain { mo with fmt := 3, disp := 0x1FFE80 }, .mdrain { mo with acc := 1, fmt := 3 }, .mdrain { mo with fmt := 0, disp := 1 }]
theorem drains_ready : ∀ y ∈ drainvs ++ drains, MReady fp8s y := mready_of _ _ (by decide +kernel)
theorem witness_Drains : (∀ f ∈ [fp8s.cx.va, fp8s.cx.vb], f.rot.toNat < 2048 - f.base.toNat) ∧ Unwatched fp8s ∧ (tileGet fp8s.cx.m 1).mode = 2 ∧
    (fp8s.cx.m.mpd.toNat + (1 : Int)) % (4 : Nat) ≠ 0 ∧ drainCode ((tileGet fp8s.cx.m 0).mode == 2) 3 = 0x13 ∧
    ((fp8s.cx.m.mpd.toNat + (0x1FFE80 : Int)) - 0xA000000000000000).toNat + 128 ≤ 2 ^ 21 ∧ ∀ b, b < 128 → (tagAt fp8s.cx (0x1FFF80 + b)).toNat = 4 * 0x13 :=
  ⟨by decide +kernel, unwatched_of _ (by decide +kernel), by decide +kernel⟩
/-- A drain to shared memory across two of its pages. -/
def toDsm : State :=
  let s := { fp8s with cx := { fp8s.cx with m := { fp8s.cx.m with mpd := 0xB000000F00000FC0 }, prog := { fp8s.cx.prog with tenant := 3 } } }
  modDie s 0 fun d => { d with banks := [(3, 0xFFFFFFFFFFFFFFFF)], tags := [(0, 0x4C), (1, 0x4C)] }
theorem witness_Drains_shared : MReady toDsm (.mdrain { mo with fmt := 3 }) ∧ Unwatched toDsm ∧
    (∃ ts, drainSites (loneStart toDsm (.m (.mdrain { mo with fmt := 3 }))) toDsm.cid 0x13 (ctxPieces (loneStart toDsm (.m (.mdrain { mo with fmt := 3 }))) toDsm.cid 0xB000000F00000FC0 128) = .ok ts ∧
      (ts.all fun x => match x.place with | .peer _ _ _ => false | _ => true) = true) :=
  ⟨mready_of _ [_] (by decide +kernel) _ (List.mem_singleton_self _), unwatched_of _ (by decide +kernel), okSat_of _ _ (by decide +kernel)⟩

/-! ### C0 and C1 slots -/

def creadyCheck (s : State) (sd : Side) (y : CSyl) : Bool :=
  readyCheck s [.c sd y] && passesCheck s (.c sd y) && (((cView y).regs ++ (cView y).outs).all fun n => (pendingOf s.cx sd n).isNone) &&
    decide ((chanOf s.cx sd).xfers.length + (chanOf s.cx sd).fails.length < 64) && ((chanOf s.cx sd).xfers.all fun q => q.tid != (chanOf s.cx sd).tid + 1) &&
    s.cx.mon.watch.toList.all fun w => !w.armed
theorem cready_of (s : State) (sd : Side) (y : CSyl) (h : creadyCheck s sd y = true) : CReady s sd y := by
  simp only [creadyCheck, Bool.and_eq_true, decide_eq_true_eq] at h
  obtain ⟨⟨⟨⟨⟨h1, h2⟩, h3⟩, h4⟩, h5⟩, h6⟩ := h
  exact ⟨ready_of s _ h1 _ (List.mem_singleton_self _), passes_of s _ h2, by simpa only [List.all_eq_true, Option.isNone_iff_eq_none] using h3, h4, by simpa using h5, unwatched_of s h6⟩
theorem cready_all (s : State) (sd : Side) (l : List CSyl) (h : l.all (creadyCheck s sd) = true) : ∀ y ∈ l, CReady s sd y := fun y hy =>
  cready_of s sd y (List.all_eq_true.mp h y hy)

/-- d0, d1, d2 and so on of either side hold the numbers of a list; the form 1 of a channel has three rows 256 bytes apart. -/
def copying (l : List Nat) : State := calmWith fun x => { x with
  r := { x.r with d := (List.range l.length).map fun i => (i, .ofNat 64 ((l[i]?).getD 0)), e := (List.range l.length).map fun i => (i, .ofNat 64 ((l[i]?).getD 0)) }
  con := { x.con with c0 := { tid := 5 }, c1 := { tid := 0xFFFFFFFF } }
  ctl := { x.ctl with forms := .ofFn fun i => if i.val % 8 = 2 then 0xFC000 + 2 * 1024 + 256 * 2 ^ 32 else formReset (i.val / 8) } }
def home : Nat := 0xA000000000000000
def cOk (s : State) (sd : Side) (y : CSyl) : Bool := creadyCheck s sd y &&
  (!(cView y).ax || decide ((cArg s sd y 0).toNat / 2 ^ 60 ≠ 0xC)) && (!(cView y).ay || decide ((cArg s sd y 1).toNat / 2 ^ 60 ≠ 0xC)) && (cView y).stream == 0
theorem cOk_of (s : State) (sd : Side) (y : CSyl) (h : cOk s sd y = true) : CReady s sd y ∧ AtHome s sd y := by
  simp only [cOk, Bool.and_eq_true, Bool.or_eq_true, Bool.not_eq_true', decide_eq_true_eq, beq_iff_eq] at h
  obtain ⟨⟨⟨h1, h2⟩, h3⟩, h4⟩ := h
  exact ⟨cready_of s sd y h1, fun e => by simp_all, fun e => by simp_all, .inl h4⟩
theorem cOk_all (s : State) (sd : Side) (l : List CSyl) (h : l.all (cOk s sd) = true) : ∀ y ∈ l, CReady s sd y ∧ AtHome s sd y := fun y hy =>
  cOk_of s sd y (List.all_eq_true.mp h y hy)

def copies : List CSyl := [.copy1d ca, .copy2d ca, .copy3d ca, .gather ca, .scatter ca, .copy1dCs cs, .copy2dCs cs, .copy3dCs cs, .gatherCs { cs with rel := 1, scope := 3, stream := 0 }, .scatterCs cs]
def words8 : List CSyl := [.st32 cs, .st64 cs, .ld64 cs, .atomAdd cs, .atomAnd cs, .atomOr cs, .atomXor cs, .atomMax cs, .atomMin cs, .atomSwap { cs with s := 4 }, .atomCas { cs with s := 4 }]
/-- Descriptors at their limits: every copy is one byte of a row and a list of element size 1; one byte too many; the longest; a list too long. -/
def small : State := copying [home + 64, 0xB000000F00000100, 1, 4, 1]
def large : State := copying [home + 64, 0xB000000F00000100, 0x1000000010000, 0, 1]
def broad : State := copying [home + 64, 0xB000000F00000100, 0x1000100010000, 0, 0x100000000]
theorem witness_TransferIssue_copies (sd : Side) : (∀ y ∈ [CSyl.copy1d ca, .copy1dCs cs], CReady small sd y ∧ AtHome small sd y) ∧ (∀ y ∈ copies, CReady large sd y ∧ CReady broad sd y) ∧
    (∀ y ∈ [CSyl.copy2d ca, .copy3dCs cs], CReady large sd y ∧ AtHome large sd y) ∧ cArg small sd (.copy1d ca) 2 = 1 ∧
    (let a := cArg large sd (.copy2d ca) 2; a.toNat % 2 ^ 32 * (a.toNat / 2 ^ 32) ≤ 2 ^ 32 ∧ a.toNat / 2 ^ 32 ≠ 0) ∧
    (let a := cArg broad sd (.copy2d ca) 2; 2 ^ 32 < a.toNat % 2 ^ 32 * (a.toNat / 2 ^ 32) ∧ 65536 < a.toNat / 2 ^ 32) := by
  cases sd
  all_goals exact ⟨cOk_all _ _ _ (by decide +kernel), fun y hy => ⟨cready_all _ _ _ (by decide +kernel) y hy, cready_all _ _ _ (by decide +kernel) y hy⟩, cOk_all _ _ _ (by decide +kernel), by decide +kernel⟩
/-- A list of 65536 elements of 4096 bytes at the last word of the scratchpad. -/
theorem witness_TransferIssue_lists (sd : Side) : let s := copying [home, 0xB000000F00000100, 0x1000000001000, 0x1FFFFC]
    ∀ y ∈ [CSyl.gather ca, .scatter ca, .gatherCs cs, .scatterCs cs], CReady s sd y ∧ AtHome s sd y := by
  cases sd
  all_goals exact cOk_all _ _ _ (by decide +kernel)
def enqs : List CSyl := [.msaEnq cs, .msaDeq cs]
def banks : List CSyl := [.bankWadd ca, .bankAdd ca, .bankMax ca, .bankMin ca, .bankAdd { ca with form := 1 }]
theorem witness_TransferIssue_words (sd : Side) : (let s := copying [0xB000000F00000040, 15, 7]; ∀ y ∈ words8 ++ [.msaCas4 cs], CReady s sd y ∧ AtHome s sd y) ∧
    (let s := copying [0xB000000F00000041, 0, 7]; ∀ y ∈ words8 ++ [.msaCas4 cs], CReady s sd y) ∧ (let s := copying [home + 64, 128, 7]; ∀ y ∈ enqs, CReady s sd y ∧ AtHome s sd y) ∧
    (let s := copying [home + 8, 128, 7]; ∀ y ∈ enqs, CReady s sd y) ∧ (let s := copying [home + 64, 8, 7]; ∀ y ∈ enqs, CReady s sd y) ∧
    (let s := copying [0xB000000F00000041, 0xFFFFF]; CReady s sd (.msaChase cs) ∧ AtHome s sd (.msaChase cs)) ∧ (let s := copying [0xB000000F00000041, 0x100000]; CReady s sd (.msaChase cs)) := by
  cases sd
  all_goals exact ⟨cOk_all _ _ _ (by decide +kernel), cready_all _ _ _ (by decide +kernel), cOk_all _ _ _ (by decide +kernel), cready_all _ _ _ (by decide +kernel), cready_all _ _ _ (by decide +kernel),
    cOk_of _ _ _ (by decide +kernel), cready_of _ _ _ (by decide +kernel)⟩
/-- Bank operations over the most elements; too many; on a destination that is no shared memory. -/
theorem witness_TransferIssue_banks (sd : Side) : (let s := copying [0xB000000F00000000, home, 0x100000]; (∀ y ∈ banks, CReady s sd y ∧ AtHome s sd y) ∧
      ∀ y ∈ banks, ∀ i, i < 3 → (cAt s sd y (cArg s sd y 0) i).toNat / 2 ^ 60 = 0xB ∧ (cAt s sd y (cArg s sd y 1) i).toNat / 2 ^ 58 ≠ 0x2A ∧
        (cAt s sd y (cArg s sd y 0) i).toNat % max 1 (bankSize (bankFmt s s.cid (cAt s sd y (cArg s sd y 0) i))) = 0 ∧
        (cAt s sd y (cArg s sd y 1) i).toNat % max 1 (bankSize (bankFmt s s.cid (cAt s sd y (cArg s sd y 0) i))) = 0) ∧
    (let s := copying [0xB000000F00000000, home, 0x100001]; ∀ y ∈ banks, CReady s sd y) ∧ (let s := copying [home, home, 0x100000]; ∀ y ∈ banks, CReady s sd y) := by
  cases sd
  all_goals exact ⟨⟨cOk_all _ _ _ (by decide +kernel), by decide +kernel⟩, cready_all _ _ _ (by decide +kernel), cready_all _ _ _ (by decide +kernel)⟩

/-- The window of core 1 for a multicast; a row up to the end of it; a misaligned one; one of too few bytes. -/
def window (core : Nat) : Nat := 0xA800000000000000 + core * 2 ^ 24
theorem witness_RowsSetOut_mcast (sd : Side) : (∀ s ∈ [copying [window 3, home + 2 ^ 21 - 256, 256], copying [window 1 + 2 ^ 21 - 4, home, 4], copying [window 1 + 2, home, 4], copying [window 1, home, 260],
      copying [window 0, home, 4]], CReady s sd (.mcast ca)) ∧ AllPresent (copying [window 3, home, 256]) ∧
    (let s := copying [window 1 + 2 ^ 21 - 4, home, 4]; (cAt s sd (.mcast ca) (cArg s sd (.mcast ca) 0) 0).toNat / 2 ^ 32 = 0xA8000000 ∧ cCount s sd (.mcast ca) = 1 ∧
      (cAt s sd (.mcast ca) (cArg s sd (.mcast ca) 0) 0).toNat % 2 ^ 21 + 4 ≤ 2 ^ 21) := by
  cases sd
  all_goals exact ⟨fun s h => by
    simp only [List.mem_cons, List.not_mem_nil, or_false] at h
    rcases h with rfl | rfl | rfl | rfl | rfl
    all_goals exact cready_of _ _ _ (by decide +kernel), present_of _ (by decide +kernel), by decide +kernel⟩
theorem witness_RowsSetOut_send (sd : Side) : (∀ s ∈ [copying [7, home + 2 ^ 21 - 256, 256], copying [0, home, 4], copying [8, home, 4], copying [0, home + 2, 4], copying [0, home + 2 ^ 21 - 4, 8]],
      CReady s sd (.send ca)) ∧ AllPresent (copying [7, home, 256]) ∧ isPrim (copying [7, home, 4]) (copying [7, home, 4]).cid = true ∧
    (let s := copying [0, home + 2 ^ 21 - 4, 8]; 2 ^ 21 < (cAt s sd (.send ca) (cArg s sd (.send ca) 1) 0).toNat % 2 ^ 21 + 8) := by
  cases sd
  all_goals exact ⟨fun s h => by
    simp only [List.mem_cons, List.not_mem_nil, or_false] at h
    rcases h with rfl | rfl | rfl | rfl | rfl
    all_goals exact cready_of _ _ _ (by decide +kernel), present_of _ (by decide +kernel), by decide +kernel, by decide +kernel⟩

/-- Entry 3 of core 0 holds four bytes, entry 15 eight that landed in this cycle. -/
def receiving (l : List Nat) : State := modCl (copying l) 0 fun k => { k with recv := [(3, [1, 2, 3, 4])], fresh := [(15, [1, 2, 3, 4, 5, 6, 7, 8])] }
def rv : CA := { ca with len := 0 }
theorem witness_ReceiveTakes (sd : Side) : (∀ s ∈ [receiving [home + 64, 3], receiving [home + 2 ^ 21 - 8, 15], receiving [home + 64, 4], receiving [home + 66, 3], receiving [home, 16], receiving [0, 3],
      receiving [home + 2 ^ 21 - 4, 15]], CReady s sd (.recv rv)) ∧ AllPresent (receiving [home + 64, 3]) ∧
    (let s := receiving [home + 2 ^ 21 - 4, 15]; 2 ^ 21 < (cArg s sd (.recv rv) 0).toNat % 2 ^ 21 + (tabGet [] (getCl s (ctxCl s.cid)).fresh 15).length) := by
  cases sd
  all_goals exact ⟨fun s h => by
    simp only [List.mem_cons, List.not_mem_nil, or_false] at h
    rcases h with rfl | rfl | rfl | rfl | rfl | rfl | rfl
    all_goals exact cready_of _ _ _ (by decide +kernel), present_of _ (by decide +kernel), by decide +kernel⟩

/-- An arrival stands on barrier 5 of level 1, flipped or not; its descriptor is 0x1503. -/
def leafOn (flipped : Bool) : Leaf := { id := ⟨1, 5⟩, desc := 0x1503, sent := flipped, phase := flipped, flipped := flipped, tid := 77, ch := .a, seq := 4 }
def atBar (d : Nat) (l : List Leaf) : State := let s := copying [d]; { s with cx := { s.cx with prog := { s.cx.prog with leaves := l, kind01 := true } } }
theorem witness_BarrierAndFenceIssue (sd : Side) : (∀ s ∈ [atBar 0x1503 [], atBar 0x1503 [leafOn true], atBar 0x1503 [leafOn false], atBar 0 [], atBar 0x12503 []], CReady s sd (.barArrive { ca0 with d := 0 }) ∧
      CReady s sd (.barWait { ca0 with d := 0 })) ∧ (∀ s ∈ [copying [0], copying [0xFFFF], copying [0x10000], copying [15], copying [16]], CReady s sd (.sfence { ca0 with d := 0 }) ∧ CReady s sd (.srst { ca0 with d := 0 })) ∧
    barLayout 0x1503 = true ∧ barLayout 0 = false ∧ barAllowed (atBar 0x1503 []) ⟨0, false⟩ 0x1503 = true ∧ (leafOf (atBar 0x1503 [leafOn false]).cx ⟨1, 5⟩).isSome = true := by
  cases sd
  all_goals refine ⟨fun s h => ?_, fun s h => ?_, by decide +kernel⟩
  all_goals
    simp only [List.mem_cons, List.not_mem_nil, or_false] at h
    rcases h with rfl | rfl | rfl | rfl | rfl
    all_goals exact ⟨cready_of _ _ _ (by decide +kernel), cready_of _ _ _ (by decide +kernel)⟩

/-! ### Transfers, the wheel and the brake -/

def performsCheck (s : State) (c : CtxId) (ch : Side) (q : Xfer) : Bool :=
  decide (findXfer (getCtx s c) ch q.tid = some q) && q.status == 0 && !acquireBlocked (getCtx s c) ch q && !releaseBlocked s c (getCtx s c) ch q && !streamBlocked (getCtx s c) ch q && q.planned && q.numbered &&
    !isFar s c q.x.toNat && !isFar s c q.y.toNat && (getCl s (ctxCl c)).brake.isNone && ((getCtx s c).mon.watch.toList.all fun w => !w.armed)
theorem performs_of (s : State) (c : CtxId) (ch : Side) (q : Xfer) (h : performsCheck s c ch q = true) : Performs s c ch q := by
  simp only [performsCheck, Bool.and_eq_true, decide_eq_true_eq, Bool.not_eq_true', beq_iff_eq, Option.isNone_iff_eq_none, List.all_eq_true] at h
  obtain ⟨⟨⟨⟨⟨⟨⟨⟨⟨⟨h1, h2⟩, h3⟩, h4⟩, h5⟩, h6⟩, h7⟩, h8⟩, h9⟩, h10⟩, h11⟩ := h
  exact ⟨h1, h2, h3, h4, h5, h6, h7, ⟨h8, h9⟩, h10, .inr fun k w e => h11 w (by
    rw [Vector.getElem?_eq_some_iff] at e; obtain ⟨hk, rfl⟩ := e; simp [Vector.mem_toList_iff])⟩
def inDsmCheck (s : State) (c : CtxId) (a : W64) (n : Nat) (rights : Need) (d off : Nat) : Bool :=
  decide (a.toNat / 2 ^ 60 = 0xB) && decide (0 < n) && decide (a.toNat % 4096 + n ≤ 4096) && okSat (siteOf s c a.toNat n rights) fun g => g.place == .dsm d off
theorem inDsm_of (s : State) (c : CtxId) (a : W64) (n : Nat) (rights : Need) (d off : Nat) (h : inDsmCheck s c a n rights d off = true) : InDsm s c a n rights d off := by
  simp only [inDsmCheck, Bool.and_eq_true, decide_eq_true_eq] at h
  obtain ⟨⟨⟨h1, h2⟩, h3⟩, h4⟩ := h
  obtain ⟨g, e, f⟩ := okSat_of _ _ h4
  exact ⟨h1, h2, h3, g, e, by simpa using f⟩

/-- The banks of dies 0 and 1 belong to tenant 3; a context of it has one transfer on a channel. -/
def doing (c : CtxId) (ch : Side) (q : Xfer) : State :=
  let die := fun (d : Die) => { d with banks := [(3, 0xFFFFFFFFFFFFFFFF)], dsm := [(0x10, 0x77), (0x40, 0x88), (0x47, 0x99)] }
  let s := modDie (modDie { placeWord State.reset 32 0 with now := 5000 } 0 die) 1 die
  modCtx s c fun x => { x with prog := { x.prog with tenant := 3 }, run := { x.run with state := .run }, con := if ch = .a then { c0 := { tid := 9, xfers := [q] } } else { c1 := { tid := 9, xfers := [q] } } }
def copyOf (op : CSyl) (l : List Nat) (phase : XPhase) : Xfer :=
  let a := l.map fun n => BitVec.ofNat 64 n
  { tid := 5, op := op, args := a, x := a.headD 0, y := (a[1]?).getD 0, planned := true, numbered := true, phase := phase }
def word40 : Nat := 0xB000000F00000040
def first : CtxId := ⟨0, false⟩
def far : CtxId := ⟨40, true⟩
def inD : CS := { cs with s := 4 }
def wheelOps : List CSyl := [.scLd64 inD, .scSt64 inD, .scSwap inD, .scAdd inD]
/-- Times before and at the position; the wheel's positions belong to core 0. -/
theorem witness_Wheel_performed : ∀ y ∈ wheelOps, ∀ c ∈ [first, far], let q := copyOf y [word40, 7] (.timed 5000)
    Performs (doing c .a q) c .a q ∧ Performs { doing c .b q with now := 4999 } c .b q ∧ ∀ r, InDsm (doing c .a q) c q.x 8 r (ctxDie c) 0x40 := by
  intro y hy c hc
  simp only [wheelOps, List.mem_cons, List.not_mem_nil, or_false] at hy hc
  rcases hy with rfl | rfl | rfl | rfl <;> rcases hc with rfl | rfl
  all_goals exact ⟨performs_of _ _ _ _ (by decide +kernel), performs_of _ _ _ _ (by decide +kernel), fun ⟨a, b, d, e⟩ => inDsm_of _ _ _ _ _ _ _ (by revert a b d e; decide +kernel)⟩
/-- A kernel of a region to which core 0's positions of the wheel belong. -/
def onWheel (now : Nat) (l : List Nat) : State := { copying l with now := now, regions := [region0] }
theorem witness_Wheel (sd : Side) : (∀ y ∈ wheelOps.map fun _ => CSyl.scAdd inD, CReady (onWheel 1023 [word40]) sd y) ∧
    (∀ y ∈ [CSyl.scLd64 cs, .scSt64 cs, .scSwap inD, .scAdd inD], CReady (onWheel 1023 [word40]) sd y ∧ CReady (copying [home]) sd y ∧ CReady (onWheel 1000 [word40 + 4]) sd y) ∧
    ownsAny (onWheel 1023 [word40]) 0 = true ∧ ownsAny (copying [home]) 0 = false ∧ (wheelKey (onWheel 1023 [word40]) 0).isSome = true := by
  cases sd
  all_goals exact ⟨cready_all _ _ _ (by decide +kernel), fun y h => ⟨cready_all _ _ _ (by decide +kernel) y h, cready_all _ _ _ (by decide +kernel) y h, cready_all _ _ _ (by decide +kernel) y h⟩,
    by decide +kernel⟩

/-- Cluster 0 is braked from cycle 10 on. -/
def brk : Brake := { cause := .absent, core := 0, bundle := 0x40, rpt := 0, slot := 0, loop := 0, stage := 0, iter := 0, first := 10, region := 7, serial := 9 }
def braked : State := modCl { placeWord State.reset 32 0x2F010100 with now := 5000 } 0 fun k => { k with brake := some brk, wall := 70, ctime := 12 }
/-- The primary waits at a `wdone` for a transfer that has failed. -/
def failing : Xfer := { tid := 5, op := .ld64 cs, args := [5], status := 0x0B }
def held : State := modCtx braked first fun x => { x with run := { x.run with state := .wait, hold := some (.wdone .a 5) }, con := { x.con with c0 := { tid := 9, xfers := [failing] } } }
def atBoundary : State := modCl held 0 fun k => { k with boundary := [.done first .a 5 0x0B []] }
def reg7 : Region := { id := 7, parent := some 0, pool := 0x20000, poolLen := 0x2000000, blk := .ofNat 2048 (2 ^ (8 * 0x14) * 3 + 5 * 2 ^ (8 * 0x54)) }
/-- The watchdog of the root region has run out; its pool has room for a group's images. -/
def expired : State :=
  let s := modCl (modCtx held first fun x => { x with run := { x.run with hold := none } }) 0 fun k => { k with wall := 10 + 2 ^ 17 + 5 }
  modCtx { s with regions := [{ region0 with pool := 0x20000, poolLen := 0x2000000 }, reg7] } first fun x => { x with prog := { x.prog with region := 7 } }
def early : State := modCl expired 0 fun k => { k with wall := 500 }
theorem witness_BrakeSteps : (getCl braked 0).brake = some brk ∧ condsNow (clearWaits braked 0) 0 = [] ∧ forced (clearWaits braked 0) 0 = false ∧ (getCl braked 0).boundary = [] ∧
    (getCl braked 0).net ++ (getCl braked 0).win = [] ∧ (getCl braked 0).trace.length < 64 ∧ condsNow (clearWaits held 0) 0 ≠ [] ∧
    (∃ d ∈ condsNow atBoundary 0, (first, Side.a, failing.tid) ∈ d.awaited) ∧ (getCl atBoundary 0).boundary = [.done first .a failing.tid failing.status []] ∧
    findXfer (getCtx atBoundary first) .a failing.tid = some failing ∧ failing.status ≠ 0 ∧ (getCl early 0).wall - brk.first < watchdog early 0 := by decide +kernel
theorem witness_BrakeSteps_watchdog : watchdog expired 0 ≤ (getCl expired 0).wall - brk.first ∧ forced expired 0 = false ∧ (getCl expired 0).boundary = [] ∧ primOf expired 0 = first ∧
    (getCtx expired first).run.state ≠ .empty ∧ (getCtx expired first).run.state ≠ .saving ∧ (getCtx expired first).run.hold = none ∧ (getCtx expired first).prog.builtin = false ∧
    (∀ j, j < 8 → j ≠ 0 → (getCtx expired (primOf expired j)).run.state = .empty) ∧
    ∃ r a a', poolOf expired 7 = some r ∧ poolPlace r groupSize = some a ∧ poolPlace { r with carved := (.ofNat 64 a, groupSize, 7) :: r.carved } imageSize = some a' := by
  refine ⟨by decide +kernel, by decide +kernel, by decide +kernel, by decide +kernel, by decide +kernel, by decide +kernel, by decide +kernel, by decide +kernel, by decide +kernel, ?_⟩
  have h : ((poolOf expired 7).any fun r => (poolPlace r groupSize).any fun a => (poolPlace { r with carved := (.ofNat 64 a, groupSize, 7) :: r.carved } imageSize).isSome) = true := by decide +kernel
  simp only [Option.any_eq_true, Option.isSome_iff_exists] at h
  obtain ⟨r, hr, a, ha, a', ha'⟩ := h
  exact ⟨r, a, a', hr, ha, ha'⟩

/-- Rows: one of three in VA, the last one in VB; a landing on core 0 and one on core 3, which holds no context; a multicast to cores 0 and 1. -/
def job (sd : Side) (r n : Nat) : RowJob := { slot := if sd = .a then 3 else 4, syl := .v sd (.vaddI32 { vr with form := 2 }), delta := 0, row := r, rows := n, due := 0 }
def rowOf (sd : Side) (r n : Nat) : State := calmWith fun x => { x with run := { x.run with rows := [job sd r n] } }
def onWay : NetRow := { due := 1, src := first, ch := .a, tid := 5, target := 0, off := 4096, region := 7, data := [1, 2, 3, 4] }
def timed5 : Xfer := { tid := 5, op := .sfence ca0, phase := .timed 1 }
def inNet (r : NetRow) : State := modCl (modCtx (doing first .a timed5) first fun x => { x with prog := { x.prog with region := 7 } }) 0 fun k => { k with net := [r], ctime := 5 }
/-- Eight bytes across two units of cores 0 and 1. -/
def cast : NetRow := { onWay with target := 3, off := 8188, data := [7, 8, 9, 10, 11, 12, 13, 14] }
def inWin (absent : List Nat) : State :=
  let s := modCtx (doing first .a timed5) first fun x => { x with prog := { x.prog with region := 7 } }
  let s := modCtx s ⟨1, false⟩ fun x => { x with run := { x.run with state := .run }, prog := { x.prog with region := 7, footprint := [1, 2], absent := absent } }
  modCl s 0 fun k => { k with win := [cast], ctime := 5 }
theorem witness_RowsAndLandings_rows : (∀ p ∈ [(Side.a, 1, 3), (.b, 1, 2)], let s := rowOf p.1 p.2.1 p.2.2; let j := job p.1 p.2.1 p.2.2
      s.cx.run.rows = [j] ∧ j.slot = (Syl.v p.1 (.vaddI32 vr)).slot.num ∧ j.clustered = false ∧ j.due ≤ (getCl s (ctxCl s.cid)).wall ∧ jobBanks s j = []) := by decide +kernel
theorem witness_RowsAndLandings : (∀ r ∈ [onWay, { onWay with target := 3 }], (getCl (inNet r) 0).brake = none ∧ condsNow (inNet r) 0 = [] ∧ (getCl (inNet r) 0).net = [r] ∧ r.due ≤ (getCl (inNet r) 0).ctime ∧
      r.data ≠ [] ∧ (findXfer (getCtx (inNet r) first) .a 5).isSome = true) ∧ residentOn (inNet onWay) 0 7 ≠ none ∧ residentOn (inNet onWay) 3 7 = none ∧
    (getCl (inWin []) 0).brake = none ∧ (getCl (inWin []) 0).win = [cast] ∧ mcastAbsent (inWin [2]) 0 cast ≠ [] ∧ mcastAbsent (inWin []) 0 cast = [] ∧ condsNow (inWin []) 0 = [] ∧
    (∀ i, i < 8 → bitAt cast.target i = true → (residentOn (inWin []) i 7).any (fun d => (scrUnits cast.off cast.data.length).all (getCtx (inWin []) d).prog.footprint.contains) = true) := by
  decide +kernel

/-- 10 R222-R224: one transfer of each kind on a word of shared memory, of a region's tenant, on either channel. -/
def relS : CS := { inD with scope := 1, rel := 1 }
def onWord : List CSyl := [.st64 cs, .st64 relS, .st32 cs, .st32 relS, .ld64 cs, .atomAdd inD, .atomAnd inD, .atomOr inD, .atomXor inD, .atomMax inD, .atomMin inD, .atomSwap inD, .atomCas inD]
theorem witness_TransferSteps : (∀ y ∈ onWord, ∀ p ∈ [(first, Side.a), (far, .b)], let q := copyOf y [word40, 0x1122334455667788] .running
      performsCheck (doing p.1 p.2 q) p.1 p.2 q = true ∧ inDsmCheck (doing p.1 p.2 q) p.1 q.x 8 { r := true, w := true, a := true } (ctxDie p.1) 0x40 = true) ∧
    (let q := { copyOf (.copy1d ca) [word40, 0xB000000000000010, 0x100000021] .running with segs := [(word40, 0xB000000000000010, 0x21)] }
     performsCheck (doing first .a q) first .a q = true ∧ inDsmCheck (doing first .a q) first q.x 0x21 { w := true } 0 0x40 = true ∧ inDsmCheck (doing first .a q) first q.y 0x21 { r := true } 0 0x10 = true) := by
  decide +kernel
def fenceQ : Xfer := copyOf (.sfence ca0) [7] .fenced
def badQ : Xfer := { copyOf (.ld64 cs) [word40, 5] .running with status := 0x0B }
/-- A release of die scope behind an older store. -/
def releasing : Xfer := { copyOf (.st64 { relS with scope := 5 }) [word40, 1] .running with tid := 6, issued := 2, seq := 9 }
def behind : State := modCtx (doing first .a (copyOf (.st64 cs) [word40, 1] .running)) first fun x => { x with con := { x.con with c0 := { x.con.c0 with xfers := x.con.c0.xfers ++ [releasing] } } }
def badBraked : State := modCl (doing first .a badQ) 0 fun k => { k with brake := some brk }
theorem witness_TransferSteps_rest : performsCheck (doing first .a fenceQ) first .a fenceQ = true ∧ (∀ ch, ∀ u ∈ (chanOf (getCtx (doing first .a fenceQ) first) ch).xfers, ¬ u.seq < fenceQ.seq) ∧
    (getCtx (doing first .a fenceQ) first).run.rows = [] ∧ findXfer (getCtx (doing first .a badQ) first) .a 5 = some badQ ∧ (getCl (doing first .a badQ) 0).brake = none ∧ badQ.pkts = [] ∧ badQ.queue = [] ∧
    findXfer (getCtx badBraked first) .a 5 = some badQ ∧ (getCl badBraked 0).brake ≠ none ∧ (getCtx badBraked first).run.state ≠ .saving ∧
    findXfer (getCtx behind first) .a 6 = some releasing ∧ releaseBlocked behind first (getCtx behind first) .a releasing = true := by
  refine ⟨by decide +kernel, fun ch => by cases ch <;> decide +kernel, by decide +kernel⟩

/-! ### Barriers, replicas, the gateways and pages -/

/-- Two participants of barrier 5 of cluster 0, parked, with horizons that differ. -/
def bar5 : BarId := ⟨1, 5⟩
def mate : CtxId := ⟨1, false⟩
def partOf (s : State) (c : CtxId) (sent : Bool) (h : Nat) : State := modCtx s c fun x => { x with
  run := { x.run with state := .parked, parkedOn := some bar5, last := 0 }
  con := { x.con with c0 := { tid := 5, xfers := [{ tid := 5, op := .barArrive ca0, args := [0x1503], phase := .atBarrier, seq := 9 }] } }
  prog := { x.prog with region := 7, leaves := [{ leafOn false with sent := sent, phase := false, tid := 5 }], spin := 8, horizon := (Vector.replicate 9 (0 : BitVec 24)).setIfInBounds h 5 } }
def noon : State := modCl (placeWord State.reset 32 0) 0 fun k => { k with ctime := 20, wall := 25 }
def pair : State := partOf (partOf noon first true 1) mate true 2
def lateXfers (s : State) : State := modCtx s first fun x => { x with con := { x.con with c1 := { tid := 4, xfers := [{ tid := 4, op := .sfence ca0, seq := 1 }] } } }
theorem witness_BarrierSteps_send : (leafOf (getCtx (partOf noon first false 1) first) bar5).any (fun l => !l.sent && !l.flipped && arrivalReady (getCtx (partOf noon first false 1) first) l) = true ∧
    (leafOf (getCtx (lateXfers (partOf noon first false 1)) first) bar5).any (fun l => !l.sent && !l.flipped && !arrivalReady (getCtx (lateXfers (partOf noon first false 1)) first) l) = true := by decide +kernel
/-- The last arrival and one that is not the last; the flip, and the flip under the brake. -/
def arriving (d : BitVec 48) : State := setRoot pair bar5 0 { arrived := [0], desc := d, inFlight := [(1, 20, d)] }
def flipping : State := setRoot pair bar5 0 { arrived := [0, 1], desc := 0x1503, flips := [(20, [0, 1])] }
def flippingBraked : State := modCl flipping 0 fun k => { k with brake := some brk }
def rootCheck (d : BitVec 48) : Bool := (getCl (arriving d) 0).brake.isNone && (getRoot (arriving d) bar5 0).inFlight == [(1, 20, d)] && decide (20 ≤ (getCl (arriving d) 0).ctime) &&
  (getRoot (arriving d) bar5 0).desc == d && !(getRoot (arriving d) bar5 0).arrived.isEmpty
theorem witness_BarrierSteps_root : rootCheck 0x1503 = true ∧ rootCheck 0x1507 = true := by decide +kernel
theorem witness_BarrierSteps_flip : (getRoot flipping bar5 0).flips = [(20, [0, 1])] ∧ 20 ≤ (getCl flipping 0).ctime ∧ (getCl flipping 0).brake = none ∧ (getCl flippingBraked 0).brake ≠ none ∧
    (getRoot flippingBraked bar5 0).flips = [(20, [0, 1])] ∧ (waitingLeaves flipping bar5 0 [0, 1] == [first, mate]) = true := by decide +kernel
def forwarded : RepWrite := { die := 1, dst := 8, clock := (Vector.replicate 9 (0 : BitVec 24)).setIfInBounds 1 1, pa := 65536 * 3 + 5, bytes := [1, 2, 3] }
theorem witness_BarrierSteps_replica : let s := { noon with repPages := [(3, 0x06)], repWrites := [forwarded] }
    s.repWrites = forwarded :: [] ∧ forwarded.dst = (8 : BitVec 4).toNat ∧ canApply s forwarded [] = true := by decide +kernel

/-- A package with one region of tenant 7: two mapped pages of 64 KiB and one of 2 MiB, a peer, two export windows. -/
def overrides : Nat := 2 ^ 0 + 2 ^ 1 + 2 ^ 11 + 2 ^ 12 + 2 ^ 18
def block5 : BitVec 2048 := .ofNat 2048
  (packFields [(0, 8), (overrides, 8), (5, 4), (7, 2), (2, 2), (7, 1), (0, 1), (0, 2), (0xFFFFFFFF, 4), (7812500, 8), (0, 4), (65535, 2), (0, 2), (1024, 2), (0, 2), (0, 2), (0, 2), (0x20000, 8), (0x10000, 8),
    (0x100000, 4), (4096, 4), (1048576, 4), (17, 1), (0, 3), (0, 16), (0x30000, 8), (0, 8)])
def reg5 : Region := { id := 5, addr := 0x500, parent := some 0, exportTab := [(0, .ofNat 128 (0xF + 7 * 2 ^ 8 + 0x30000 * 2 ^ 24)), (1, .ofNat 128 (0x3 + 7 * 2 ^ 8 + 0x1000 * 2 ^ 24 + 0x100 * 2 ^ 64))], blk := block5 }
def entryOf (pa : Nat) (perm : Nat := 0x3F) : Nat := perm + pa + 2 * 2 ^ 52
def tables : Memory :=
  ([(0x10000, 1 + 0x18000), (0x18000, 1 + 0x19000), (0x19000, 1 + 0x1A000), (0x1A000, 1 + 0x1B000), (0x1A008, entryOf 0x400000), (0x1B000, entryOf 0x100000), (0x1B008, entryOf 0x110000),
    (0x1B018, entryOf 0x130000 0x37), (0x1B030, 2 ^ 64 - 1), (0x20048, 3), (0x100040, 0x0807060504030201)] : List (Nat × Nat)).foldl (fun m p => cellBlit m p.1 (leBytes 8 p.2)) []
def package : State := let s := placeWord State.reset 32 0
  { s with regions := [reg5, region0], mem := tables, now := 5000, fw := { s.fw with keys := [(0, 1), (1, 1), (2, 5)] }, cx := { s.cx with prog := { s.cx.prog with region := 5, tenant := 7 } } }
def packet (stream seq : Nat) (b : PktBody) (off : Nat := 0x40) : Packet :=
  { src := 3, tenant := 7, region := 5, tag := 0x99, stream := .ofNat 4 stream, seq := .ofNat 32 seq, off := .ofNat 48 off, tagOk := true, body := b }
theorem witness_StreamPackets : (∀ n ∈ [0, 2], let m := millOf package 3 0x99 (.ofNat 4 n); package.fabric.planes ≠ 0 ∧ m.window = [] ∧ m.src = 3 ∧ m.tag = 0x99 ∧ m.stream = .ofNat 4 n ∧ m.x = 0) ∧
    (∀ b ∈ [PktBody.write [some 1, none, some 3], .read 8 none, .atom 0 5 0], (performBody package (packet 2 0 b)).isOk = true ∧ (performBody package (packet 0 3 b)).isOk = true ∧ forSequencer b = false) ∧
    (match performBody package (packet 2 0 (.read 8 none) 0x1000000000000) with | .error (.status _) => true | _ => false) = false ∧
    (match performBody package (packet 2 0 (.read 8 none) 0x10000000) with | .error (.status _) => true | _ => false) = true ∧
    forSequencer (.barrier 3) = true ∧ (findRegion package 5).isSome = true ∧ effTenant package 5 = 7 ∧ findRegion package 99 = none ∧
    (millOf package 3 0x99 2).window.length = 0 ∧ 2 ^ 31 ≤ ((0xFFFFFFFF : W32) - 0).toNat ∧ package.fw.tagFails.length < 15 := by decide +kernel

/-- A write on its way to package 9 in stream 2, by the first context, with its timer run out. -/
def key9 (stream seq : Nat) : PktKey := { dst := 9, tag := 0x77, stream := .ofNat 4 stream, seq := .ofNat 32 seq }
def heldOf (o : CtxId) (ch : Side) (n : Nat) : HeldPkt := { key := key9 2 4, tenant := 7, region := 5, off := 0, body := .write [some 5], plane := 3, expires := 10, resends := n, owner := (o, some (ch, 5)) }
def sentQ : Xfer := { tid := 5, op := .st64 { cs with stream := 2 }, args := [0xC009000000000000, 5], pkts := [key9 2 4], phase := .releaseHeld }
def fenceR : Xfer := { tid := 5, op := .srst ca0, args := [2], phase := .fenced }
def sending (l : List HeldPkt) (c : CtxId) (ch : Side) (q : Xfer) : State := modCtx { package with fabric := { package.fabric with held := l } } c fun x => { x with con := { x.con with
  tag := 0x77, broken := 4, c0 := if ch = .a then { tid := 5, xfers := [q], fails := [(2, 9)] } else {}, c1 := if ch = .b then { tid := 5, xfers := [q] } else {}
  ctrs := [{ stream := 2, dst := 4096 + 3, next := 3, sent := true }, { dst := 9, stream := 3, next := 3, sent := true }] } }
theorem witness_SourceGateway : (let s := sending [heldOf first .a 0] first .a sentQ; let h := heldOf first .a 0
      s.fabric.held = [h] ∧ s.fabric.hoistQ = [] ∧ acked { peer := 9, tag := 0x77, stream := 2, x := 5, map := 0, resync := false, results := [(4, 0x0A, [])] } h = true ∧ h.isResync = false ∧
      (chanOf (getCtx s first) .a).xfers = [sentQ] ∧ (chanOf (getCtx s first) .b).xfers = [] ∧ sentQ.pkts = [h.key] ∧ sentQ.queue = [] ∧ sentQ.status = 0 ∧ h.expires ≤ tick s ∧ s.fabric.planes ≠ 0 ∧
      ∀ w ∈ (getCtx s first).mon.watch.toList, w.armed = false) ∧
    (let s := sending [heldOf far .b 16] far .b sentQ; 16 ≤ (heldOf far .b 16).resends ∧ (getCl s (ctxCl far)).brake = none ∧ (chanOf (getCtx s far) .b).xfers = [sentQ] ∧ (chanOf (getCtx s far) .a).xfers = [] ∧ (heldOf far .b 16).expires ≤ tick s) ∧
    ¬ (tick (sending [heldOf first .a 0] first .a sentQ) < (heldOf first .a 0).expires) ∧ tick (sending [] first .a sentQ) < 99999999 := by decide +kernel
theorem witness_SourceGateway_reset : let s := sending [] first .b fenceR
    findXfer (getCtx s first) .b 5 = some fenceR ∧ streamSettled s first fenceR 2 = true ∧ (∀ k ∈ (getCtx s first).con.ctrs, k.stream.toNat = 2 → k.sent = true → 4096 ≤ k.dst) ∧ fenceR.status = 0 ∧
      (getCl s 0).brake = none ∧ streamSettled (sending [heldOf first .a 0] first .b fenceR) first fenceR 2 = false := by decide +kernel

/-- The first page: it is found, no migration moves it, a frame of die 3 is free; the same page on its way; a peer that is present and one that is not. -/
theorem witness_PageSteps : ((pageOf package 5 0x10).any fun p => decide (p.2.2.1 = 0x100000 ∧ p.2.2.2 = 65536) && (takeFrame package 3 p.2.2.2 (1 + b2n (bitAt p.2.1 6))).isSome) = true ∧ package.migrations = [] ∧
    replicaMask package 0x100000 = 0 ∧ (let g : Migration := { va := 0, region := 5, old := 0x100000, new := 0x200000, size := 65536 }
      (pageOf { package with migrations := [g] } 5 0).any (fun p => decide (p.2.2 = (g.old, g.size))) = true) ∧
    (effPtroot package 5 ≠ 0 ∧ malformed package.mem 0x60000 5 (effPtroot package 5) = true) ∧ ¬ (effPtroot package 5 ≠ 0 ∧ malformed package.mem 0 5 (effPtroot package 5) = true) ∧
    effPeertable package 5 ≠ 0 ∧ bitAt (leNat (readPa package (effPeertable package 5 + 72) 8)) 0 = true ∧ bitAt (leNat (readPa package (effPeertable package 5 + 64) 8)) 0 = false := by decide +kernel

/-! ### Rings, commands, services and resets -/

/-- A packet header (19 R354). -/
def hdrOf (valid phase op len : Nat) : Nat := valid + 2 * phase + 2 ^ 8 * op + 2 ^ 16 * len + 2 ^ 32 * 5
def ring : Ring := { base := 0x50000, hdr := 0x60000, tenant := 7, log := 6, enable := true }
/-- Ring 4 holds one packet. -/
def ringed (h : Nat) (r : Ring) : State :=
  let m := cellBlit (cellBlit tables 0x50000 (leBytes 8 h ++ leBytes 8 0x9000 ++ [1, 2, 3])) 0x60008 (leBytes 8 0x40)
  { package with mem := m, fw := { package.fw with rings := [(1, { ring with enable := false }), (4, r)] } }
def publishedCheck (s : State) : Bool :=
  let r := getRing s 4
  let x := r.read.toNat
  let h := leNat (ringBytes s 4 x 8)
  r.enable && !r.stopped && bitAt h 0 && bitAt h 1 == bitAt x r.log.toNat && appReady s (r.base.toNat + 64 * x % (64 * 2 ^ r.log.toNat)) 8 false
def lenOf (s : State) : Nat := leNat (ringBytes s 4 (getRing s 4).read.toNat 8) / 2 ^ 16 % 2 ^ 16
/-- The shortest and the longest packet, the first one of the second lap, one too long, one of length 0, one not published. -/
theorem witness_HostRings_packets : (∀ p ∈ [(hdrOf 1 0 1 2, ring), (hdrOf 1 0 10 64, ring), (hdrOf 1 1 11 1, { ring with read := 64 }), (hdrOf 1 0 3 65, ring), (hdrOf 1 0 1 0, ring)],
      publishedCheck (ringed p.1 p.2) = true) ∧ publishedCheck (ringed (hdrOf 0 0 1 1) ring) = false ∧ lenOf (ringed (hdrOf 1 0 10 64) ring) = 64 ∧ lenOf (ringed (hdrOf 1 0 3 65) ring) = 65 ∧
    firmwareMem (ringed (hdrOf 1 0 1 2) ring) (appPa 0x60008) 8 = false ∧ hostClosed (ringed (hdrOf 1 0 1 2) ring) (appPa 0x60008) 8 = false := by decide +kernel
theorem witness_HostRings : (∀ n ∈ [6, 20], let r := getRing (ringed 0 { ring with enable := false, log := .ofNat 5 n }) 4; r.enable = false ∧ 6 ≤ r.log.toNat ∧ r.log.toNat ≤ 20) ∧
    package.fw.locked = false ∧ 6 < package.fw.boot ∧ (getRing (ringed 0 { ring with stopped := true }) 4).stopped = true ∧ (getRing (ringed 0 ring) 4).stopped = false ∧
    (getRing (ringed 0 ring) 1).enable = false ∧ (0x1080 - 0x1000) / 32 = 4 ∧ (0x17F0 - 0x1000) / 32 = 63 ∧ 0x17F0 % 32 = 16 ∧ 0x1038 % 32 = 24 := by decide +kernel
/-- Firmware pages, pages of the firmware that the host may not write, and pages open to it. -/
def framed : State := { package with fw := { package.fw with frames := [(0x300000, 65536, 0), (0x310000, 65536, 1), (0x320000, 65536, 2)] } }
theorem witness_HostRings_memory : appReady framed 0x200010 8 true = true ∧ firmwareMem framed (appPa 0x200010) 8 = false ∧ hostClosed framed (appPa 0x200010) 8 = false ∧
    firmwareMem framed (appPa 0x300100) 8 = true ∧ hostClosed framed (appPa 0x310100) 8 = true ∧ firmwareMem framed (appPa 0x310100) 8 = false ∧ framed.migrations = [] ∧
    replicaMask framed (appPa 0x200010) = 0 ∧ (let s := { framed with repPages := [(0x20, 0x03)], fw := { framed.fw with appH := (Vector.replicate 9 (0 : BitVec 24)).setIfInBounds 1 5 } }; appReady s 0x200010 8 false = false) := by
  decide +kernel

def cmdOf (body : List Byte) (region : Nat := 5) (tenant : Nat := 7) : Cmd := { tenant := .ofNat 16 tenant, index := 77, region := .ofNat 32 region, cpl := 0x90000, body := body }
def two (a b : Nat) : List Byte := leBytes 8 a ++ leBytes 8 b
/-- A kernel record of a unit of code. -/
def record : List Byte := leBytes 2 0x22 ++ [0, 1] ++ leBytes 4 4 ++ leBytes 4 8 ++ leBytes 100 0xFF ++ List.replicate 16 0 ++ (leBytes 4 0x100 ++ leBytes 4 0x1000 ++ [0x40, 1, 0, 0, 0, 0, 0, 0]) ++ List.replicate 112 0 ++
  List.replicate 8 0xAB
def owner : State := { package with mem := cellBlit tables 0x98000 record }
theorem witness_HostCommands_owner : ((5 : W32) ≠ 0 ∧ (findRegion owner 5).isSome = true ∧ effTenant (asInstalled owner) 5 = (cmdOf []).tenant.toNat) ∧ findRegion owner 6 = none ∧
    effTenant (asInstalled owner) 5 ≠ (cmdOf [] 5 8).tenant.toNat := by decide +kernel
theorem witness_HostCommands : (bodyAt (cmdOf [24, 3]) 16 1 = 24 ∧ bodyAt (cmdOf [24, 3]) 17 1 < 4 ∧ bodyAt (cmdOf [9, 0]) 16 1 < 10 ∧ bodyAt (cmdOf [10, 4]) 17 1 = 4) ∧
    (bodyAt (cmdOf (two 255 0x0F)) 16 8 < 256 ∧ bodyAt (cmdOf (two 255 0x0F)) 24 16 / 16 % 16 = 0 ∧ bodyAt (cmdOf (two 3 0x10)) 24 16 / 16 % 16 ≠ 0 ∧ 256 ≤ bodyAt (cmdOf (two 256 0)) 16 8) ∧
    (bodyAt (cmdOf (two 0 0)) 16 8 = 0 ∧ bodyAt (cmdOf (two 0x10001 65536)) 16 8 % 65536 ≠ 0 ∧ bodyAt (cmdOf (two 0x10000 65536)) 24 8 % 65536 = 0 ∧
      (opSite owner 5 0x10000 1 { r := true, w := true }).isOk = true) := by decide +kernel
theorem witness_HostCommands_kernel : (kernelOfRec 5 (appBytes owner 0x98000 (min record.length 0x40000))).any (fun k => k.region == 5 && k.num == 0x22) = true := by decide +kernel
/-- A mapped page to unmap; a page to map within the quota; a region that nothing uses. -/
def idleOwner : State := modCtx { owner with seqs := [], packets := [] } first fun _ => {}
theorem witness_HostCommands_pages : (pageOf (asInstalled owner) 5 0x10000).any (fun p => p.2.2.2 == 65536) = true ∧ mapForm 0x70000 65536 65536 = true ∧ effPtroot (asInstalled owner) 5 ≠ 0 ∧
    (mapPage owner 5 0x70000 65536 31 0x14).isSome = true ∧ quotaAdmits (asInstalled owner) 5 1 = true ∧ quotaAdmits (asInstalled owner) 5 0 = true ∧ owner.migrations = [] ∧
    (∀ q ∈ idleOwner.regions, q.parent ≠ some 5) ∧ idleOwner.cx.run.state = .empty ∧ idleOwner.others = [] ∧ ∃ q ∈ idleOwner.regions, q.parent = some 0 := by decide +kernel

/-- A chain of one tile word and of two, with padding to 64 bytes; a malformed one. -/
def chain (m : Nat) (l : List (Nat × Nat)) : List Byte := leBytes 2 m ++ List.replicate 14 0 ++ l.flatMap (fun p => leBytes 16 p.1 ++ leBytes 8 p.2 ++ List.replicate 8 0) ++ List.replicate (32 * ((l.length + 1) % 2)) 0
def child6 (parent : Nat) : BitVec 2048 := .ofNat 2048 (packFields [(parent, 8), (0, 8), (6, 4), (7, 2), (2, 2), (7, 1), (0, 1), (0, 2), (0xFFFFFFFF, 4), (7812500, 8), (0, 4), (65535, 2), (0, 2), (1024, 2)])
def install (blk : BitVec 2048) (addr : Nat) : Cmd := cmdOf (leBytes 256 blk.toNat ++ leBytes 8 addr) 6
/-- The tree with the new region, and whether its block meets the conditions of R243. -/
def installed (blk : BitVec 2048) (parent : W32) : State × Bool :=
  let r : Region := { id := 6, addr := 0x600, blk := blk, parent := some parent }
  let tree := { package with regions := package.regions ++ [r] }
  (asInstalled tree, blockOk (asInstalled tree) r parent)
theorem witness_HostStructures_install : (installed (child6 0x500) 5).2 = true ∧ effTenant (installed (child6 0x500) 5).1 6 = 7 ∧ (installed (child6 0x500 + 2 ^ 64) 5).2 = false ∧
    (package.regions.find? fun q => q.addr.toNat == blkField (child6 0x500) 0 8 && (q.id == 0 || blkField (child6 0x500) 0 8 != 0)).any (fun q => q.id == 5) = true := by decide +kernel
theorem witness_HostStructures : (chainOk (cmdOf (chain 0 [])) 0 = false) ∧ chainOk (cmdOf (chain 1 [(0x0131 * 2 ^ 112, 0)])) 1 = true ∧ chainOk (cmdOf (chain 2 [(0x0131 * 2 ^ 112, 0), (0x0141 * 2 ^ 112, 1)])) 2 = true ∧ package.packets = [] ∧ isFree package ⟨3, 0, 5, true⟩ = true ∧
    bodyAt (install (child6 0x500) 0x600) 272 8 = 0x600 ∧ blkField (BitVec.ofNat 2048 (bodyAt (install (child6 0x500) 0x600) 16 256)) 0x10 4 = 6 ∧ package.fw.needVerifier = false ∧
    (∀ q ∈ package.regions, q.id ≠ 6 → q.addr ≠ 0x600) ∧ ∃ q ∈ package.regions, q.id ≠ 6 ∧ q.addr = 0x500 := by decide +kernel

theorem witness_FirmwareServices : (tabGet [] package.fw.mail 5).length < 16 ∧ 16 ≤ (tabGet [] ({ package.fw with mail := [(3, List.replicate 16 (1, 2))] }).mail 3).length ∧
    package.fw.spdm.stage < 1 ∧ package.fw.spdm.session = none ∧ package.fw.updating = false ∧ ([5, 6, 2, 3, 1, 0, 7, 4] : List (BitVec 3))[([] : List (BitVec 3)).length]? = some 5 ∧
    ([5, 6, 2, 3, 1, 0, 7, 4] : List (BitVec 3))[7]? = some 4 ∧ tabGet 0 ({ package.fw with code := [(2, 7)] }).code 2 = 7 ∧ tabGet 0 package.fw.code 2 = 0 := by decide +kernel
def session : State := { package with fw := { package.fw with updating := true, spdm := { stage := 3, session := some 5, finished := true, measured := true } } }
theorem witness_FirmwareServices_session : 3 ≤ session.fw.spdm.stage ∧ session.fw.spdm.session ≠ none ∧ session.fw.spdm.finished = true ∧ session.fw.spdm.measured = true ∧ session.fw.updating = true ∧
    tabGet [] session.fw.mail 5 = [] ∧ session.fw.switched.length < 7 := by decide +kernel

theorem witness_ResetLevels : package.fw.locked = false ∧ 6 < package.fw.boot ∧ (getCtx package first).run.state ≠ .empty ∧ (getCl package 0).started = true ∧
    (let s := modCl package 0 fun k => { k with ratio := 18 }; (19 : BitVec 5).toNat = (getCl s 0).ratio.toNat + 1) ∧ (getCl package 5).hoist = [] ∧
    ((List.range 512).all fun n => (ctxCl (ctxOfNum n) != 5) || (getCtx package (ctxOfNum n)).run.state == .empty) = true := by decide +kernel

/-- The primary slot is vacant and EMPTY, the secondary parked; its spin and starvation counters are full. -/
def second : CtxId := ⟨0, true⟩
def vacant : State :=
  let s := modCtx (modCtx package first fun _ => {}) second fun x => { x with run := { x.run with state := .parked }, prog := { x.prog with region := 5, tenant := 7, starve := 2 ^ 20, spin := 2 ^ 32 } }
  { s with cores := [(0, { (getCore s 0) with vacant := true })] }
theorem witness_RolesAndYield : primOf vacant 0 = first ∧ (getCore vacant 0).vacant = true ∧ (getCtx vacant first).run.state = .empty ∧ (getCtx vacant second).run.state ≠ .empty ∧
    (getCtx vacant second).run.state ≠ .saving ∧ waitsForCore vacant 0 = false ∧ (getCtx vacant second).mon.active = false ∧ 256 * effStarve vacant 5 ≤ (getCtx vacant second).prog.starve ∧
    effYield vacant 5 ≤ (getCtx vacant second).prog.spin ∧ (getCore package 0).vacant = false ∧ (getCtx package second).run.state = .empty := by decide +kernel
/-- The secondary yielded and a word of its region waits for the core; its region's pool has room. -/
def yielding : State :=
  let s := modCtx package second fun x => { x with run := { x.run with state := .parked }, prog := { x.prog with region := 5, tenant := 7, spin := 2 ^ 32, yielded := true, eligible := true } }
  { s with regions := [{ reg5 with pool := 0x20000, poolLen := 0x2000000 }, region0], seqs := [(⟨0, 0, 5, false⟩, { state := .stage })] }
theorem witness_RolesAndYield_preemption : isPrim yielding second = false ∧ savable (getCtx yielding second) = true ∧ canYield yielding (getCtx yielding second) = true ∧
    wanted yielding (getCtx yielding second) [0] = true ∧ ((poolOf yielding 5).any fun r => (poolPlace r imageSize).isSome) = true ∧ isPrim yielding first = true := by decide +kernel

/-! ### An image in memory -/

theorem cellRead_length {w : Nat} (m : Cells w) (n : Nat) : ∀ a, (cellRead m a n).length = n := by
  induction n with
  | zero => intro a; rfl
  | succ n ih => intro a; simp [cellRead, ih]
theorem cellRead_add {w : Nat} (m : Cells w) (n k : Nat) : ∀ a, cellRead m a (n + k) = cellRead m a n ++ cellRead m (a + n) k := by
  induction n with
  | zero => intro a; simp [cellRead]
  | succ n ih =>
    intro a
    rw [Nat.succ_add]
    simp only [cellRead, ih, List.cons_append]
    rw [show a + 1 + n = a + (n + 1) by omega]
theorem cellRead_out {w : Nat} (m : Cells w) (base : Nat) (l : List (BitVec w)) (n : Nat) : ∀ a, a + n ≤ base → cellRead (cellBlit m base l) a n = cellRead m a n := by
  induction n with
  | zero => intro a _; rfl
  | succ n ih =>
    intro a h
    simp only [cellRead]
    rw [cellGet_cellBlit_out m base l a (Or.inl (by omega)), ih (a + 1) (by omega)]
theorem cellRead_in {w : Nat} (m : Cells w) (base : Nat) (l : List (BitVec w)) : cellRead (cellBlit m base l) base l.length = l := by
  apply List.ext_getElem (cellRead_length _ _ _)
  intro k h1 h2
  have key : ∀ (n a k : Nat) (h : k < n), (cellRead (cellBlit m base l) a n)[k]'(by rw [cellRead_length]; exact h) = cellGet (cellBlit m base l) (a + k) := by
    intro n
    induction n with
    | zero => intro a k h; omega
    | succ n ih =>
      intro a k h
      cases k with
      | zero => rfl
      | succ k =>
        simp only [cellRead, List.getElem_cons_succ]
        rw [ih (a + 1) k (by omega), show a + 1 + k = a + (k + 1) by omega]
  rw [key l.length base k h2, cellGet_cellBlit_in m base l k h2]

/-- Whether a walk reads entries below `base` alone. -/
def walkBelow (m : Memory) (va base : Nat) : Nat → Nat → Bool
  | 0, _ => true
  | fuel + 1, t => decide (t + 8 * ptIndex fuel va + 8 ≤ base) &&
      (bitAt (leNat (cellRead m (t + 8 * ptIndex fuel va) 8)) 1 || walkBelow m va base fuel (bits (leNat (cellRead m (t + 8 * ptIndex fuel va) 8)) 8 31 * 256))
theorem walk_below (m : Memory) (va base : Nat) (l : List Byte) : ∀ fuel t, walkBelow m va base fuel t = true → walk (cellBlit m base l) va fuel t = walk m va fuel t := by
  intro fuel
  induction fuel with
  | zero => intro t _; rfl
  | succ fuel ih =>
    intro t h
    simp only [walkBelow, Bool.and_eq_true, decide_eq_true_eq, Bool.or_eq_true] at h
    simp only [walk]
    rw [cellRead_out m base l 8 _ h.1]
    rcases h.2 with h2 | h2
    · simp only [h2, if_true]
    · rw [ih _ h2]

theorem imgField_skip (a b : List Byte) (off n : Nat) (h : a.length ≤ off) : imgField (a ++ b) off n = imgField b (off - a.length) n := by
  simp only [imgField, List.drop_append]
  rw [List.drop_eq_nil_of_le h, List.nil_append]
theorem imgField_front (a b : List Byte) (off n : Nat) (h : off + n ≤ a.length) : imgField (a ++ b) off n = imgField a off n := by
  simp only [imgField]
  rw [List.drop_append_of_le_length (by omega), List.take_append_of_le_length (by rw [List.length_drop]; omega)]
theorem leNat_zeros (n : Nat) : leNat (List.replicate n 0) = 0 := by
  induction n with
  | zero => rfl
  | succ n ih =>
    rw [List.replicate_succ]
    simp only [leNat]
    rw [ih]; rfl
theorem imgField_zeros (k off n : Nat) : imgField (List.replicate k 0) off n = 0 := by
  simp only [imgField, List.drop_replicate, List.take_replicate, leNat_zeros]

theorem absorb_length (a : List W64) (b : List Byte) : (absorb a b).length = 25 := by
  have f : ∀ (rs : List W64) (a : List W64), a.length = 25 → (rs.foldl kRoundOf a).length = 25 := by
    intro rs
    induction rs with
    | nil => intro a h; exact h
    | cons r rs ih => intro a _; exact ih _ (by simp [kRoundOf])
  exact f _ _ (by simp)
theorem shake_length (n : Nat) (l : List Byte) (h : n ≤ 200) : (shake256 n l).length = n := by
  have f : ∀ (k : Nat) (a : List W64) (p : List Byte), a.length = 25 → (absorbAll k a p).length = 25 := by
    intro k
    induction k with
    | zero => intro a p h; exact h
    | succ k ih => intro a p _; exact ih _ _ (absorb_length _ _)
  have e := f (l.length / 136 + 1) (List.replicate 25 0) (shakePad l) (by simp)
  have g : ∀ a : List W64, (a.flatMap fun w => leBytes 8 w.toNat).length = 8 * a.length := by
    intro a
    induction a with
    | nil => rfl
    | cons w a ih => rw [List.flatMap_cons, List.length_append, leBytes_length, ih, List.length_cons]; omega
  simp only [shake256, List.length_take, g, e]
  omega

/-- Tables that map 6 MiB from 2 MiB on to the physical bytes from 4 MiB on. -/
def imgTables : Memory := cellBlit tables 0x1A010 (leBytes 8 (entryOf 0x600000) ++ leBytes 8 (entryOf 0x800000))
def krn5 : Kernel := { num := 17, region := 5, group := false, entry := 0x40, code := List.replicate 70 3, footprint := [5, 520], tiles := [] }
/-- The image that context `c` saved: header, digest, directory, core head, the head all zeros. -/
def imgHead : List Byte := leBytes 4 0x4B514349 ++ leBytes 2 1 ++ [1, 0] ++ leBytes 4 7 ++ leBytes 4 5 ++ leBytes 8 0 ++ leBytes 8 300 ++ leBytes 4 9 ++ leBytes 4 17 ++ leBytes 4 0 ++ leBytes 4 2
def imgByte (u : Nat) : Byte := if ([5, 520] : List Nat).contains u then 2 else 0
def imgDir : List Byte := List.replicate 64 0 ++ ((List.range 800).map imgByte ++ List.replicate 3168 0)
def imgBody : List Byte := List.replicate 0xF000 0
def imgDigest : List Byte := shake256 16 (imgHead ++ imgBody)
def image5 : List Byte := imgHead ++ (imgDigest ++ (imgDir ++ imgBody))
theorem imgHead_length : imgHead.length = 48 := by decide
theorem imgDigest_length : imgDigest.length = 16 := shake_length 16 _ (by omega)
theorem imgDir_length : imgDir.length = 4032 := by
  unfold imgDir
  simp only [List.length_append, List.length_replicate, List.length_map, List.length_range]
theorem imgBody_length : imgBody.length = 0xF000 := by
  unfold imgBody
  exact List.length_replicate
theorem image5_length : image5.length = 0x10000 := by
  simp only [image5, List.length_append, imgHead_length, imgDigest_length, imgDir_length, imgBody_length]
theorem image5_head (off n : Nat) (h : off + n ≤ 48) : imgField image5 off n = imgField imgHead off n := imgField_front _ _ _ _ (by rw [imgHead_length]; exact h)
theorem image5_dir (off n : Nat) (h : 64 ≤ off) (h' : off + n ≤ 4096) : imgField image5 off n = imgField imgDir (off - 64) n := by
  unfold image5
  rw [imgField_skip _ _ _ _ (by rw [imgHead_length]; omega), imgField_skip _ _ _ _ (by rw [imgHead_length, imgDigest_length]; omega), imgHead_length, imgDigest_length,
    imgField_front _ _ _ _ (by rw [imgDir_length]; omega), show off - 48 - 16 = off - 64 by omega]
theorem image5_unit (u : Nat) (h : u < 800) : imgField image5 (0x80 + u) 1 = (imgByte u).toNat := by
  rw [image5_dir _ _ (by omega) (by omega)]
  unfold imgDir
  rw [imgField_skip _ _ _ _ (by rw [List.length_replicate]; omega), List.length_replicate, show 0x80 + u - 64 - 64 = u by omega,
    imgField_front _ _ _ _ (by rw [List.length_map, List.length_range]; omega)]
  simp only [imgField]
  rw [List.drop_eq_getElem_cons (by rw [List.length_map, List.length_range]; exact h)]
  simp [leNat]
theorem image5_body (off n : Nat) (h : 4096 ≤ off) : imgField image5 off n = 0 := by
  unfold image5
  rw [imgField_skip _ _ _ _ (by rw [imgHead_length]; omega), imgField_skip _ _ _ _ (by rw [imgHead_length, imgDigest_length]; omega),
    imgField_skip _ _ _ _ (by rw [imgHead_length, imgDigest_length, imgDir_length]; omega)]
  unfold imgBody
  exact imgField_zeros ..
theorem image5_digest : imgField image5 0x30 16 = leNat (shake256 16 (image5.take 0x30 ++ (image5.drop 0x1000).take 0xF000)) := by
  have a : image5.take 0x30 = imgHead := by rw [image5, List.take_append_of_le_length (Nat.le_of_eq imgHead_length.symm), List.take_of_length_le (Nat.le_of_eq imgHead_length)]
  have b : (image5.drop 0x1000).take 0xF000 = imgBody := by
    have c : imgHead ++ (imgDigest ++ (imgDir ++ imgBody)) = (imgHead ++ imgDigest ++ imgDir) ++ imgBody := by simp only [List.append_assoc]
    rw [image5, c, List.drop_left' (by simp only [List.length_append, imgHead_length, imgDigest_length, imgDir_length]), List.take_of_length_le (Nat.le_of_eq imgBody_length)]
  rw [a, b]
  change _ = leNat imgDigest
  rw [image5, imgField_skip _ _ _ _ (Nat.le_of_eq imgHead_length), imgHead_length, Nat.sub_self, imgField_front _ _ _ _ (by simp only [imgDigest_length, Nat.zero_add, Nat.le_refl])]
  simp only [imgField, List.drop_zero]
  rw [List.take_of_length_le (Nat.le_of_eq imgDigest_length)]
/-- Region 5 with that image at 0x200000, and an EMPTY core. -/
def imaged : State := { package with cx := {}, kernels := [krn5], mem := cellBlit imgTables 0x400000 image5 }

theorem opSite_main (s : State) (region : W32) (va n : Nat) (need : Need) (t : Xlat) (h : bits va 60 4 = 0) (ht : translate (asSequencer s region) region va need = .ok t) :
    opSite s region va n need = .ok { place := .main t.pa, fmt := t.fmt, size := t.size, va := some va } := by
  simp [opSite, locate, asSequencer, started, h] at ht ⊢
  rw [ht]
theorem eff_regions (s t : State) (h : s.regions = t.regions) (id : W32) (bit off n : Nat) : eff s id bit off n = eff t id bit off n := by
  have f : ∀ i, findRegion s i = findRegion t i := fun i => by simp only [findRegion, h]
  have g : ∀ k i, treeBlock s bit k i = treeBlock t bit k i := by
    intro k
    induction k with
    | zero => intro i; rfl
    | succ k ih => intro i; simp only [treeBlock, f, ih]
  simp only [eff, treeEff, f, g, h]
theorem translate_same (s t : State) (region : W32) (va : Nat) (need : Need) (h : s.regions = t.regions)
    (hw : ∀ k, k = effPtroot t region → walk s.mem va 5 k = walk t.mem va 5 k) : translate s region va need = translate t region va need := by
  simp only [Machine.translate, effPtroot, effKey, eff_regions s t h] at hw ⊢
  rw [hw _ rfl]
  rfl

/-- The tables alone. -/
def mapped : State := { package with mem := imgTables }
def landsAt (va : Nat) : Bool :=
  bits va 60 4 == 0 && walkBelow imgTables va 0x400000 5 (effPtroot mapped 5) && okIs (translate mapped 5 va { r := true }) { pa := va + 0x200000, fmt := 0, size := 2 ^ 21 }
theorem imaged_site (va n : Nat) (h : landsAt va = true) :
    opSite imaged 5 va n { r := true } = .ok { place := .main (va + 0x200000), fmt := 0, size := 2 ^ 21, va := some va } := by
  simp only [landsAt, Bool.and_eq_true, beq_iff_eq] at h
  refine opSite_main imaged 5 va n _ { pa := va + 0x200000, fmt := 0, size := 2 ^ 21 } h.1.1 ?_
  rw [translate_same (asSequencer imaged 5) mapped 5 va { r := true } rfl]
  · exact ok_of _ _ h.2
  · intro k hk
    exact walk_below imgTables va 0x400000 image5 5 k (by rw [hk]; exact h.1.2)
theorem foldlM_ok {α β ε : Type} (f : List α → β → Except ε (List α)) (g : β → List α) (l : List β) (h : ∀ acc, ∀ p ∈ l, f acc p = .ok (acc ++ g p)) :
    ∀ acc, l.foldlM f acc = .ok (acc ++ l.flatMap g) := by
  induction l with
  | nil => intro acc; simp; rfl
  | cons p l ih =>
    intro acc
    rw [List.foldlM_cons, h acc p (List.mem_cons_self ..)]
    have := ih (fun a q hq => h a q (List.mem_cons_of_mem _ hq)) (acc ++ g p)
    rw [List.flatMap_cons, ← List.append_assoc, ← this]
    rfl
theorem opRead_sites (s : State) (region : W32) (va n d : Nat) (fmt : Byte) (size : Nat)
    (h : ∀ p ∈ piecesOf s region va n, opSite s region p.1 p.2 { r := true } = .ok { place := .main (p.1 + d), fmt := fmt, size := size, va := some p.1 }) :
    opRead s region va n = .ok ((piecesOf s region va n).flatMap fun p => readPa s (p.1 + d) p.2) := by
  unfold opRead
  rw [foldlM_ok _ (fun p => readPa s (p.1 + d) p.2)]
  · rfl
  · intro acc p hp
    rw [h p hp]
    rfl
def imgPieces : List (Nat × Nat) := (List.range 16).map fun k => (0x200000 + 4096 * k, 4096)
theorem imaged_pieces : piecesOf imaged 5 0x200000 0x10000 = imgPieces := by decide +kernel
theorem imaged_lands : ∀ p ∈ imgPieces, landsAt p.1 = true := by decide +kernel
theorem imaged_read : opRead imaged 5 0x200000 0x10000 = .ok image5 := by
  rw [opRead_sites imaged 5 0x200000 0x10000 0x200000 0 (2 ^ 21) (fun p hp => imaged_site p.1 p.2 (imaged_lands p (imaged_pieces ▸ hp))), imaged_pieces]
  refine congrArg Except.ok ?_
  have f : ∀ k, ((List.range k).flatMap fun i => readPa imaged (0x400000 + 4096 * i) 4096) = cellRead imaged.mem 0x400000 (4096 * k) := by
    intro k
    induction k with
    | zero => rfl
    | succ k ih =>
      rw [List.range_succ, List.flatMap_append, ih, Nat.mul_succ, cellRead_add]
      simp [readPa]
  have g := f 16
  rw [show (4096 * 16 : Nat) = image5.length by rw [image5_length], show imaged.mem = cellBlit imgTables 0x400000 image5 from rfl, cellRead_in] at g
  rw [imgPieces, List.flatMap_map, ← g]
  refine congrArg (fun f => (List.range 16).flatMap f) (funext fun k => ?_)
  rw [show 0x200000 + 4096 * k + 0x200000 = 0x400000 + 4096 * k by omega]
theorem imaged_checks : imageChecks imaged 5 image5 = true := by
  have e : findKernel imaged 5 (.ofNat 16 (imgField image5 0x24 2)) = some krn5 := by rw [image5_head _ _ (by omega)]; decide +kernel
  have t : effTenant imaged 5 = 7 := by decide +kernel
  have d' : ((List.range 800).all fun u => (imgField image5 (0x80 + u) 1 % 4 != 0) == ([5, 520] : List Nat).contains u) = true := by
    rw [List.all_eq_true]
    intro u hu
    rw [image5_unit u (List.mem_range.mp hu), imgByte]
    cases ([5, 520] : List Nat).contains u <;> rfl
  unfold imageChecks
  simp only [e, krn5, d', t, image5_digest, Bool.and_true, beq_self_eq_true]
  rw [image5_head _ _ (by omega), image5_head _ _ (by omega), image5_head _ _ (by omega)]
  decide

theorem others_none (s : State) (h : s.others = []) (c : CtxId) : c = s.cid ∨ getCtx s c = {} := by
  by_cases e : c = s.cid
  · exact Or.inl e
  · exact Or.inr (by simp [getCtx, e, h, tabGet])

/-! ### Restores, saves, stops -/

theorem headOf_dict (l : List Byte) : (headOf l).ctl.dictLoaded = bitAt (imgField l 0x1918 8) 63 := rfl
theorem headOf_monitor (l : List Byte) : (headOf l).mon.active = bitAt (imgField l 0x2E08 8) 63 := rfl
theorem headOf_leaves (l : List Byte) : (headOf l).prog.leaves = leavesOfImage (fun off n => imgField l off n) := rfl
/-- A saved image that passes the checks, with all that the first instruction of its context waits for. -/
theorem witness_RestoreSteps : findSaved imaged 5 0x200000 = none ∧ poolOf imaged 5 = none ∧ clusterOpen imaged (ctxCl first) 5 = true ∧ (getCtx imaged first).run.state = .empty ∧
    opRead imaged 5 (0x200000 : W64).toNat 0x10000 = .ok image5 ∧ imageChecks imaged 5 image5 = true ∧ bitAt (imgField image5 6 1) 3 = false ∧
    findKernel imaged 5 (.ofNat 16 (imgField image5 0x24 2)) = some krn5 ∧ (∀ v, v < 800 → imgField image5 (0x80 + v) 1 % 4 ≠ 3) ∧ (getCl imaged (ctxCl first)).hoist = [] ∧
    blocksFit imaged first krn5.footprint = true ∧ (∃ u, makeResident imaged first krn5 = some u) ∧
    (headOf image5).ctl.dictLoaded = false ∧ (headOf image5).mon.active = false ∧ (headOf image5).prog.leaves = [] := by
  refine ⟨by decide +kernel, by decide +kernel, by decide +kernel, by decide +kernel, imaged_read, imaged_checks, ?_, ?_, ?_, by decide +kernel, by decide +kernel, ?_, ?_, ?_, ?_⟩
  · rw [image5_head _ _ (by omega)]; decide +kernel
  · rw [image5_head _ _ (by omega)]; decide +kernel
  · intro v h
    rw [image5_unit v h, imgByte]
    cases ([5, 520] : List Nat).contains v <;> decide
  · exact Option.isSome_iff_exists.mp (by decide +kernel)
  · rw [headOf_dict, image5_body _ _ (by omega)]; rfl
  · rw [headOf_monitor, image5_body _ _ (by omega)]; rfl
  · have e : ∀ k : Nat, imgField image5 (0x2E80 + 8 * k) 8 = 0 := fun k => image5_body _ _ (by omega)
    rw [headOf_leaves]
    simp only [leavesOfImage, e]
    decide

/-- A restored context of which units 5 and 520 have not come; `d` is their directory byte, `j` the hoist's jobs. -/
def pulling (d : Byte) (j : List HoistJob) : State :=
  let s := modCl { mapped with mem := cellBlit (cellBlit (cellBlit imgTables 0x400000 imgHead) 0x400085 [d]) 0x400288 [d] } 0 fun k => { k with hoist := j }
  modCtx s first fun x => { x with run := { x.run with state := .run }, prog := { x.prog with region := 5, tenant := 7, image := 0x200000, footprint := [5, 7, 520], absent := [5, 520], saveGroup := 0, entry := none } }
def pull (since reread : Nat) : HoistJob := { kind := 0, ctx := first, region := 5, unit := 5, image := 0x200000, pendSince := some since, reread := reread }
def found (s : State) (n : Nat) (j : Option HoistJob) (d : Nat) : Bool :=
  let x := getCtx s first
  isAbsent x n && pullJob s first n == j && dirByte s x.prog.region x.prog.image n == some d && blockFree s first n && (poolOf s x.prog.region).isNone && x.prog.saveGroup == 0 && x.prog.entry.isNone &&
    x.con.c0.xfers.isEmpty && x.con.c1.xfers.isEmpty && (opRead s x.prog.region (x.prog.image.toNat + (unitSpan n).1) (unitSpan n).2).isOk
theorem witness_RestoreSteps_pulls : isAbsent (getCtx (pulling 2 []) first) 7 = false ∧ (∀ n ∈ [5, 520], found (pulling 2 []) n none 2 = true ∧ found (pulling 1 []) n none 1 = true ∧ found (pulling 3 []) n none 3 = true) := by
  decide +kernel
/-- A pending pull before its time, when its directory byte has changed, when it has not, and after 2^20 ticks; tick 2631 is now. -/
theorem witness_RestoreSteps_pending : (let s := pulling 1 [pull 7 2632]; found s 5 (some (pull 7 2632)) 1 = true ∧ tick s < 2632) ∧
    (let s := pulling 1 [pull 7 2631]; found s 5 (some (pull 7 2631)) 1 = true ∧ 2631 ≤ tick s ∧ tick s < 7 + 2 ^ 20) ∧ (let s := pulling 2 [pull 7 2631]; found s 5 (some (pull 7 2631)) 2 = true ∧ 2631 ≤ tick s) ∧
    (let s := { pulling 1 [pull 2631 2887] with now := 5000 + 2 ^ 20 / 10 * 19 + 12 }; found s 5 (some (pull 2631 2887)) 1 = true ∧ tick s = 2631 + 2 ^ 20) := by decide +kernel
theorem witness_RestoreSteps_refused : clusterOpen imaged 9 5 = false ∧ clusterOpen imaged 0 5 = true ∧ findSaved imaged 5 0x40000000 = none ∧ (imaged.cx.run.state = .empty) ∧
    (pulling 2 []).cx.run.state ≠ .empty ∧ (pulling 2 []).cx.run.state ≠ .loading ∧ findSaved (pulling 2 []) 5 0x200000 = none ∧ poolOf (pulling 2 []) 5 = none := by decide +kernel
theorem opSite_error (s : State) (region : W32) (va n : Nat) (need : Need) (h : bits va 60 4 = 0) (ht : translate (asSequencer s region) region va need = .error pageFault) :
    opSite s region va n need = .error pageFault := by
  simp [opSite, locate, asSequencer, started, h] at ht ⊢
  rw [ht]
  rfl
theorem unmapped_image : ∀ l, opRead imaged 5 (0x40000000 : W64).toNat 0x10000 = .ok l → imageChecks imaged 5 l = false := by
  intro l h
  have e : (piecesOf imaged 5 (0x40000000 : W64).toNat 0x10000).head? = some (0x40000000, 4096) := by decide +kernel
  have r : opSite imaged 5 0x40000000 4096 { r := true } = .error pageFault := by
    have w : translate (asSequencer imaged 5) 5 0x40000000 { r := true } = .error pageFault := by
      rw [translate_same (asSequencer imaged 5) mapped 5 0x40000000 { r := true } rfl]
      · exact err_of _ _ (by decide +kernel)
      · intro k hk
        exact walk_below imgTables 0x40000000 0x400000 image5 5 k (by rw [hk]; decide +kernel)
    exact opSite_error imaged 5 0x40000000 4096 _ (by decide) w
  unfold opRead at h
  cases hp : piecesOf imaged 5 (0x40000000 : W64).toNat 0x10000 with
  | nil => rw [hp] at e; simp at e
  | cons p q =>
    rw [hp] at e h
    simp only [List.head?_cons, Option.some.injEq] at e
    rw [List.foldlM_cons, e, r] at h
    cases h

theorem foldlM_exists {α β ε : Type} (f : α → β → Except ε α) (l : List β) (h : ∀ a, ∀ p ∈ l, ∃ b, f a p = .ok b) : ∀ a, ∃ b, l.foldlM f a = .ok b := by
  induction l with
  | nil => intro a; exact ⟨a, rfl⟩
  | cons p l ih =>
    intro a
    obtain ⟨b, hb⟩ := h a p (List.mem_cons_self ..)
    obtain ⟨c, hc⟩ := ih (fun a q hq => h a q (List.mem_cons_of_mem _ hq)) b
    refine ⟨c, ?_⟩
    rw [List.foldlM_cons, hb]
    exact hc
/-- A write of bytes all of whose pieces translate is done. -/
theorem writeVa_ok (s : State) (region : W32) (va : Nat) (l : List Byte) (n : Nat) (hl : l.length = n)
    (h : ((pieces va n).all fun p => (translate s region p.1 { w := true }).isOk) = true) : ∃ u, writeVa s region va l = .ok u := by
  unfold writeVa
  rw [hl]
  obtain ⟨b, hb⟩ := foldlM_exists (fun (acc : State × List Byte) p => (do
    let t ← translate s region p.1 { w := true }
    .ok (writePa acc.1 t.pa (acc.2.take p.2), acc.2.drop p.2) : Except Byte (State × List Byte))) (pieces va n) (fun a p hp => by
      obtain ⟨t, ht⟩ := ok_exists _ (List.all_eq_true.mp h p hp)
      exact ⟨_, by rw [ht]; rfl⟩) (s, l)
  exact ⟨b.1, by rw [hb]; rfl⟩
/-- A unit's bytes and then one byte elsewhere. -/
theorem writes_ok (s : State) (region : W32) (va va2 : Nat) (l : List Byte) (x : Xlat) (hl : l.length = 4096) (hm : s.migrations = []) (hp : pieces va 4096 = [(va, 4096)])
    (ht : translate s region va { w := true } = .ok x) (hw : walkBelow s.mem va2 x.pa 5 (effPtroot s region) = true)
    (h2 : ((pieces va2 1).all fun p => p.1 == va2 && (translate s region p.1 { w := true }).isOk) = true) (b : Byte) :
    ∃ u v, writeVa s region va l = .ok u ∧ writeVa u region va2 [b] = .ok v := by
  have e : writeVa s region va l = .ok (writePa s x.pa l) := by
    unfold writeVa
    rw [hl, hp, List.foldlM_cons, ht]
    change Except.ok (writePa s x.pa (l.take 4096)) = _
    rw [List.take_of_length_le (Nat.le_of_eq hl)]
  have m : (writePa s x.pa l).mem = cellBlit s.mem x.pa l := by simp [writePa, migrate, hm]
  obtain ⟨v, hv⟩ := writeVa_ok (writePa s x.pa l) region va2 [b] 1 rfl (by
    rw [List.all_eq_true] at h2 ⊢
    intro p hp
    have := h2 p hp
    simp only [Bool.and_eq_true, beq_iff_eq] at this
    rw [translate_same (writePa s x.pa l) s region p.1 { w := true } rfl]
    · exact this.2
    · intro k hk
      rw [m, this.1]
      exact walk_below s.mem va2 x.pa l 5 k (by rw [hk]; exact hw))
  exact ⟨_, v, e, hv⟩

/-! Saves -/

def asked (r : Option (Bool × W64)) : State := modCtx (pulling 2 []) first fun x => { x with mon := { x.mon with ctxReq := r, ctxBusy := true, active := true }, run := { x.run with state := .monitor } }
def inMonitorState (r : Option (Bool × W64)) : Bool := (getCtx (asked r) first).run.state == .monitor && (getCtx (asked r) first).mon.ctxReq == r
theorem witness_SaveSteps_requests : ([none, some (false, 0x210000), some (false, 0x210001), some (true, 0x200000)].all inMonitorState) = true ∧
    imagePlace 0x210000 = true ∧ imagePlace 0x210001 = false ∧ imagePlace 0x9000000000000000 = false ∧ imagePlace 0x7000000000010000 = true ∧ imagePlace 0xC000000000000000 = true := by decide +kernel
theorem witness_SaveSteps_restore : restCheck { asked (some (true, 0x200000)) with kernels := [krn5] } first 0x200000 = 0 ∧ restCheck (asked (some (true, 0x200000))) first 0x200000 = 0x04 ∧
    (getCtx (asked none) (otherSlot first)).run.state = .empty := by decide +kernel
/-- A context that leaves for 0x200000. -/
def leaving : State := modCtx (pulling 2 []) first fun x => { x with run := { x.run with state := .saving, hold := none, rows := [], sb := [] }, prog := { x.prog with saveTo := 0x200000, absent := [], image := 0 }, con := { x.con with c0 := { tid := 5 } } }
theorem witness_SaveSteps_saving : leaving.cx.run.state = .saving ∧ leaving.cx.prog.saveGroup = 0 ∧ settled leaving first = true ∧ leaving.cx.run.hold = none ∧ leaving.cx.con.ctrs.length ≤ 3328 ∧
    leaving.cx.prog.saveTo.toNat / 2 ^ 60 < 8 ∧ (findRegion leaving leaving.cx.prog.region).isSome = true ∧ leaving.cid = first ∧ (5 ∈ leaving.cx.prog.footprint ∧ leaving.cx.prog.absent = []) ∧
    settled (modCtx leaving first fun x => { x with con := { x.con with c1 := { tid := 1, xfers := [timed5] } } }) first = false := by decide +kernel
def unit5 : HoistJob := { kind := 1, ctx := first, region := 5, unit := 5, image := 0x200000, data := List.replicate 4096 9 }
def copy5 (since : Option Nat) : HoistJob := { kind := 2, ctx := first, region := 5, unit := 5, image := 0x400000, src := 0x200000, pendSince := since }
def hoisting (d : Byte) (j : HoistJob) : State :=
  { pulling d [j] with regions := [{ reg5 with saved := [{ image := j.image }] }, region0] }
def landsFor (s : State) (image : Nat) : Bool :=
  s.migrations.isEmpty && okSat (translate s 5 (image + (unitSpan 5).1) { w := true }) (fun x => walkBelow s.mem (image + 0x80 + 5) x.pa 5 (effPtroot s 5)) &&
    (pieces (image + 0x80 + 5) 1).all fun p => p.1 == image + 0x80 + 5 && (translate s 5 p.1 { w := true }).isOk
theorem landsFor_writes (s : State) (image : Nat) (l : List Byte) (b : Byte) (hl : l.length = 4096) (hp : pieces (image + (unitSpan 5).1) 4096 = [(image + (unitSpan 5).1, 4096)]) (h : landsFor s image = true) :
    ∃ u v, writeVa s 5 (image + (unitSpan 5).1) l = .ok u ∧ writeVa u 5 (image + 0x80 + 5) [b] = .ok v := by
  simp only [landsFor, Bool.and_eq_true, List.isEmpty_iff] at h
  obtain ⟨x, hx, hw⟩ := okSat_of _ _ h.1.2
  exact writes_ok s 5 _ _ l x hl h.1.1 hp hx hw h.2 b
theorem witness_SaveSteps_hoist : nextWrite (hoisting 1 unit5) 0 = some unit5 ∧ unit5.kind = 1 ∧ unit5.image.toNat / 2 ^ 60 < 8 ∧
    (∃ u v, writeVa (hoisting 1 unit5) 5 (unit5.image.toNat + (unitSpan 5).1) unit5.data = .ok u ∧ writeVa u 5 (unit5.image.toNat + 0x80 + 5) [2] = .ok v) ∧
    (∃ u, writeVa (hoisting 1 unit5) 5 (unit5.image.toNat + 0x80 + 5) [3] = .ok u) ∧ poolOf (hoisting 1 unit5) 5 = none ∧
    (findSaved (hoisting 1 unit5) 5 0x200000).any (fun v => v.entry.isNone && v.bundle.isNone) = true :=
  ⟨by decide +kernel, by decide, by decide, landsFor_writes _ _ _ _ List.length_replicate (by decide) (by decide +kernel), writeVa_ok _ _ _ _ 1 rfl (by decide +kernel), by decide +kernel, by decide +kernel⟩
theorem witness_SaveSteps_copy : nextWrite (hoisting 2 (copy5 none)) 0 = some (copy5 none) ∧ nextWrite (hoisting 1 (copy5 none)) 0 = none ∧ ∃ l u v,
    opRead (hoisting 2 (copy5 none)) 5 ((copy5 none).src.toNat + (unitSpan 5).1) (unitSpan 5).2 = .ok l ∧
    writeVa (hoisting 2 (copy5 none)) 5 ((copy5 none).image.toNat + (unitSpan 5).1) l = .ok u ∧ writeVa u 5 ((copy5 none).image.toNat + 0x80 + 5) [2] = .ok v := by
  refine ⟨by decide +kernel, by decide +kernel, ?_⟩
  obtain ⟨l, hl, hn⟩ := okSat_of (opRead (hoisting 2 (copy5 none)) 5 ((copy5 none).src.toNat + (unitSpan 5).1) (unitSpan 5).2) (fun l => l.length == 4096) (by decide +kernel)
  obtain ⟨u, v, h⟩ := landsFor_writes (hoisting 2 (copy5 none)) (copy5 none).image.toNat l 2 (beq_iff_eq.mp hn) (by decide) (by decide +kernel)
  exact ⟨l, u, v, hl, h⟩
theorem leaving_list : (recencyList { leaving.cx with m := { leaving.cx.m with rowprog := 0 } }).length = 3 := by decide +kernel
theorem imageStart_length (s : State) (c : CtxId) (x : Ctx) (cause : Byte) (group : W64) (n : Nat) (h : (recencyList x).length = n) (hn : n ≤ 800) : (imageStart s c x cause group).length = 0x10000 := by
  have g : ∀ a : List Nat, (a.flatMap (leBytes 2)).length = 2 * a.length := by
    intro a
    induction a with
    | nil => rfl
    | cons w a ih => rw [List.flatMap_cons, List.length_append, leBytes_length, ih, List.length_cons]; omega
  simp only [imageStart, List.length_append, fieldBytes, headBytes, cellRead_length, shake_length 16 _ (by omega : 16 ≤ 200), List.length_replicate, List.length_map, List.length_range, g, h]
  omega
theorem witness_SaveSteps_image : ∃ u, writeVa leaving leaving.cx.prog.region leaving.cx.prog.saveTo.toNat
    (imageStart leaving leaving.cid { leaving.cx with m := { leaving.cx.m with rowprog := 0 } } leaving.cx.prog.saveCause 0) = .ok u :=
  writeVa_ok _ _ _ _ 0x10000 (imageStart_length _ _ _ _ _ 3 leaving_list (by omega)) (by decide +kernel)
def lateCopy (s : State) (j : HoistJob) : Bool := j.kind == 2 && (dirByte s j.region j.src j.unit == some 3 || j.pendSince.any fun t => decide (t + 2 ^ 20 ≤ tick s))
theorem witness_SaveSteps_failed : (let s := hoisting 3 (copy5 none); (getCl s 0).hoist.find? (lateCopy s) = some (copy5 none) ∧ (savedOwner s (copy5 none)).2.1 = none) ∧
    (let s := { hoisting 1 (copy5 (some 2631)) with now := 5000 + 2 ^ 20 / 10 * 19 + 12 }; (getCl s 0).hoist.find? (lateCopy s) = some (copy5 (some 2631))) ∧
    (let s := { hoisting 1 (copy5 (some 2632)) with now := 5000 + 2 ^ 20 / 10 * 19 + 12 }; (getCl s 0).hoist.find? (lateCopy s) = none) := by decide +kernel

/-! Timeouts and escalations -/

/-- Region 5 with its timer at `t`, a saved image with a waiter's record, and its context in a hold. -/
def overdue (t : Nat) (h : Hold) : State :=
  modCtx { package with regions := [{ reg5 with timer := t, saved := [{ image := 0x9000, waiter := some 5 }] }, region0] } first fun x => { x with
    mon := { x.mon with active := true, esc := true, mcause := 0x32, mtval := 99 }, run := { x.run with state := .monitor, hold := some h, waiting := true } }
theorem overdue_alone (t : Nat) (h : Hold) (c : CtxId) : (getCtx (overdue t h) c).con.c0.xfers = [] ∧ (getCtx (overdue t h) c).con.c1.xfers = [] ∧
    ∀ r, findRegion (overdue t h) (getCtx (overdue t h) c).prog.region = some r → r.dump = 0 := by
  have e : ∀ r ∈ (overdue t h).regions, r.dump = 0 := by
    intro r hr
    have : (overdue t h).regions = [{ reg5 with timer := t, saved := [{ image := 0x9000, waiter := some 5 }] }, region0] := rfl
    rw [this] at hr
    rcases List.mem_cons.mp hr with rfl | hr
    · rfl
    · rcases List.mem_cons.mp hr with rfl | hr
      · rfl
      · cases hr
  refine ⟨?_, ?_, fun r hr => e r (List.mem_of_find?_eq_some hr)⟩
  all_goals rcases others_none (overdue t h) rfl c with rfl | hc
  all_goals first | rfl | (rw [hc])
theorem witness_TimeoutsAndEscalations : (overdue 0 (.esc 3 true)).seqs = [] ∧ (overdue 0 (.esc 3 true)).packets = [] ∧
    (let s := overdue (2 ^ 30) (.esc 3 true); (findRegion s 5).any (fun r => decide (1024 * effTimeout s 5 ≤ r.timer)) = true ∧ effTracequota s 5 = 0 ∧ waitsNow s first = true ∧ inDomain s (faultDomain s 5 3) 5 = true ∧ regionCtxs s 5 = [first]) ∧
    (let s := overdue (2 ^ 30 - 1) (.esc 3 false); (findRegion s 5).any (fun r => decide (r.timer < 1024 * effTimeout s 5)) = true) ∧ (findRegion (overdue 0 .kend) 0).isSome = true ∧
    (getCtx (overdue 0 (.esc 3 false)) first).run.hold = some (.esc 3 false) ∧ (getCtx package first).run.hold = none := by decide +kernel
theorem witness_TimeoutsAndEscalations_retry : let s := overdue 0 (.esc 63 true); (getCtx s first).run.hold = some (.esc 63 true) ∧ (fetchBundle s first (getCtx s first)).isOk = true := by decide +kernel

/-! Stops and watches -/

def stopping (w : Option WatchStop) (d : Option (BitVec 14)) (n : Nat) : State :=
  modCl (modCtx package first fun x => { x with run := { x.run with state := .run, boundary := true, last := 0, watchStop := w, dstop := d }, mon := { x.mon with dbg := true } }) 0 fun k =>
    { k with wall := 100, trace := (List.range n).map fun i => (5, .ofNat 256 i) }
def watch1 : WatchStop := { addr := 0x10010, wp := 2, from_ := 3 }
def stopDue (s : State) : Bool := let x := getCtx s first; mayIssue x && isDue (focus s first) none && !x.mon.active && x.ctl.rptidx == 0 && (x.run.boundary || (currentLoop x.r).isNone)
theorem witness_StopSteps : stopDue (stopping none (some 7) 63) = true ∧ (getCl (stopping none (some 7) 63) 0).trace.length < 64 ∧ stopDue (stopping (some watch1) (some 7) 0) = true ∧ watch1.chan = none ∧
    stopDue (stopping none none 0) = true ∧ stopDue (modCtx (stopping none (some 7) 0) first fun x => { x with ctl := { x.ctl with rptidx := 1 } }) = false ∧
    stopDue (modCtx (stopping none (some 7) 0) first fun x => { x with mon := { x.mon with active := true } }) = false ∧
    (getCtx (stopping none none 0) first).mon.dbg = true ∧ (getCtx (stopping none none 0) first).run.state ≠ .empty ∧ (getCtx package first).mon.dbg = false ∧ (findRegion package 5).isSome = true := by decide +kernel
def storeX : Xfer := { tid := 5, op := .st64 { cs with stream := 2 }, args := [0x10010, 5], x := 0x10010, y := 5 }
def watching (q : Xfer) (ch : Side) : State := modCtx (stopping none none 63) first fun x => { x with
  con := { x.con with c0 := if ch = .a then { tid := 5, xfers := [q] } else {}, c1 := if ch = .b then { tid := 5, xfers := [q] } else {} }
  mon := { x.mon with watch := #v[{}, { armed := true, addr := 0x10010, mask := 0xFF }, {}, {}] } }
def watchFound (q : Xfer) (ch : Side) : Bool := let s := watching q ch; findXfer (getCtx s first) ch q.tid == some q && canComplete s first ch q.tid
theorem witness_StopSteps_watch : (∀ ch ∈ [Side.a, .b], watchFound storeX ch = true ∧ watchedBy (watching storeX ch) first storeX = some (0x10010, 1) ∧ watchFound { storeX with watched := true } ch = true) ∧
    (getCtx (watching storeX .a) first).run.watchStop = none ∧ storeX.watched = false ∧ watchFound { storeX with x := 0x10020, args := [0x10020, 5] } .a = true ∧
    watchedBy (watching { storeX with x := 0x10020, args := [0x10020, 5] } .a) first { storeX with x := 0x10020, args := [0x10020, 5] } = none := by decide +kernel

/-! Traces -/

/-- Region 5 with a trace buffer of `q` units at 0x10000 whose reader has read `r` records of `w`. -/
def traced (q r w : Nat) (l : List (W32 × BitVec 256)) : State :=
  modCl { package with
    regions := [{ reg5 with sample := 5, tbWrite := w, tbLost := 1, inForce := some (.ofNat 2048 (block5.toNat + q * 2 ^ (8 * 0x28) + 0x10000 * 2 ^ (8 * 0x70))) }, region0]
    mem := cellBlit tables 0x110008 (leBytes 8 r) } 0 fun k => { k with wall := 2 ^ 31 + 64, segCycle := 64, trace := l }
theorem witness_TraceSteps_points : (let s := traced 1 0 0 (List.replicate 48 (5, 7)); (getCl s 0).trace.length ≤ 48 ∧ sampleAt s 0 5 = true ∧ (getCtx s first).run.state ≠ .empty ∧ 2 ^ 31 ≤ (getCl s 0).wall - (getCl s 0).segCycle ∧
      (getCl s 0).trace.length + s.regions.length ≤ 64 ∧ clusterRegions s 0 = [5]) ∧
    (let s := modCl (traced 1 0 0 []) 0 fun k => { k with segCycle := 65 }; (getCl s 0).wall - (getCl s 0).segCycle < 2 ^ 31 ∧ (getCl s 0).trace = []) := by decide +kernel
/-- How many records the buffer holds and its room. -/
def drained (q r w : Nat) : Nat × Nat × Bool :=
  let s := traced q r w [(5, 900), (5, 901)]
  let u := modCl s 0 fun k => { k with trace := [(5, 901)] }
  let cap := effTracequota s 5 * 128 - 2
  (effTracequota s 5, cap, okSat (readVa u 5 (effTrbase s 5 + 8) 8) fun rd => decide (cap ≤ (w + 2 ^ 64 - leNat rd) % 2 ^ 64) || (writeVa u 5 (effTrbase s 5 + 64 + 32 * (w % cap)) (leBytes 32 900)).isOk)
theorem witness_TraceSteps : (getCl (traced 1 0 125 [(5, 900), (5, 901)]) 0).trace = (5, 900) :: [(5, 901)] ∧ (findRegion (traced 1 0 125 []) 5).isSome = true ∧
    (drained 0 0 3).1 = 0 ∧ drained 1 0 125 = (1, 126, true) ∧ drained 1 0 126 = (1, 126, true) ∧ ¬ (126 ≤ (125 + 2 ^ 64 - 0) % 2 ^ 64) ∧ 126 ≤ (126 + 2 ^ 64 - 0) % 2 ^ 64 ∧
    leNat (readPa (traced 1 0 0 []) 0x110008 8) = 0 := by decide +kernel

/-! ### Tile sequencers -/

def topWait : EntryId := ⟨3, 0, 5, true⟩
def topRun : EntryId := ⟨3, 0, 5, false⟩
def dieRun : EntryId := ⟨2, 0, 5, false⟩
def coreRun : EntryId := ⟨0, 0, 5, false⟩
/-- A tile word with its descriptor at 0x18000 and its shape block 0x40 after it. -/
def tword (op fmt : Nat) (level : Nat := 3) (replay : Nat := 0) : BitVec 128 := .ofNat 128 (op * 2 ^ 120 + level * 2 ^ 116 + fmt * 2 ^ 112 + replay * 2 ^ 101 + 2 ^ 100 + 0x40 * 2 ^ 64 + 0x18000)
/-- A descriptor of bases and pitches, a shape block of extents and parameters. -/
def descOf (bases p1 p2 : List Nat) : List Byte := bases.flatMap (leBytes 8 ·) ++ p1.flatMap (leBytes 4 ·) ++ p2.flatMap (leBytes 4 ·)
def shapeOf (x p : List Nat) : List Byte := x.flatMap (leBytes 4 ·) ++ p.map (.ofNat 8 ·) ++ List.replicate (16 - p.length) 0
def zero4 : List Nat := [0, 0, 0, 0]
def blocksOf (x : List Nat) (p : List Nat := []) : List Byte := descOf [0x10000, 0x10100, 0, 0] [8, 8, 0, 0] zero4 ++ shapeOf x p ++ List.replicate 384 0
def workOf (w : BitVec 128) (wide : Bool := false) : Work := { word := w, serial := 9, u0 := 0, k0 := 0, k1 := 1, wide := wide }
def topEntry (op fmt : Nat) (st : TileState) (x : List Nat) (p : List Nat := []) (replay : Nat := 0) : Entry := { state := st, work := some (workOf (tword op fmt 3 replay)), blocks := blocksOf x p }
def holding (l : List (EntryId × Entry)) : State := l.foldl (fun s p => setEntry s p.1 p.2) { package with cx := {} }

def stagedIs (s : State) (e : EntryId) : Bool := let x := getEntry s e
  x.state == .stage && !(classD (twOp (wordOfEntry x))) && twOp (wordOfEntry x) != 0x0B && x.parent.isNone && x.work.isSome && (stageAll s e.region (wordOfEntry x) x.blocks).isOk
def filling : State := holding [(topWait, topEntry 0x0F 0 .stage [200, 1, 1, 1])]
theorem witness_TileEntries_stage : stagedIs filling topWait = true ∧ isFree filling (activeOf topWait) = true ∧ splitsAxis (wordOfEntry (getEntry filling topWait)) = false ∧ unitCount (tword 0x0F 0) (blocksOf [200, 1, 1, 1]) = 2 ∧
    (let s := holding [(topWait, topEntry 0x0F 0 .stage [1, 1, 1, 1]), (topRun, topEntry 0x0F 0 .wait [1, 1, 1, 1])]; stagedIs s topWait = true ∧ isFree s (activeOf topWait) = false) ∧
    (getEntry filling topRun).state ≠ .stage ∧ (getEntry filling topRun).state ≠ .commit ∧ (getEntry filling topRun).state ≠ .join := by decide +kernel
def kid (issued done : Bool) (n : Nat) : Child := { work := workOf 0, place := n, issued := issued, done := done }
def kids (st : TileState) (l : List Child) (x : Entry := {}) : Entry := { (topEntry 0x0F 0 st [200, 1, 1, 1]) with children := l, doom := x.doom }
def dies : List (EntryId × Entry) := (List.range 8).map fun d => (⟨2, .ofNat 8 d, 5, true⟩, { state := .check })
def placed (s : State) (k : Nat) : Bool := let x := getEntry s topRun
  x.state == .issue && x.doom.isNone && match (x.children.zipIdx).find? (fun p => !p.1.issued) with
    | some (q, i) => i == k && (childPlace s topRun k q).any fun n => (childSlot s topRun n).isSome
    | none => false
theorem witness_TileEntries_children : placed (holding [(topRun, kids .issue [kid false false 0, kid false false 0])]) 0 = true ∧ placed (holding [(topRun, kids .issue [kid true false 0, kid false false 0])]) 1 = true ∧
    (let s := holding ((topRun, kids .issue [kid false false 0]) :: dies); placed s 0 = false ∧ (childPlace s topRun 0 (kid false false 0)).isSome = true) ∧
    (getEntry (holding [(topRun, kids .issue [kid false false 0] { doom := some (9, 3) })]) topRun).doom.isSome = true ∧
    (let x := getEntry (holding [(topRun, kids .wait [kid true true 0, kid true true 1])]) topRun; x.state = .wait ∧ x.children ≠ [] ∧ (∀ q ∈ x.children, q.done = true) ∧ 1 < x.children.length) ∧
    ¬ (∀ q ∈ (kids .wait [kid true true 0, kid true false 1]).children, q.done = true) := by decide +kernel
/-- A child of the second place that failed, `n` replays after its first issue. -/
def failed (replay n : Nat) : State := holding [(topRun, kids .wait [kid true true 0, { (kid true false 1) with replays := n }]),
  (dieRun, { state := .fault, reports := [5], work := some (workOf (tword 0x0F 0 0 replay)), parent := some (topRun, 1) })]
theorem witness_TileEntries_faults : ∀ p ∈ [(1, 0), (1, 2), (1, 3), (0, 0)], let s := failed p.1 p.2;
    childEntry s topRun 1 = some dieRun ∧ (getEntry s dieRun).state = .fault ∧ (getEntry s dieRun).reports = [5] ∧ ((getEntry s topRun).children[1]?).map (·.replays) = some p.2 ∧
      twReplay (wordOfEntry (getEntry s dieRun)) = (p.1 == 1) ∧ ∀ q ∈ s.seqs, q.2.parent.map (·.1) ≠ some dieRun := by decide +kernel
theorem witness_TileEntries_join : (∀ w ∈ [false, true], let s := holding [(topRun, { (topEntry 0x05 5 .join [2, 2, 2, 1]) with work := some (workOf (tword 0x05 5) w), split := true, partials := [(0, 0, 5, 0), (0, 0, 9, 2)] })];
      (getEntry s topRun).state = .join ∧ ((getEntry s topRun).work.map (·.wide)).getD false = w) ∧
    (let s := holding [(topRun, kids .wait [kid true false 0]), (dieRun, { state := .commit, work := some (workOf (tword 0x0F 0 0)), out := [(0x10000, [1, 2])], parent := some (topRun, 0) })];
      (getEntry s dieRun).state = .commit ∧ (getEntry s dieRun).parent = some (topRun, 0) ∧ (findRegion s 5).isSome = true) := by decide +kernel
def packetOf : Packet2 := { key := 4, region := 5, index := 77, cpl := .ofNat 64 0x90000, words := [(0, 0)], accepted := 1, first := some 9 }
def committing (o : List (W64 × List Byte)) (p : Option (Nat × Nat)) : State := { holding [(topRun, { (topEntry 0x0F 0 .commit [1, 1, 1, 1]) with out := o, packet := p })] with packets := if p.isSome then [packetOf] else [] }
theorem witness_TileEntries_commit : (∀ p ∈ [none, some (4, 0)], let s := committing [(0x10004, [9, 9]), (0x1FFFE, [7, 7])] p; let x := getEntry s topRun;
      x.state = .commit ∧ x.queue = [] ∧ x.pkts = [] ∧ x.packet = p ∧ (findRegion s 5).any (fun r => !r.bolter) = true ∧
        okSat (seqWriteAll s 5 (serialOf x) (.ofNat 4 (twStream (wordOfEntry x))) x.out) (fun u => u.2.isEmpty) = true ∧ s.seqs = [(topRun, x)]) ∧
    (packetOf.words.length = 1 ∧ packetOf.accepted = 1 ∧ packetOf.finished = false ∧ packetOf.committed = 0 ∧ packetOf.cpl ≠ 0) := by decide +kernel

def leafIn (pa fmt : Nat) : List Byte := leBytes 8 (entryOf pa + fmt * 256)
/-- Pages of FP32 at 0x10000, of wide sums at 0x20000, of phasors, Q4 and Q8 after them; an empty table of peers but for `peers`, packages with the same region. -/
def fmtCells (peers : List (Nat × Nat)) : List (Nat × List Byte) :=
  peers.map (fun p => (0x20000 + 8 * p.1, leBytes 8 (3 + p.2 * 16 + 5 * 2 ^ 32))) ++
    [(0x20048, leBytes 8 0), (0x1B008, leafIn 0x110000 0x40 ++ leafIn 0x120000 0x80), (0x1B018, leafIn 0x130000 0x14 ++ leafIn 0x140000 0x18 ++ leafIn 0x150000 0x61 ++ leafIn 0x160000 0x70 ++ leafIn 0x170000 0x4C ++ leafIn 0x180000 0x74)]
def fmtTables (peers : List (Nat × Nat)) : Memory := (fmtCells peers).foldl (fun m p => cellBlit m p.1 p.2) tables

/-- A tile word's fields: its shape block at 0x40 after its descriptor at 0x8000. -/
def tin (fmt : Nat) (level : Nat := 3) (e : EntryId := topWait) : TileIn :=
  { e := e, level := .ofNat 4 level, fmt := .ofNat 4 fmt, acq := 0, rel := 0, stream := 0, replay := 0, sd := 1, rsv := 0, shape := 0x40, desc := 0x8000 }
/-- A word in CHECK with its blocks in memory. -/
def checking (op : Nat) (t : TileIn) (bases p1 x p : List Nat) (peers : List (Nat × Nat) := []) (st : TileState := .check) : State :=
  setEntry { package with cx := {}, mem := cellBlit (fmtTables peers) 0x108000 (descOf bases p1 zero4 ++ shapeOf x p) } t.e
    { state := st, work := some { word := wordOfIn op t, serial := 9, u0 := 0, k0 := 0, k1 := 0 } }
/-- Well-formed words: opcode, format, bases, row pitches, extents, parameters. -/
def tileWords : List (Nat × Nat × List Nat × List Nat × List Nat × List Nat) := [
  (0x01, 0, [0x10000, 0x70000, 0x70100, 0], [8, 8, 8, 0], [1, 1, 1, 1], []), (0x0F, 0, [0x10000, 0, 0, 0], [8, 0, 0, 0], [1, 1, 1, 1], []),
  (0x16, 12, [0x30000, 0, 0, 0], zero4, [1, 1, 1, 1], [0, 0, 0, 0, 0, 0, 0, 0, 57]), (0x17, 12, [0, 0x30008, 0, 0], zero4, [1, 1, 1, 1], [0, 0, 0, 0, 0, 0, 0, 0, 57]),
  (0x18, 12, zero4, zero4, [1, 1, 1, 1], []), (0x0D, 12, zero4, zero4, [1, 1, 1, 1], []), (0x0C, 12, zero4, zero4, [1, 1, 1, 1], [])]
def stateOf (k : Nat × Nat × List Nat × List Nat × List Nat × List Nat) (e : EntryId := topWait) : State := checking k.1 (tin k.2.1 3 e) k.2.2.1 k.2.2.2.1 k.2.2.2.2.1 k.2.2.2.2.2
def goodWord (s : State) (op : Nat) (t : TileIn) : Bool := let x := getEntry s t.e
  x.state == .check && x.work.map (·.word) == some (wordOfIn op t) && okSat (checkWord s 5 (wordOfIn op t)) fun b => mayStage s t.e { x with blocks := b, ranges := hulls s 5 (wordOfIn op t) b }
theorem witness_TileWords_checked_a : ∀ k ∈ tileWords.take 2, goodWord (stateOf k) k.1 (tin k.2.1) = true ∧ isFree (stateOf k) (activeOf topWait) = true := by decide +kernel
theorem witness_TileWords_checked_b : ∀ k ∈ tileWords.drop 2, goodWord (stateOf k topRun) k.1 (tin k.2.1 3 topRun) = true := by decide +kernel
/-- A fill behind an active word that reads what it writes. -/
def blocked : State := setEntry (stateOf (0x0F, 0, [0x10000, 0, 0, 0], [8, 0, 0, 0], [1, 1, 1, 1], [])) topRun
  { state := .wait, work := some (workOf (tword 0x0E 0)), ranges := [(0x10000, 0x10004, false)] }
theorem witness_TileWords : goodWord blocked 0x0F (tin 0) = false ∧ (checkWord blocked 5 (wordOfIn 0x0F (tin 0))).isOk = true ∧
    (∀ f ∈ [12, 13], (checkWord (checking 0x0F (tin f) [0x10000, 0, 0, 0] zero4 [1, 1, 1, 1] []) 5 (wordOfIn 0x0F (tin f))).isOk = false) ∧ (∀ q ∈ blocked.seqs, q.2.parent = none) ∧
    (∀ k ∈ [0, 15], mayStage package topWait { work := some (workOf (wordOfIn (0xF0 + k) (tin 15 15))) } = true) := by decide +kernel
/-- A kernel with one input of 32 bytes, and a call of it. -/
def krnT : Kernel := { krn5 with tiles := [{ off := 0x1000, size := 64, fmt := 0x40, kind := 0 }], footprint := [0, 1, 5] }
def callBlock : List Byte := (List.range 15).flatMap (fun i => leBytes 8 (i * 0x1234567 + 1)) ++ leBytes 8 0 ++ leBytes 8 0x10000 ++ leBytes 4 16 ++ leBytes 4 2 ++ leBytes 4 32 ++ leBytes 4 0 ++ [0x40] ++ List.replicate 231 0
def calling : State := let t : TileIn := { (tin 12) with sd := 0, shape := 17 * 2 ^ 16 };
  let s := checking 0x0B t [0x8100, 0, 0, 0] zero4 zero4 [];
  { s with kernels := [krnT], mem := cellBlit s.mem 0x108100 callBlock }
theorem witness_TileWords_call : goodWord calling 0x0B { (tin 12) with sd := 0, shape := 17 * 2 ^ 16 } = true := by decide +kernel

/-- The entries of a peer table beyond the first `k`, where nothing is listed, are 0. -/
theorem cellRead_none {w : Nat} (m : Cells w) (n : Nat) : ∀ a, (∀ q ∈ m, q.1 < a ∨ a + n ≤ q.1) → cellRead m a n = List.replicate n (unlisted w) := by
  induction n with
  | zero => intro a _; rfl
  | succ n ih =>
    intro a h
    rw [List.replicate_succ]
    simp only [cellRead]
    rw [cellGet_none m a (fun q hq => by have := h q hq; omega), ih (a + 1) (fun q hq => by have := h q hq; omega)]
def tableEntry (s : State) (region : W32) (p : Nat) : Nat := leNat (readPa s (effPeertable s region + 8 * p) 8)
def shortTable (s : State) (region : W32) (k : Nat) : Bool := decide (k ≤ 4096) && s.mem.all fun q => decide (q.1 < effPeertable s region + 8 * k ∨ effPeertable s region + 8 * 4096 ≤ q.1)
theorem shortTable_entry (s : State) (region : W32) (k p : Nat) (h : shortTable s region k = true) (hp : k ≤ p) (hp' : p < 4096) : tableEntry s region p = 0 := by
  simp only [shortTable, Bool.and_eq_true, List.all_eq_true, decide_eq_true_eq] at h
  unfold tableEntry readPa
  rw [cellRead_none s.mem 8 _ (fun q hq => by have := h.2 q hq; omega)]
  exact leNat_zeros 8
theorem range_split (k : Nat) (h : k ≤ 4096) : List.range 4096 = List.range k ++ (List.range (4096 - k)).map (k + ·) := by
  have := List.range_add (n := k) (m := 4096 - k)
  rwa [show k + (4096 - k) = 4096 by omega] at this
def peersUpTo (s : State) (region : W32) (k : Nat) : List (Nat × Nat × Nat) :=
  if effPeertable s region = 0 then []
  else (List.range k).filterMap fun p =>
    if bitAt (tableEntry s region p) 0 ∧ bitAt (tableEntry s region p) 1 ∧ bits (tableEntry s region p) 4 12 ≠ s.fw.fab.toNat then
      some (p, bits (tableEntry s region p) 4 12, bits (tableEntry s region p) 32 32) else none
theorem peersOf_short (s : State) (region : W32) (k : Nat) (h : shortTable s region k = true) : peersOf s region = peersUpTo s region k := by
  have hk : k ≤ 4096 := by simp only [shortTable, Bool.and_eq_true, decide_eq_true_eq] at h; exact h.1
  change peersUpTo s region 4096 = peersUpTo s region k
  unfold peersUpTo
  split
  · rfl
  · rw [range_split k hk, List.filterMap_append]
    rw [show ((List.range (4096 - k)).map (k + ·)).filterMap _ = [] from ?_, List.append_nil]
    rw [List.filterMap_eq_nil_iff]
    intro p hp
    obtain ⟨i, hi, rfl⟩ := List.mem_map.mp hp
    rw [shortTable_entry s region k (k + i) h (by omega) (by have := List.mem_range.mp hi; omega)]
    simp [bitAt]

def ownUpTo (s : State) (region : W32) (k : Nat) : Option Nat :=
  if effPeertable s region = 0 then none
  else (List.range k).find? fun p => bitAt (tableEntry s region p) 0 && bitAt (tableEntry s region p) 1 && bits (tableEntry s region p) 4 12 == s.fw.fab.toNat
def rankUpTo (s : State) (region : W32) (k : Nat) : Nat := (peersUpTo s region k).countP fun q => match ownUpTo s region k with
  | some p => decide (q.1 < p)
  | none => decide (q.2.1 < s.fw.fab.toNat)
theorem ownRank_short (s : State) (region : W32) (k : Nat) (h : shortTable s region k = true) : ownRank s region = rankUpTo s region k := by
  have hk : k ≤ 4096 := by simp only [shortTable, Bool.and_eq_true, decide_eq_true_eq] at h; exact h.1
  have e : ownUpTo s region 4096 = ownUpTo s region k := by
    unfold ownUpTo
    split
    · rfl
    · rw [range_split k hk, List.find?_append]
      rw [show ((List.range (4096 - k)).map (k + ·)).find? _ = none from ?_, Option.or_none]
      rw [List.find?_eq_none]
      intro p hp
      obtain ⟨i, hi, rfl⟩ := List.mem_map.mp hp
      rw [shortTable_entry s region k (k + i) h (by omega) (by have := List.mem_range.mp hi; omega)]
      simp [bitAt]
  unfold rankUpTo
  rw [← e, ← peersOf_short s region k h]
  rfl

/-- tw.barrier 3 and tw.allreduce of three rows of two elements over packages, with package 5 as the peer. -/
def barT : TileIn := tin 12 4 topRun
def redT : TileIn := tin 5 4 topRun
def barState (st : TileState) : State := checking 0x0C barT zero4 zero4 [1, 1, 1, 1] [3] [(8, 5)] st
def redState (peers : List (Nat × Nat)) (st : TileState) : State := checking 0x09 redT [0x30000, 0x30100, 0, 0] [8, 8, 0, 0] [2, 3, 1, 1] [] peers st
theorem witness_TileWords_packages : goodWord (barState .check) 0x0C barT = true ∧ twLevel (wordOfIn 0x0C barT) = 4 ∧ peersOf (barState .check) 5 = [(8, 5, 5)] :=
  ⟨by decide +kernel, by decide +kernel, (peersOf_short _ _ 9 (by decide +kernel)).trans (by decide +kernel)⟩
theorem witness_TileWords_sum : goodWord (redState [(8, 5)] .check) 0x09 redT = true ∧
    okSat (checkWord (redState [(8, 5)] .check) 5 (wordOfIn 0x09 redT)) (fun b => (stageAll (redState [(8, 5)] .check) 5 (wordOfIn 0x09 redT) b).isOk) = true := by decide +kernel
def heardOf (s : State) (l : List (BitVec 12 × W32 × PktBody)) : State := { s with fabric := { s.fabric with heard := l } }
def barWaits (l : List (BitVec 12 × W32 × PktBody)) : Bool := let s := heardOf (barState .wait) l; let x := getEntry s topRun
  x.state == .wait && x.work.map (·.word) == some (wordOfIn 0x0C barT) && x.queue.isEmpty && s.fabric.heard == l
theorem witness_TileWords_arrived : barWaits [] = true ∧ barWaits [(5, 5, .barrier 0)] = true ∧ peersOf (barState .wait) 5 = [(8, 5, 5)] :=
  ⟨by decide +kernel, by decide +kernel, (peersOf_short _ _ 9 (by decide +kernel)).trans (by decide +kernel)⟩
/-- The waiting sum with its blocks and staged rows; what package 5 sent of the rows that are its own, or of the others. -/
def summing (split sums : Bool) (l : List Nat) (peers : List (Nat × Nat) := [(8, 5)]) : State :=
  let s := redState peers .wait;
  heardOf (setEntry s topRun { (getEntry s topRun) with blocks := descOf [0x30000, 0x30100, 0, 0] [8, 8, 0, 0] zero4 ++ shapeOf [2, 3, 1, 1] [], split := split, staged := [(1 + 4 * 0x14, List.replicate 6 1)] })
    (l.map fun i => (5, 5, .rows sums (.ofNat 32 i) 0 [7, 8]))
def summingCheck (s : State) (split : Bool) : Bool :=
  let x := getEntry s topRun; let w := wordOfIn 0x09 redT; let n := ext w x.blocks 0 * codeSize (tenOf w x.blocks x.staged 1).code
  x.state == .wait && x.queue.isEmpty && x.split == split && decide (0 < n) && decide (n ≤ 256) && ext w x.blocks 1 == 3
theorem witness_TileWords_rows : summingCheck (summing false false []) false = true ∧ summingCheck (summing true true []) true = true ∧ peersOf (summing false false []) 5 = [(8, 5, 5)] ∧
    ownRank (summing false false []) 5 = 1 ∧ ownedRows 3 2 0 = [0, 1] ∧ ownedRows 3 2 1 = [2] ∧
    (summing false false [2]).fabric.heard = (ownedRows 3 2 1).map (fun i => (5, 5, PktBody.rows false (.ofNat 32 i) 0 [7, 8])) ∧
    (summing true true [0, 1]).fabric.heard = (ownedRows 3 2 0).map (fun i => (5, 5, PktBody.rows true (.ofNat 32 i) 0 [7, 8])) ∧ peersOf (summing false false [] []) 5 = [] := by
  refine ⟨by decide +kernel, by decide +kernel, (peersOf_short _ _ 9 (by decide +kernel)).trans (by decide +kernel), (ownRank_short _ _ 9 (by decide +kernel)).trans ?_, by decide, by decide,
    by decide +kernel, by decide +kernel, (peersOf_short _ _ 9 (by decide +kernel)).trans (by decide +kernel)⟩
  decide +kernel

/-! Built-in kernels and kernel starts -/

/-- A unit of a top-level word at core 0, about to start or running. -/
def unitOf (op fmt : Nat) (x p : List Nat) (st : List (Nat × List Byte)) (u0 k0 k1 : Nat) (wide : Bool) (running : Bool) : State :=
  let s := holding [(topRun, { state := .wait, work := some { word := tword op fmt, serial := 9, u0 := 0, k0 := 0, k1 := 1 }, blocks := blocksOf x p, staged := st }),
    (coreRun, { state := if running then .wait else .stage, work := some { word := tword op fmt 0, serial := 9, u0 := u0, k0 := k0, k1 := k1, wide := wide, chunk := 3 }, parent := some (topRun, 0) })];
  if running then modCtx s first fun x => { x with run := { x.run with state := .run }, prog := { x.prog with region := 5, tenant := 7, serial := 9, entry := some coreRun, builtin := true } } else s
def startsUnit (s : State) : Bool := let x := getEntry s coreRun
  x.work.isSome && x.state == .stage && first.core == coreRun.place && slotOpen s first 5 && twOp (wordOfEntry (getEntry s (rootOf s coreRun))) != 0x0B
def runsUnit (s : State) (op : Nat) : Bool := (getEntry s coreRun).work.isSome && runsBuiltin s coreRun first && twOp (wordOfEntry (getEntry s (rootOf s coreRun))) == op
theorem witness_TileResults : startsUnit (unitOf 0x0F 0 [3, 2, 2, 1] [] [] 0 0 0 false false) = true ∧
    (∀ op ∈ [0x0F, 0x0E, 0x06, 0x07, 0x14, 0x11, 0x13, 0x01], runsUnit (unitOf op 0 [3, 2, 1, 1] [] [] 0 0 1 false true) op = true) ∧ runsUnit (unitOf 0x01 0 [3, 2, 5, 1] [] [] 0 2 5 true true) 0x01 = true := by decide +kernel
theorem witness_TileResults_ops : (∀ p ∈ [(0x03, 0x12), (0x04, 0x00), (0x12, 0x4A)], let s := unitOf p.1 0 [3, 2, 1, 1] [p.2] [] 0 0 1 false true; runsUnit s p.1 = true ∧
      (opOfWord (wordOfEntry (getEntry s (rootOf s coreRun))) (getEntry s (rootOf s coreRun)).blocks).isSome = true) ∧
    (∀ p ∈ [0, 1, 2], let s := unitOf 0x05 5 [5, 3, 1, 1] [p] [(1 + 4 * 0x14, List.replicate 60 1)] 0 0 5 false true; runsUnit s 0x05 = true ∧
      codeFloat (tenOf (wordOfEntry (getEntry s (rootOf s coreRun))) (getEntry s (rootOf s coreRun)).blocks (stagedAbove s coreRun) 1).code = none ∧
      prm (getEntry s (rootOf s coreRun)).blocks 0 1 = p) := by decide +kernel
/-- A call of the kernel at core 0, in STAGE or started. -/
def callOf (st : TileState) (tiles : List KTile) : State :=
  { holding [(topRun, { state := .wait, work := some { word := .ofNat 128 (0x0B * 2 ^ 120 + 3 * 2 ^ 116 + 12 * 2 ^ 112 + 17 * 2 ^ 80 + 0x8000), serial := 9, u0 := 0, k0 := 0, k1 := 1 }, blocks := List.replicate 96 0 ++ callBlock }),
    (coreRun, { state := st, work := some { word := .ofNat 128 (0x0B * 2 ^ 120 + 12 * 2 ^ 112 + 17 * 2 ^ 80 + 0x8000), serial := 9, u0 := 0, k0 := 0, k1 := 0 }, parent := some (topRun, 0) })] with kernels := [{ krnT with tiles := tiles }] }
def tile0 (kind : Nat) : KTile := { off := 0x1000, size := 64, fmt := 0x40, kind := kind }
def callIs (s : State) : Bool := let w := wordOfEntry (getEntry s (rootOf s coreRun))
  twOp w == 0x0B && (callKernel s 5 w).any fun k => !k.group && k.region == 5 && blocksFit s first k.footprint && match makeResident s first k with
    | some u => (stageTiles u k.region k (getEntry s (rootOf s coreRun)).blocks 0).isOk && (getCore u 0).left.isEmpty
    | none => false
theorem witness_KernelStarts : (∀ k ∈ [0, 1, 2], let s := callOf .stage [tile0 k]; callIs s = true ∧ (getEntry s coreRun).state = .stage ∧ slotOpen s first 5 = true ∧ blk (getEntry s (rootOf s coreRun)).blocks (96 + 0x78) 8 = 0) ∧
    (let s := callOf .check []; callIs s = true ∧ startsNow s coreRun first = false ∧ runsBuiltin s coreRun first = false ∧ (getEntry s coreRun).state ≠ .stage) ∧
    (let s := modCtx (callOf .wait []) first fun x => { x with run := { x.run with state := .loading }, prog := { x.prog with region := 5, entry := some coreRun } }; startsNow s coreRun first = true) := by decide +kernel

/-! ### Steps -/

/-- A lone bundle at the pc whose word decodes to `y`. -/
def placedAs (y : Syl) : State :=
  let s := placeWord State.reset y.slot.bits (encodeSyl y);
  { s with cores := [(0, { (getCore s 0) with imem := cellBlit [] 0 (leBytes 4 (loneBun s.cx y).hdr ++ leBytes (y.slot.bits / 8) (encodeSyl y)) })] }
def fetchedIs (s : State) (y : Syl) (w : Nat) : Bool :=
  okIs (fetchBundle s s.cid s.cx) { loneBun s.cx y with words := [(y.slot.num, w)] } && fetchAllowed s.cx (loneBun s.cx y) && isDue s (some (loneBun s.cx y)) && okIs (decodeSyl y.slot w) y
def steps : List Syl := [.s (.add ⟨0, 1, 2, 3⟩), .s (.trap ⟨0, 5⟩), .l (.br ⟨0, 5⟩), .l (.kend ⟨0⟩), .k (.kldp ⟨0, 0, 1, 2⟩), .v .a (.vaddI32 vr), .v .b (.vaddI32 vr), .m (.mshift { mo with row := 5 }), .c .a (.copy1d ca), .band 0 0xF0000000]
theorem witness_StepRuns : ∀ y ∈ steps, calmCheck (placedAs y) = true ∧ fetchedIs (placedAs y) y (encodeSyl y) = true := by decide +kernel
theorem witness_StepRuns_step : (let s := placedAs (.s (.add ⟨0, 1, 2, 3⟩)); s.oracle = [] ∧ s.commands = [] ∧ ¬ (1 ≤ s.fw.boot ∧ s.fw.boot ≤ 6) ∧ s.todo = .issue s.cid :: []) ∧
    (State.reset.oracle = [] ∧ 1 ≤ State.reset.fw.boot ∧ State.reset.fw.boot ≤ 6) ∧
    (let s := { package with oracle := [(5000, .bundleIssue ⟨first, none⟩), (5001, .bundleIssue ⟨first, none⟩)] }; s.oracle = (5000, .bundleIssue ⟨first, none⟩) :: s.oracle.tail ∧ 5000 ≤ s.now) ∧
    (let s := { package with todo := [] }; s.oracle = [] ∧ s.commands = [] ∧ ¬ (1 ≤ s.fw.boot ∧ s.fw.boot ≤ 6) ∧ s.todo = []) := by decide +kernel
theorem witness_StepsComplete : (readyCheck (placedAs (.s (.add ⟨0, 1, 2, 3⟩))) [.s (.add ⟨0, 1, 2, 3⟩)] && passesCheck (placedAs (.s (.add ⟨0, 1, 2, 3⟩))) (.s (.add ⟨0, 1, 2, 3⟩))) = true ∧
    isBand (.s (.add ⟨0, 1, 2, 3⟩)) = false ∧
    (semForm (.s (.add ⟨0, 1, 2, 3⟩)) (loneIss (placedAs (.s (.add ⟨0, 1, 2, 3⟩))) (.s (.add ⟨0, 1, 2, 3⟩))) (loneStart (placedAs (.s (.add ⟨0, 1, 2, 3⟩))) (.s (.add ⟨0, 1, 2, 3⟩)))).isOk = true := by decide +kernel
/-- The same forms under a guard that is off. -/
def guarded : List Syl := [.s (.add ⟨1, 1, 2, 3⟩), .s (.trap ⟨1, 5⟩), .l (.br ⟨7, 5⟩), .l (.kend ⟨1⟩), .k (.kldp ⟨1, 0, 1, 2⟩), .v .a (.vaddI32 { vr with g := 1 }), .v .b (.vaddI32 { vr with g := 1 }), .m (.mshift { mo with g := 1, row := 5 }),
  .m (.macc { mo with g := 1, form := 1, sw := 1 }), .c .a (.copy1d { ca with g := 15 })]
def guardedOff (s : State) (y : Syl) : Bool := calmCheck s && wfSyl y && passesCheck s y && !isBand y && !guardOn s.cx.r (guardOf y)
theorem witness_GuardedOff : (∀ y ∈ guarded, guardedOff (calmWith (withRegs fun r => { r with g := 1 })) y = true) ∧
    (∀ p ∈ [(0, 0xF0000000), (1, 0xF0000000), (2, 0xFF000000), (3, 0xF000000000000000), (7, 0xF0000000)], bandWord (.ofNat 3 p.1) (.ofNat 64 p.2) = true → (calmCheck calm && passesCheck calm (.band (.ofNat 3 p.1) (.ofNat 64 p.2))) = true) ∧
    bandWord 0 0xF0000000 = true := by decide +kernel
theorem witness_DecodeEncode : (∀ y ∈ steps ++ guarded, wfSyl y = true) ∧ (decodeSyl .s 0x2F010100).isOk = true := by decide +kernel
theorem witness_MemoryCanonical : Memory.wf tables ∧ (match step { package with todo := [] } with | .next _ => true | _ => false) = true := by
  refine ⟨?_, by decide +kernel⟩
  have f : ∀ (l : List (Nat × Nat)) (m : Memory), Memory.wf m → Memory.wf (l.foldl (fun m p => cellBlit m p.1 (leBytes 8 p.2)) m) := by
    intro l
    induction l with
    | nil => intro m h; exact h
    | cons p l ih => intro m h; exact ih _ (wf_cellBlit m p.1 _ h)
  exact f _ _ wf_nil

/-! ### The spec's worked examples -/

/-- 13 R265 and its worked decomposition: the fields of the tile word. -/
theorem test_tile_word : wordOfIn 0x01 { e := topWait, level := 3, fmt := 1, acq := 0, rel := 4, stream := 0, replay := 1, sd := 1, rsv := 0, shape := 0x40, desc := 0x2000001000 } = 0x01311030000000400000002000001000 := by decide
/-- The region of that example may use the clusters of dies 0 to 3; its output page lies on die 1. -/
def decomposed : State :=
  let s := { package with
    regions := [{ reg5 with inForce := some (.ofNat 2048 (block5.toNat - 0xFFFF0000 * 2 ^ (8 * 0x1C))) }, region0], mem := cellBlit tables 0x1B008 (leBytes 8 (entryOf (2 ^ 36 + 0x110000) + 0x4800)) }
  setEntry { s with clusters := (List.range 16).map fun k => (k, { (getCl s k) with started := true }) } topRun
    { state := .issue, work := some { word := tword 0x01 1, serial := 9, u0 := 0, k0 := 0, k1 := 0 }, blocks := descOf [0x10000, 0, 0, 0] [256, 0, 0, 0] zero4 ++ shapeOf [128, 256, 65536, 1] [] }
/-- 13 R274, R276, the worked decomposition: units, chunks and dies of the children. -/
theorem test_decomposition : (let x := getEntry decomposed topRun; let l := (childrenOf decomposed topRun x (wordOfEntry x) x.blocks).1
    l.zipIdx.map (fun p => (p.1.work.u0, p.1.work.k0, p.1.work.k1, p.1.work.wide, childPlace decomposed topRun p.2 p.1))) =
      [(0, 0, 32768, true, some 1), (0, 32768, 65536, true, some 2), (1, 0, 32768, true, some 3), (1, 32768, 65536, true, some 0)] := by decide +kernel
/-- 04 R82: the anchored products 1.5 × 2^-138 and 2^120 at anchor 0. -/
theorem test_anchored : productCode true 0 (some (.fin false 3 (-139))) = (0, true) ∧ productCode true 0 (some (.fin false 1 120)) = (satP, false) := by decide +kernel
/-- 04 R81: the three products of the example in either order, and its FP32 drain. -/
theorem test_exact_cell : (let c := fun (n : Bool) (m : Nat) (e : Int) => (productCode false 0 (some (.fin n m e))).1;
    wideAdd (wideAdd (c false 7 65) (c false 1 (-68))) (c true 7 65) = 0x100000000000000000 ∧ wideAdd (wideAdd (c false 7 65) (c true 7 65)) (c false 1 (-68)) = 0x100000000000000000) ∧
    drainCell fp32 0 0x100000000000000000 = (0x1D800000, 0) := by decide +kernel
/-- 05, the worked reduction: 2^24 and three ones give 16,777,218. -/
theorem test_tree : (treeNode 0xF (.ofNat 2048 (0x4B800000 + 0x3F800000 * (2 ^ 32 + 2 ^ 64 + 2 ^ 96))) (fun _ x y => fadd fp32 0 0 x y) 6 0).1 = some 0x4B800001 := by decide +kernel
/-- FIPS 202: SHAKE256 of no bytes. -/
theorem test_shake : shake256 16 [] = [0x46, 0xB9, 0xDD, 0x2B, 0x0B, 0xA8, 0x8D, 0x13, 0x23, 0x3B, 0x3F, 0xEB, 0x74, 0x3E, 0xEB, 0x24] := by decide +kernel

def lastS (o : Host.Outcome State Fault Refusal) (n : Nat) : Option W64 :=
  match o with
  | .next s => some (sGet s.cx.r n)
  | _ => none
/-- 05 R100: a sum wraps. -/
theorem test_add_wraps : lastS (exec (.add ⟨0, 3, 1, 2⟩) (calmWith (withRegs fun r => { r with s := [(1, 0xFFFFFFFFFFFFFFFF), (2, 2)] }))) 3 = some 1 := by decide +kernel
/-- 03 R45: s0 stays 0. -/
theorem test_s0_discards : lastS (exec (.add ⟨0, 0, 1, 2⟩) (calmWith (withRegs fun r => { r with s := [(1, 5), (2, 2)] }))) 0 = some 0 := by decide +kernel

end Sys2Proof.Tests
end

section
/-! The issue of an S or L syllable, said once for every instruction of the slot. -/

namespace Sys2Proof.Machine

/-- The slot reads its sources as they stood before the issue (05 R95). -/
@[simp] theorem rs_loneIss (s : State) (y : Syl) (n : BitVec 6) : rs (loneIss s y) n = sv s n := rfl

/-- A syllable whose guard is true takes its effect. -/
theorem guarded_on {s : State} (y : Syl) (g : BitVec 4) (h : guardOn s.cx.r g = true) (t : State) (f : Res) : guarded (loneIss s y) g t f = f :=
  if_pos (Or.inr ((loneView_guard s y g).trans h))

/-- Guard 0 is always true. -/
theorem guarded_zero (iss : Iss) (s : State) (f : Res) : guarded iss 0 s f = f := if_pos (Or.inr rfl)

/-- An instruction whose meaning is the guarded write of one s register. -/
theorem writesS_of_sem {i : Instr} {y : SSyl} {n : BitVec 6} {g : BitVec 4} {P : State → W64 → Prop} (val : Iss → W64) (hi : instrOf (.s y) = i)
    (hg : guardOf (.s y) = g) (hf : ∀ c, formLegal c (.s y) false = true) (hsem : ∀ iss s, semS y iss s = guarded iss g s (.ok (wrS s n (val iss))))
    (hval : ∀ s, P s (val (loneIss s (.s y)))) : WritesS i y n P := by
  intro s ⟨hc, hw, hon⟩
  have hs : semS y (loneIss s (.s y)) (loneStart s (.s y)) = .ok (wrS (loneStart s (.s y)) n (val (loneIss s (.s y)))) :=
    (hsem _ _).trans (guarded_on _ _ (hg ▸ hon) _ _)
  exact ⟨_, _, hi ▸ exec_instrOf (.s y) s, hval s, exec_wrS hc y hw hf hon n _ hs⟩

/-- An instruction whose meaning is the guarded write of one guard. -/
theorem writesG_of_sem {i : Instr} {y : SSyl} {n : BitVec 6} {g : BitVec 4} {f : State → Bool} (val : Iss → Bool) (hi : instrOf (.s y) = i)
    (hg : guardOf (.s y) = g) (hf : ∀ c, formLegal c (.s y) false = true) (hsem : ∀ iss s, semS y iss s = guarded iss g s (.ok (wrG s n (val iss))))
    (hval : ∀ s, val (loneIss s (.s y)) = f s) : WritesG i y n f := by
  intro s ⟨hc, hw, hon⟩
  have hs : semS y (loneIss s (.s y)) (loneStart s (.s y)) = .ok (wrG (loneStart s (.s y)) n (f s)) := by
    rw [hsem, guarded_on _ _ (hg ▸ hon), hval]
  exact ⟨_, hi ▸ exec_instrOf (.s y) s, exec_wrG hc y hw hf hon n _ hs⟩

end Sys2Proof.Machine
end

section
/-! Bit counts and bit fields of 05 R100-R104, bit by bit. -/

namespace Sys2Proof.Machine

theorem foldl_b2n_eq_length_filter {α : Type} (p : α → Bool) (l : List α) (k : Nat) : l.foldl (fun n a => n + b2n (p a)) k = k + (l.filter p).length := by
  induction l generalizing k with
  | nil => rfl
  | cons a l ih =>
    rw [List.foldl_cons, ih]
    cases h : p a with
    | false => simp only [List.filter_cons, h, b2n, Bool.false_eq_true, if_false, Nat.add_zero]
    | true => simp only [List.filter_cons, h, b2n, if_true, List.length_cons, Nat.add_assoc, Nat.add_comm 1]

theorem popcount_eq (x : W64) : popcount x = ((List.range 64).filter fun i => x.getLsbD i).length :=
  (foldl_b2n_eq_length_filter (fun i => x.getLsbD i) (List.range 64) 0).trans (Nat.zero_add _)

theorem lt_two_pow_bitLen (n : Nat) : n < 2 ^ bitLen n := by
  unfold bitLen
  split
  · simp [*]
  · exact Nat.lt_log2_self

theorem two_pow_le_of_bitLen {n k : Nat} (h : bitLen n = k + 1) : 2 ^ k ≤ n := by
  unfold bitLen at h
  split at h
  · cases h
  · rename_i hn
    obtain rfl : Nat.log2 n = k := Nat.succ.inj h
    exact Nat.log2_self_le hn

theorem bitLen_le {n w : Nat} (h : n < 2 ^ w) : bitLen n ≤ w := by
  cases hk : bitLen n with
  | zero => exact Nat.zero_le w
  | succ k => exact (Nat.pow_lt_pow_iff_right (by decide)).mp (Nat.lt_of_le_of_lt (two_pow_le_of_bitLen hk) h)

/-- A count that a 64-bit register holds. -/
theorem toNat_ofNat_count {n : Nat} (h : n ≤ 64) : (BitVec.ofNat 64 n).toNat = n := by
  simp only [BitVec.toNat_ofNat]
  omega

theorem leadingZeros_spec (x : W64) :
    leadingZeros x ≤ 64 ∧ x.toNat < 2 ^ (64 - leadingZeros x) ∧ (leadingZeros x < 64 → 2 ^ (63 - leadingZeros x) ≤ x.toNat) := by
  have hle := bitLen_le x.isLt
  have hsub : 64 - leadingZeros x = bitLen x.toNat := by unfold leadingZeros; omega
  refine ⟨by unfold leadingZeros; omega, hsub ▸ lt_two_pow_bitLen _, fun h => two_pow_le_of_bitLen ?_⟩
  omega

theorem trailingZeros_spec (x : W64) :
    trailingZeros x ≤ 64 ∧ (∀ i, i < trailingZeros x → x.getLsbD i = false) ∧ (trailingZeros x < 64 → x.getLsbD (trailingZeros x) = true) := by
  unfold trailingZeros
  cases h : (List.range 64).find? fun i => x.getLsbD i with
  | none =>
    rw [List.find?_range_eq_none] at h
    exact ⟨Nat.le_refl 64, fun i hi => by simpa using h i hi, fun hlt => absurd hlt (Nat.lt_irrefl 64)⟩
  | some k =>
    obtain ⟨hk, hmem, hlow⟩ := List.find?_range_eq_some.mp h
    exact ⟨Nat.le_of_lt (List.mem_range.mp hmem), fun i hi => by simpa using hlow i hi, fun _ => hk⟩

@[simp] theorem getLsbD_lowMask (n i : Nat) : (lowMask n).getLsbD i = (decide (i < 64) && decide (i < n)) := by
  simp [lowMask, BitVec.getLsbD_ofNat, Nat.testBit_two_pow_sub_one]

/-- The mask of the `n` bits from bit `lo` on. -/
theorem getLsbD_fieldMask (n lo i : Nat) (hi : i < 64) : (lowMask n <<< lo).getLsbD i = decide (lo ≤ i ∧ i < lo + n) := by
  rw [Bool.eq_iff_iff]
  simp only [BitVec.getLsbD_shiftLeft, getLsbD_lowMask, hi, Bool.and_eq_true, Bool.not_eq_true', decide_eq_true_eq, decide_eq_false_iff_not, true_and]
  omega

theorem getLsbD_bitExtract (x y : W64) (i : Nat) (hi : i < 64) :
    (bitExtract x y).getLsbD i = (decide (i ≤ y.toNat / 256 % 64) && x.getLsbD (y.toNat % 64 + i)) := by
  simp only [bitExtract, fieldPos, fieldWidth, BitVec.getLsbD_and, BitVec.getLsbD_ushiftRight, getLsbD_lowMask, hi, Nat.lt_succ_iff, decide_true,
    Bool.true_and, Bool.and_comm]

theorem getLsbD_bitInsert (d x y : W64) (i : Nat) (hi : i < 64) :
    (bitInsert d x y).getLsbD i =
      if y.toNat % 64 ≤ i ∧ i ≤ y.toNat % 64 + y.toNat / 256 % 64 then x.getLsbD (i - y.toNat % 64) else d.getLsbD i := by
  simp only [bitInsert, BitVec.getLsbD_or, BitVec.getLsbD_and, BitVec.getLsbD_not, getLsbD_fieldMask _ _ i hi, BitVec.getLsbD_shiftLeft, hi,
    fieldPos, fieldWidth, ← Nat.add_assoc, Nat.lt_succ_iff]
  split
  · rename_i hin
    simp [hin, Nat.not_lt.mpr hin.1]
  · rename_i hout
    simp [hout]

theorem getLsbD_insertBits (d : W64) (lo n v i : Nat) (hi : i < 64) :
    (insertBits d lo n v).getLsbD i = if lo ≤ i ∧ i < lo + n then v.testBit (i - lo) else d.getLsbD i := by
  simp only [insertBits, BitVec.getLsbD_or, BitVec.getLsbD_and, BitVec.getLsbD_not, getLsbD_fieldMask _ _ i hi, BitVec.getLsbD_shiftLeft, hi,
    BitVec.getLsbD_ofNat, Nat.testBit_mod_two_pow]
  split
  · rename_i hin
    have hlow : i - lo < n ∧ i - lo < 64 := by omega
    simp [hin, hlow, Nat.not_lt.mpr hin.1]
  · rename_i hout
    have hoff : i < lo ∨ ¬ i - lo < n := by omega
    rcases hoff with hoff | hoff <;> simp [hout, hoff]

/-- The field of a `movk` that starts at bit `lo` and holds the whole immediate. -/
theorem getLsbD_insertBits_imm {w : Nat} (d : W64) (lo : Nat) (imm : BitVec w) (i : Nat) (hi : i < 64) :
    (insertBits d lo w imm.toNat).getLsbD i = if lo ≤ i ∧ i < lo + w then imm.getLsbD (i - lo) else d.getLsbD i :=
  getLsbD_insertBits d lo w imm.toNat i hi

theorem bitAt_eq_testBit (w k : Nat) : bitAt w k = w.testBit k := by
  rw [Nat.testBit_eq_decide_div_mod_eq]
  rfl

/-- The table of `lop3`, high part above low part (03 R50). -/
theorem bitAt_lop3Table (th : BitVec 2) (tl : BitVec 6) (k : Nat) : bitAt (64 * th.toNat + tl.toNat) k = (th ++ tl).getLsbD k := by
  rw [bitAt_eq_testBit, BitVec.getLsbD, BitVec.toNat_append, ← Nat.shiftLeft_add_eq_or_of_lt tl.isLt, Nat.shiftLeft_eq, Nat.mul_comm]

theorem getLsbD_ite_zero (c : Bool) (x : W64) (i : Nat) : (if c then x else 0).getLsbD i = (c && x.getLsbD i) := by
  cases c <;> simp

theorem getLsbD_lop3Value (tbl : Nat) (a b d : W64) (i : Nat) (hi : i < 64) :
    (lop3Value tbl a b d).getLsbD i = bitAt tbl (4 * (a.getLsbD i).toNat + 2 * (b.getLsbD i).toNat + (d.getLsbD i).toNat) := by
  simp only [lop3Value, BitVec.getLsbD_or, getLsbD_ite_zero, BitVec.getLsbD_and, BitVec.getLsbD_not, hi, decide_true, Bool.true_and]
  cases a.getLsbD i <;> cases b.getLsbD i <;> cases d.getLsbD i <;> simp

end Sys2Proof.Machine
end

section
/-! 05 R100-R104: bit counts, bit fields, compares and guard logic. -/

namespace Sys2Proof.Machine

theorem bitCounts_write (o : SU) :
    WritesSVal (.popc o) (.popc o) o.rd (fun s => .ofNat 64 ((List.range 64).filter fun i => (sv s o.ra).getLsbD i).length) ∧
    WritesS (.clz o) (.clz o) o.rd (fun s v => v.toNat ≤ 64 ∧ (sv s o.ra).toNat < 2 ^ (64 - v.toNat) ∧ (v.toNat < 64 → 2 ^ (63 - v.toNat) ≤ (sv s o.ra).toNat)) ∧
    WritesS (.ctz o) (.ctz o) o.rd (fun s v => v.toNat ≤ 64 ∧ (∀ i, i < v.toNat → (sv s o.ra).getLsbD i = false) ∧
      (v.toNat < 64 → (sv s o.ra).getLsbD v.toNat = true)) := by
  refine ⟨writesS_of_sem (fun iss => .ofNat 64 (popcount (rs iss o.ra))) rfl (guardOf_s_SU rfl rfl) (fun _ => rfl) (fun _ _ => rfl) fun s => ?_,
    writesS_of_sem (fun iss => .ofNat 64 (leadingZeros (rs iss o.ra))) rfl (guardOf_s_SU rfl rfl) (fun _ => rfl) (fun _ _ => rfl) fun s => ?_,
    writesS_of_sem (fun iss => .ofNat 64 (trailingZeros (rs iss o.ra))) rfl (guardOf_s_SU rfl rfl) (fun _ => rfl) (fun _ _ => rfl) fun s => ?_⟩
  · exact congrArg (BitVec.ofNat 64) (popcount_eq (sv s o.ra))
  · have h := leadingZeros_spec (sv s o.ra)
    rwa [← toNat_ofNat_count h.1] at h
  · have h := trailingZeros_spec (sv s o.ra)
    rwa [← toNat_ofNat_count h.1] at h

theorem bitFields_write (o : SR) :
    WritesS (.bext o) (.bext o) o.rd (fun s v => ∀ i, i < 64 → v.getLsbD i =
      (decide (i ≤ ((sv s o.rb).toNat / 256) % 64) && (sv s o.ra).getLsbD ((sv s o.rb).toNat % 64 + i))) ∧
    WritesS (.bins o) (.bins o) o.rd (fun s v => ∀ i, i < 64 → v.getLsbD i =
      if (sv s o.rb).toNat % 64 ≤ i ∧ i ≤ (sv s o.rb).toNat % 64 + ((sv s o.rb).toNat / 256) % 64 then (sv s o.ra).getLsbD (i - (sv s o.rb).toNat % 64)
      else (sv s o.rd).getLsbD i) :=
  ⟨writesS_of_sem (fun iss => bitExtract (rs iss o.ra) (rs iss o.rb)) rfl (guardOf_s_SR rfl rfl) (fun _ => rfl) (fun _ _ => rfl)
      fun s => getLsbD_bitExtract (sv s o.ra) (sv s o.rb),
    writesS_of_sem (fun iss => bitInsert (rs iss o.rd) (rs iss o.ra) (rs iss o.rb)) rfl (guardOf_s_SR rfl rfl) (fun _ => rfl) (fun _ _ => rfl)
      fun s => getLsbD_bitInsert (sv s o.rd) (sv s o.ra) (sv s o.rb)⟩

theorem movk_write (o : SJ) :
    WritesS (.movkH1 o) (.movkH1 o) o.rd (fun s v => ∀ i, i < 64 → v.getLsbD i = if 14 ≤ i ∧ i < 28 then o.imm.getLsbD (i - 14) else (sv s o.rd).getLsbD i) ∧
    WritesS (.movkH2 o) (.movkH2 o) o.rd (fun s v => ∀ i, i < 64 → v.getLsbD i = if 28 ≤ i ∧ i < 42 then o.imm.getLsbD (i - 28) else (sv s o.rd).getLsbD i) ∧
    WritesS (.movkH3 o) (.movkH3 o) o.rd (fun s v => ∀ i, i < 64 → v.getLsbD i = if 42 ≤ i ∧ i < 56 then o.imm.getLsbD (i - 42) else (sv s o.rd).getLsbD i) :=
  ⟨writesS_of_sem (fun iss => insertBits (rs iss o.rd) 14 14 o.imm.toNat) rfl (guardOf_s_SJ rfl rfl) (fun _ => rfl) (fun _ _ => rfl)
      fun s => getLsbD_insertBits_imm (sv s o.rd) 14 o.imm,
    writesS_of_sem (fun iss => insertBits (rs iss o.rd) 28 14 o.imm.toNat) rfl (guardOf_s_SJ rfl rfl) (fun _ => rfl) (fun _ _ => rfl)
      fun s => getLsbD_insertBits_imm (sv s o.rd) 28 o.imm,
    writesS_of_sem (fun iss => insertBits (rs iss o.rd) 42 14 o.imm.toNat) rfl (guardOf_s_SJ rfl rfl) (fun _ => rfl) (fun _ _ => rfl)
      fun s => getLsbD_insertBits_imm (sv s o.rd) 42 o.imm⟩

theorem movkH4_writes (o : SK) :
    WritesS (.movkH4 o) (.movkH4 o) o.rd (fun s v => ∀ i, i < 64 → v.getLsbD i = if 56 ≤ i then o.imm.getLsbD (i - 56) else (sv s o.rd).getLsbD i) := by
  refine writesS_of_sem (fun iss => insertBits (rs iss o.rd) 56 8 o.imm.toNat) rfl (guardOf_s_SK rfl rfl) (fun _ => rfl) (fun _ _ => rfl) fun s i hi => ?_
  simpa only [rs_loneIss, and_iff_left hi] using getLsbD_insertBits_imm (sv s o.rd) 56 o.imm i hi

theorem lop3_writes (o : Lop) :
    WritesS (.lop3 o) (.lop3 o) o.rd (fun s v => ∀ i, i < 64 → v.getLsbD i =
      (o.th ++ o.tl).getLsbD (4 * ((sv s o.ra).getLsbD i).toNat + 2 * ((sv s o.rb).getLsbD i).toNat + ((sv s o.rd).getLsbD i).toNat)) :=
  writesS_of_sem (fun iss => lop3Value (64 * o.th.toNat + o.tl.toNat) (rs iss o.ra) (rs iss o.rb) (rs iss o.rd)) rfl (guardOf_lop o) (fun _ => rfl)
    (fun iss s => (guarded_zero iss s _).symm)
    fun s i hi => (getLsbD_lop3Value _ (sv s o.ra) (sv s o.rb) (sv s o.rd) i hi).trans (bitAt_lop3Table o.th o.tl _)

theorem compares_write (o : SR) :
    WritesG (.cmpeq o) (.cmpeq o) o.rd (fun s => decide (sv s o.ra = sv s o.rb)) ∧
    WritesG (.cmpne o) (.cmpne o) o.rd (fun s => decide (sv s o.ra ≠ sv s o.rb)) ∧
    WritesG (.cmplt o) (.cmplt o) o.rd (fun s => decide ((sv s o.ra).toInt < (sv s o.rb).toInt)) ∧
    WritesG (.cmpltu o) (.cmpltu o) o.rd (fun s => decide ((sv s o.ra).toNat < (sv s o.rb).toNat)) ∧
    WritesG (.cmple o) (.cmple o) o.rd (fun s => decide ((sv s o.ra).toInt ≤ (sv s o.rb).toInt)) ∧
    WritesG (.cmpleu o) (.cmpleu o) o.rd (fun s => decide ((sv s o.ra).toNat ≤ (sv s o.rb).toNat)) := by
  refine ⟨writesG_of_sem (fun iss => rs iss o.ra == rs iss o.rb) rfl (guardOf_s_SR rfl rfl) (fun _ => rfl) (fun _ _ => rfl) fun s => ?_,
    writesG_of_sem (fun iss => rs iss o.ra != rs iss o.rb) rfl (guardOf_s_SR rfl rfl) (fun _ => rfl) (fun _ _ => rfl) fun s => ?_,
    writesG_of_sem (fun iss => (rs iss o.ra).slt (rs iss o.rb)) rfl (guardOf_s_SR rfl rfl) (fun _ => rfl) (fun _ _ => rfl) fun s => ?_,
    writesG_of_sem (fun iss => (rs iss o.ra).ult (rs iss o.rb)) rfl (guardOf_s_SR rfl rfl) (fun _ => rfl) (fun _ _ => rfl) fun s => ?_,
    writesG_of_sem (fun iss => (rs iss o.ra).sle (rs iss o.rb)) rfl (guardOf_s_SR rfl rfl) (fun _ => rfl) (fun _ _ => rfl) fun s => ?_,
    writesG_of_sem (fun iss => (rs iss o.ra).ule (rs iss o.rb)) rfl (guardOf_s_SR rfl rfl) (fun _ => rfl) (fun _ _ => rfl) fun s => ?_⟩
  · rfl
  · exact (decide_not (p := sv s o.ra = sv s o.rb)).symm
  · rfl
  · rfl
  · rfl
  · rfl

theorem guardLogic_writes (o : SR) :
    WritesG (.gand o) (.gand o) o.rd (fun s => gv s o.ra && gv s o.rb) ∧
    WritesG (.gor o) (.gor o) o.rd (fun s => gv s o.ra || gv s o.rb) ∧
    WritesG (.gxor o) (.gxor o) o.rd (fun s => gv s o.ra != gv s o.rb) :=
  ⟨writesG_of_sem (fun iss => rg iss o.ra && rg iss o.rb) rfl (guardOf_s_SR rfl rfl) (fun _ => rfl) (fun _ _ => rfl) fun _ => rfl,
    writesG_of_sem (fun iss => rg iss o.ra || rg iss o.rb) rfl (guardOf_s_SR rfl rfl) (fun _ => rfl) (fun _ _ => rfl) fun _ => rfl,
    writesG_of_sem (fun iss => rg iss o.ra != rg iss o.rb) rfl (guardOf_s_SR rfl rfl) (fun _ => rfl) (fun _ _ => rfl) fun _ => rfl⟩

theorem gnot_writes (o : SU) : WritesG (.gnot o) (.gnot o) o.rd (fun s => !(gv s o.ra)) :=
  writesG_of_sem (fun iss => !(rg iss o.ra)) rfl (guardOf_s_SU rfl rfl) (fun _ => rfl) (fun _ _ => rfl) fun _ => rfl

theorem immediateCompares_write (o : SI) :
    WritesG (.cmpeqSi o) (.cmpeqSi o) o.rd (fun s => decide (sv s o.ra = o.imm.signExtend 64)) ∧
    WritesG (.cmpltSi o) (.cmpltSi o) o.rd (fun s => decide ((sv s o.ra).toInt < o.imm.toInt)) ∧
    WritesG (.cmpltuSi o) (.cmpltuSi o) o.rd (fun s => decide ((sv s o.ra).toNat < (o.imm.signExtend 64).toNat)) := by
  refine ⟨writesG_of_sem (fun iss => rs iss o.ra == o.imm.signExtend 64) rfl (guardOf_s_SI rfl rfl) (fun _ => rfl) (fun _ _ => rfl) fun s => ?_,
    writesG_of_sem (fun iss => (rs iss o.ra).slt (o.imm.signExtend 64)) rfl (guardOf_s_SI rfl rfl) (fun _ => rfl) (fun _ _ => rfl) fun s => ?_,
    writesG_of_sem (fun iss => (rs iss o.ra).ult (o.imm.signExtend 64)) rfl (guardOf_s_SI rfl rfl) (fun _ => rfl) (fun _ _ => rfl) fun s => ?_⟩
  · rfl
  · have h : (o.imm.signExtend 64).toInt = o.imm.toInt := BitVec.toInt_signExtend_of_le (by decide)
    exact congrArg (fun k => decide ((sv s o.ra).toInt < k)) h
  · rfl

/-- Settles O2: each form is the guarded write of one register, whose value the lemma of its operation gives bit by bit. -/
theorem scalarBitsAndGuards : Obligations.ScalarBitsAndGuards := by
  refine ⟨⟨bitCounts_write, bitFields_write, movk_write, movkH4_writes, lop3_writes⟩, fun o => ?_, gnot_writes, immediateCompares_write⟩
  obtain ⟨heq, hne, hlt, hltu, hle, hleu⟩ := compares_write o
  exact ⟨heq, hne, hlt, hltu, hle, hleu, guardLogic_writes o⟩

end Sys2Proof.Machine
end

section
/-! The issue of an L syllable: what it leaves where its meaning answers, and its trap. -/

namespace Sys2Proof.Machine

/-- A syllable of the L slot reads no port, so it passes the checks at decode. -/
theorem passesChecks_l {s : State} (h : Calm s) (y : LSyl) (hw : wfSyl (.l y) = true) : PassesChecks s (.l y) :=
  passesChecks_scalar h _ hw (by simp [Syl.slot, Slot.num]) (by simp [Syl.slot, Slot.num]) (by simp [Syl.slot, Slot.num]) (fun _ => rfl) rfl rfl

/-- The commit keeps the delay of the next bundle that the slot's effect sets (05 R111). -/
theorem loneCommit_gap {s : State} (y : Syl) (t : State) (hrow : s.cx.run.rows = []) (ho : t = { s with cx := t.cx }) (hp : t.cx.run.post = none)
    (hh : t.cx.run.hold = none) : (loneCommit s y t).cx.run.gap = t.cx.run.gap := by
  have hd : ∀ u, dualRecords s u [loneSlot y] [] = u := by intro u; unfold dualRecords; cases primKernel s s.cid <;> rfl
  have hm : ∀ u : State, remaskRows s (loneView s y) [loneSlot y] u = u := by intro u; unfold remaskRows; rw [hrow]; split <;> rfl
  have hc : s.cid = t.cid := (congrArg State.cid ho).symm
  have hg : ∀ x, getCtx { t with cx := x } s.cid = x := fun x => if_pos hc
  unfold loneCommit commit
  dsimp only
  rw [movLast_lone, hm, hd]
  generalize hx : Ctx.mk _ _ _ _ _ _ _ _ _ _ = x
  obtain ⟨w, hw⟩ := countBoundary_eq x
  rw [hw]
  unfold afterIssue
  rw [hg]
  subst hx
  simp only [hp, hh, reduceCtorEq, false_and, if_false]

/-- The state that the effect of an L syllable leaves before the commit: registers, vector files and the costs of the issue are given, the rest is
as the slot saw it. -/
def lEffect (s : State) (y : LSyl) (r : Regs) (va vb : VFile) (gap : Nat) (boundary : Bool) : State :=
  { s with cx := { loneView s (.l y) with
      r := r, va := va, vb := vb, run := { (loneView s (.l y)).run with gap := gap, boundary := boundary } } }

/-- An L syllable whose meaning answers leaves its registers and files, and the delay it sets. -/
theorem exec_lEffect {s : State} {i : Instr} {y : LSyl} {r : Regs} {va vb : VFile} {gap : Nat} {boundary : Bool} (h : Ready s (.l y))
    (hi : instrOf (.l y) = i) (hs : semL y (loneIss s (.l y)) (loneStart s (.l y)) = .ok (lEffect s y r va vb gap boundary)) :
    ∃ t, exec i s = .next t ∧ SameMemory s t ∧ t.cx.run.gap = gap ∧ Leaves s t { s.cx with r := r, va := va, vb := vb } := by
  obtain ⟨hc, hw, hon⟩ := h
  have hp := passesChecks_l hc y hw
  have hl := issue_leaves hc _ hw hp rfl hon _ hs rfl ⟨rfl, rfl, rfl, rfl⟩ rfl
  refine ⟨_, hi ▸ exec_instrOf (.l y) s, hl.sameMemory rfl, ?_, hl.congr rfl rfl rfl rfl rfl rfl rfl ?_ rfl⟩
  · rw [issueLone_ok hc _ hw hp rfl hon _ hs]
    exact loneCommit_gap (.l y) _ hc.rows rfl hc.post hc.hold
  · show { (loneView s (.l y)).ctl with sticky := s.cx.ctl.sticky } = s.cx.ctl
    rw [loneView_ctl _ rfl]

/-- The same for an effect on the registers alone, with no delay. -/
theorem exec_registers {s : State} {i : Instr} {y : LSyl} {r : Regs} (h : Ready s (.l y)) (hi : instrOf (.l y) = i)
    (hs : semL y (loneIss s (.l y)) (loneStart s (.l y)) = .ok (lEffect s y r s.cx.va s.cx.vb 0 false)) :
    ∃ t, exec i s = .next t ∧ SameMemory s t ∧ Leaves s t { s.cx with r := r } := by
  obtain ⟨t, ht, hmem, _, hl⟩ := exec_lEffect h hi hs
  exact ⟨t, ht, hmem, hl⟩

/-- An L syllable whose meaning refuses its operands traps with ILLEGAL_FORM, reported for its slot. -/
theorem traps_illegalForm {s : State} {i : Instr} {y : LSyl} (h : Ready s (.l y)) (hi : instrOf (.l y) = i)
    (hs : semL y (loneIss s (.l y)) (loneStart s (.l y)) = trapWith illegalForm) : Traps i s 0x04 0 1 := by
  obtain ⟨hc, hw, hon⟩ := h
  have ht := issueLone_trap hc _ hw (passesChecks_l hc y hw) rfl hon _ hs
  exact hi ▸ (exec_instrOf (.l y) s).trans (congrArg _ ht)

/-- The registers as an L syllable sees them: the pc stands at the next bundle. -/
theorem loneView_l_r {s : State} {y : LSyl} (h : Ready s (.l y)) : (loneView s (.l y)).r = { s.cx.r with pc := s.cx.r.pc + 8 } :=
  loneView_r32 h.1 _ rfl

/-- A bundle of one L syllable is 8 bytes long. -/
theorem loneIss_l_next (s : State) (y : LSyl) : (loneIss s (.l y)).next = s.cx.r.pc + 8 := by
  show s.cx.r.pc + BitVec.ofNat 32 (4 + 32 / 8) = _
  rfl

/-- An L syllable is guarded by its own guard field. -/
theorem guarded_l {s : State} {y : LSyl} {g : BitVec 4} (h : Ready s (.l y)) (hg : guardOf (.l y) = g) (t : State) (f : Res) :
    guarded (loneIss s (.l y)) g t f = f := guarded_on _ _ (hg ▸ h.2.2) t f

/-- Past a check that holds, an L syllable does the rest of its meaning. -/
theorem guarded_must {s : State} {y : LSyl} {g : BitVec 4} (h : Ready s (.l y)) (hg : guardOf (.l y) = g) (t : State) {ok : Bool} (hok : ok = true)
    (code : Byte) (f : Res) : guarded (loneIss s (.l y)) g t (do must ok code; f) = f := by
  rw [guarded_l h hg, hok]
  rfl

/-- A check that fails is the whole meaning of an L syllable. -/
theorem guarded_must_not {s : State} {y : LSyl} {g : BitVec 4} (h : Ready s (.l y)) (hg : guardOf (.l y) = g) (t : State) {ok : Bool} (hok : ok = false)
    (code : Byte) (f : Res) : guarded (loneIss s (.l y)) g t (do must ok code; f) = trapWith code := by
  rw [guarded_l h hg, hok]
  rfl

end Sys2Proof.Machine
end

section
/-! 05 R111, R115-R117: branches, bases, stage predicates, refetch. -/

namespace Sys2Proof.Machine

/-- The target of a branch, as the statements give it. -/
def branchPc (s : State) (off : BitVec 20) : W32 := s.cx.r.pc + off.signExtend 32 * 4

theorem br_goes (o : LB) (s : State) (h : Ready s (.l (.br o))) : ∃ t, exec (.br o) s = .next t ∧ SameMemory s t ∧ t.cx.run.gap = 2 ∧
    Leaves s t { s.cx with r := { s.cx.r with pc := branchPc s o.off } } := by
  have hs : semL (.br o) (loneIss s (.l (.br o))) (loneStart s (.l (.br o))) =
      .ok (lEffect s (.br o) { s.cx.r with pc := branchPc s o.off } s.cx.va s.cx.vb 2 false) := guarded_l h (guardOf_l_LB rfl) _ _
  exact exec_lEffect h rfl hs

theorem call_pushes (o : LB) (s : State) (h : Ready s (.l (.call o))) (hroom : s.cx.r.rstack.length < 8) :
    ∃ t, exec (.call o) s = .next t ∧ SameMemory s t ∧ t.cx.run.gap = 2 ∧
      Leaves s t { s.cx with r := { s.cx.r with pc := branchPc s o.off, rstack := s.cx.r.rstack ++ [s.cx.r.pc + 8] } } := by
  have hs : semL (.call o) (loneIss s (.l (.call o))) (loneStart s (.l (.call o))) =
      .ok (lEffect s (.call o) { s.cx.r with pc := branchPc s o.off, rstack := s.cx.r.rstack ++ [s.cx.r.pc + 8] } s.cx.va s.cx.vb 2 false) := by
    refine (guarded_must h (guardOf_l_LB rfl) _ (decide_eq_true hroom) _ _).trans ?_
    rw [loneIss_l_next]
    rfl
  exact exec_lEffect h rfl hs

theorem call_traps_full (o : LB) (s : State) (h : Ready s (.l (.call o))) (hfull : 8 ≤ s.cx.r.rstack.length) : Traps (.call o) s 0x04 0 1 :=
  traps_illegalForm h rfl (guarded_must_not h (guardOf_l_LB rfl) _ (decide_eq_false (Nat.not_lt.mpr hfull)) _ _)

theorem ret_pops (o : SG) (s : State) (h : Ready s (.l (.ret o))) (l : List W32) (a : W32) (hl : s.cx.r.rstack = l ++ [a]) :
    ∃ t, exec (.ret o) s = .next t ∧ SameMemory s t ∧ t.cx.run.gap = 2 ∧ Leaves s t { s.cx with r := { s.cx.r with pc := a, rstack := l } } := by
  have hlast : (loneIss s (.l (.ret o))).v.r.rstack.getLast? = some a := (congrArg List.getLast? hl).trans (by simp)
  have hinit : (loneIss s (.l (.ret o))).v.r.rstack.dropLast = l := (congrArg List.dropLast hl).trans (by simp)
  have hs : semL (.ret o) (loneIss s (.l (.ret o))) (loneStart s (.l (.ret o))) =
      .ok (lEffect s (.ret o) { s.cx.r with pc := a, rstack := l } s.cx.va s.cx.vb 2 false) := by
    refine (guarded_l h (guardOf_l_SG rfl) _ _).trans ?_
    simp only [hlast, hinit]
    rfl
  exact exec_lEffect h rfl hs

theorem ret_traps_empty (o : SG) (s : State) (h : Ready s (.l (.ret o))) (he : s.cx.r.rstack = []) : Traps (.ret o) s 0x04 0 1 := by
  have hlast : (loneIss s (.l (.ret o))).v.r.rstack.getLast? = none := congrArg List.getLast? he
  refine traps_illegalForm h rfl ((guarded_l h (guardOf_l_SG rfl) _ _).trans ?_)
  simp only [hlast]

theorem bset_writes (o : LS) (s : State) (h : Ready s (.l (.bset o))) : ∃ t, exec (.bset o) s = .next t ∧ SameMemory s t ∧
    Leaves s t { s.cx with r := { s.cx.r with pc := s.cx.r.pc + 8, b := cellSet s.cx.r.b o.b.toNat (o.imm.signExtend 32) } } := by
  have hs : semL (.bset o) (loneIss s (.l (.bset o))) (loneStart s (.l (.bset o))) =
      .ok (lEffect s (.bset o) (bSet (loneView s (.l (.bset o))).r o.b.toNat (o.imm.signExtend 32)) s.cx.va s.cx.vb 0 false) :=
    guarded_l h (guardOf_l_LS rfl) _ _
  rw [loneView_l_r h] at hs
  exact exec_registers h rfl hs

theorem bstep_writes (o : LS) (s : State) (h : Ready s (.l (.bstep o))) : ∃ t, exec (.bstep o) s = .next t ∧ SameMemory s t ∧
    Leaves s t { s.cx with r := { s.cx.r with pc := s.cx.r.pc + 8, bstep := cellSet s.cx.r.bstep o.b.toNat (o.imm.signExtend 32) } } := by
  have hs : semL (.bstep o) (loneIss s (.l (.bstep o))) (loneStart s (.l (.bstep o))) =
      .ok (lEffect s (.bstep o) { (loneView s (.l (.bstep o))).r with bstep := cellSet s.cx.r.bstep o.b.toNat (o.imm.signExtend 32) } s.cx.va s.cx.vb 0 false) :=
    guarded_l h (guardOf_l_LS rfl) _ _
  rw [loneView_l_r h] at hs
  exact exec_registers h rfl hs

theorem qset_writes (o : LQ) (s : State) (h : Ready s (.l (.qset o))) : ∃ t, exec (.qset o) s = .next t ∧ SameMemory s t ∧
    Leaves s t { s.cx with r := { s.cx.r with pc := s.cx.r.pc + 8, q := o.q } } := by
  have hs : semL (.qset o) (loneIss s (.l (.qset o))) (loneStart s (.l (.qset o))) =
      .ok (lEffect s (.qset o) { (loneView s (.l (.qset o))).r with q := o.q } s.cx.va s.cx.vb 0 false) := guarded_l h (guardOf_l_LQ rfl) _ _
  rw [loneView_l_r h] at hs
  exact exec_registers h rfl hs

theorem ifence_delays (o : SG) (s : State) (h : Ready s (.l (.ifence o))) : ∃ t, exec (.ifence o) s = .next t ∧ SameMemory s t ∧ t.cx.run.gap = 12 ∧
    Leaves s t { s.cx with r := { s.cx.r with pc := s.cx.r.pc + 8 } } := by
  have hs : semL (.ifence o) (loneIss s (.l (.ifence o))) (loneStart s (.l (.ifence o))) =
      .ok (lEffect s (.ifence o) { s.cx.r with pc := s.cx.r.pc + 8 } s.cx.va s.cx.vb 12 false) := by
    refine (guarded_l h (guardOf_l_SG rfl) _ _).trans ?_
    rw [loneIss_l_next]
    rfl
  exact exec_lEffect h rfl hs

/-- Settles O13: each syllable's meaning is its effect on the registers and the delay, or the trap of a full or empty return stack. -/
theorem branchesAndPredicates : Obligations.BranchesAndPredicates :=
  ⟨⟨br_goes, fun o s h => ⟨call_pushes o s h, call_traps_full o s h⟩, fun o s h => ⟨ret_pops o s h, ret_traps_empty o s h⟩⟩,
    bset_writes, bstep_writes, qset_writes, ifence_delays⟩

end Sys2Proof.Machine
end

section
/-! The parts of a loop's registers: stage predicates, bases, loop registers, rotated files (05 R112-R115). -/

namespace Sys2Proof.Machine

/-! ### Loop registers -/

theorem loopGet_loopSet_same (r : Regs) (n : Nat) (l : Loop) (h : n < 4) : loopGet (loopSet r n l) n = l := by
  simp [loopGet, loopSet, h]

theorem loopGet_loopSet_other (r : Regs) (n k : Nat) (l : Loop) (h : k ≠ n) : loopGet (loopSet r n l) k = loopGet r k := by
  simp [loopGet, loopSet, h.symm]

/-! ### Stage predicates -/

theorem getLsbD_stageMask (stages j : Nat) (hj : j < 8) : (BitVec.ofNat 8 (2 ^ stages - 1)).getLsbD j = decide (j < stages) := by
  simp only [BitVec.getLsbD_ofNat, Nat.testBit_two_pow_sub_one, hj, decide_true, Bool.true_and]

theorem getLsbD_ite_one (c : Bool) (j : Nat) : (if c then 1 else 0 : BitVec 8).getLsbD j = (c && decide (j = 0)) := by
  cases c <;> simp [BitVec.getLsbD_one]

theorem getLsbD_loopStages (q : BitVec 8) (stages : Nat) (c : Bool) (j : Nat) (hs : 1 ≤ stages) (hj : j < 8) :
    (loopStages q stages c).getLsbD j = if j = 0 then c else if j < stages then false else q.getLsbD j := by
  simp only [loopStages, BitVec.getLsbD_or, BitVec.getLsbD_and, BitVec.getLsbD_not, getLsbD_stageMask _ _ hj, getLsbD_ite_one, hj]
  by_cases h0 : j = 0
  · subst h0
    have hin : 0 < stages := hs
    simp [hin]
  · by_cases hin : j < stages <;> simp [h0, hin]

theorem getLsbD_shiftStages (q : BitVec 8) (stages : Nat) (more : Bool) (j : Nat) (hj : j < 8) :
    (shiftStages q stages more).getLsbD j = if j < stages then (if j = 0 then more else q.getLsbD (j - 1)) else q.getLsbD j := by
  simp only [shiftStages, BitVec.getLsbD_or, BitVec.getLsbD_and, BitVec.getLsbD_not, BitVec.getLsbD_shiftLeft, getLsbD_stageMask _ _ hj, getLsbD_ite_one, hj]
  by_cases hin : j < stages
  · by_cases h0 : j = 0
    · subst h0
      simp [hin]
    · have h1 : ¬ j < 1 := by omega
      simp [hin, h0, h1]
  · simp [hin]

/-! ### Bases -/

/-- Base `k` after the end of a pass (05 R115). -/
def stepBase (v r : Regs) (k : Nat) : Regs := if cellGet v.bstep k = 0 then r else bSet r k (bGet v k + cellGet v.bstep k)

theorem stepBases_eq_foldl (v r : Regs) : stepBases v r = (List.range 8).foldl (stepBase v) r := rfl

theorem bGet_stepBase_same (v r : Regs) (k : Nat) (h : bGet r k = bGet v k) : bGet (stepBase v r k) k = bGet v k + cellGet v.bstep k := by
  unfold stepBase
  split
  · rename_i h0
    exact h.trans ((congrArg (bGet v k + ·) h0).trans (BitVec.add_zero _)).symm
  · exact cellGet_cellSet_same _ _ _

theorem bGet_stepBase_other (v r : Regs) (k j : Nat) (h : j ≠ k) : bGet (stepBase v r k) j = bGet r j := by
  unfold stepBase
  split
  · rfl
  · exact cellGet_cellSet_other _ _ _ _ h

theorem stepBase_frame (v r : Regs) (k : Nat) : stepBase v r k = { r with b := (stepBase v r k).b } := by
  unfold stepBase
  split <;> rfl

theorem foldl_stepBase_frame (v : Regs) (l : List Nat) (r : Regs) : l.foldl (stepBase v) r = { r with b := (l.foldl (stepBase v) r).b } := by
  induction l generalizing r with
  | nil => rfl
  | cons k l ih =>
    rw [List.foldl_cons, ih, stepBase_frame v r k]

theorem bGet_foldl_stepBase_other (v : Regs) (l : List Nat) (r : Regs) (j : Nat) (h : j ∉ l) : bGet (l.foldl (stepBase v) r) j = bGet r j := by
  induction l generalizing r with
  | nil => rfl
  | cons k l ih =>
    rw [List.mem_cons, not_or] at h
    rw [List.foldl_cons, ih _ h.2, bGet_stepBase_other v r k j h.1]

theorem bGet_foldl_stepBase (v : Regs) (l : List Nat) (r : Regs) (j : Nat) (hd : l.Nodup) (hj : j ∈ l) (hr : bGet r j = bGet v j) :
    bGet (l.foldl (stepBase v) r) j = bGet v j + cellGet v.bstep j := by
  induction l generalizing r with
  | nil => cases hj
  | cons k l ih =>
    obtain ⟨hk, hd⟩ := List.nodup_cons.mp hd
    rw [List.foldl_cons]
    by_cases h : j = k
    · subst h
      rw [bGet_foldl_stepBase_other v l _ j hk, bGet_stepBase_same v r j hr]
    · exact ih _ hd (List.mem_of_ne_of_mem h hj) ((bGet_stepBase_other v r k j h).trans hr)

theorem stepBases_frame (v r : Regs) : stepBases v r = { r with b := (stepBases v r).b } := foldl_stepBase_frame v _ r

theorem bGet_stepBases (r : Regs) (k : Nat) (h : k < 8) : bGet (stepBases r r) k = bGet r k + cellGet r.bstep k :=
  bGet_foldl_stepBase r _ r k List.nodup_range (List.mem_range.mpr h) rfl

/-! ### Rotation -/

/-- A file after the end of a pass (05 R113). -/
def turnedFile (f : VFile) : VFile := if f.base = 0 then f else { f with rot := .ofNat 11 ((f.rot.toNat + 1) % (2048 - f.base.toNat)) }

theorem rotateFile_self (v x : Ctx) (sd : Side) (h : vfile x sd = vfile v sd) : rotateFile v x sd = setVFile x sd (turnedFile (vfile v sd)) := by
  have hz : (vfile v sd).base.toNat = 0 ↔ (vfile v sd).base = 0 := (BitVec.toNat_eq (y := 0)).symm
  unfold rotateFile turnedFile
  simp only [hz]
  split
  · rw [← h]
    cases sd <;> rfl
  · rw [h]

theorem rotateFile_both (x : Ctx) : rotateFile x (rotateFile x x .a) .b = { x with va := turnedFile x.va, vb := turnedFile x.vb } := by
  rw [rotateFile_self x (rotateFile x x .a) .b (by rw [rotateFile_self x x .a rfl]; rfl), rotateFile_self x x .a rfl]
  rfl

end Sys2Proof.Machine
end

section
/-! 05 R112: the start of a loop. -/

namespace Sys2Proof.Machine

/-- A loop register just after its `loop`. -/
def freshLoop (cnt stages : Nat) (start : W32) (seq : Nat) : Loop :=
  { count := .ofNat 32 cnt, stages := .ofNat 32 stages, iter := 0, passes := if 1 ≤ cnt then cnt + stages - 1 else 1
    start := start, active := true, exit := false, seq := seq }

theorem startLoop_eq (l : BitVec 2) (cnt stages : Nat) (iss : Iss) (s : State) : ∃ seq, startLoop l cnt stages iss s =
    putR s { loopSet s.cx.r l.toNat (freshLoop cnt stages iss.next seq) with q := loopStages s.cx.r.q stages (decide (1 ≤ cnt)) } := ⟨_, rfl⟩

/-- Loop `n` has started with `cnt` iterations and `stages` stages at the next bundle; nothing else has changed. -/
def LoopStarted (s t : State) (n cnt stages : Nat) : Prop :=
  SameMemory s t ∧ Leaves s t { s.cx with r := { s.cx.r with pc := s.cx.r.pc + 8, loops := t.cx.r.loops, q := t.cx.r.q } } ∧
  (∀ k, k ≠ n → loopGet t.cx.r k = loopGet s.cx.r k) ∧
  (let l := loopGet t.cx.r n
   l.count.toNat = cnt ∧ l.stages.toNat = stages ∧ l.iter = 0 ∧ l.passes = (if 1 ≤ cnt then cnt + stages - 1 else 1) ∧
   l.start = s.cx.r.pc + 8 ∧ l.active = true ∧ l.exit = false) ∧
  ∀ j, j < 8 → qGet t.cx.r j = if j = 0 then decide (1 ≤ cnt) else if j < stages then false else qGet s.cx.r j

/-- A syllable whose meaning is the start of a loop starts it. -/
theorem exec_startLoop {s : State} {i : Instr} {y : LSyl} (h : Ready s (.l y)) (hi : instrOf (.l y) = i) (l : BitVec 2) (cnt stages : Nat)
    (hcnt : cnt < 2 ^ 32) (hst : 1 ≤ stages) (hst' : stages < 2 ^ 32)
    (hs : semL y (loneIss s (.l y)) (loneStart s (.l y)) = .ok (startLoop l cnt stages (loneIss s (.l y)) (loneStart s (.l y)))) :
    ∃ t, exec i s = .next t ∧ LoopStarted s t l.toNat cnt stages := by
  obtain ⟨seq, he⟩ := startLoop_eq l cnt stages (loneIss s (.l y)) (loneStart s (.l y))
  have hr : (loneStart s (.l y)).cx.r = { s.cx.r with pc := s.cx.r.pc + 8 } := loneView_l_r h
  rw [he, hr, loneIss_l_next] at hs
  obtain ⟨t, ht, hmem, hl⟩ := exec_registers h hi hs
  have hregs := hl.r
  refine ⟨t, ht, hmem, ?_, fun k hk => ?_, ?_, fun j hj => ?_⟩
  · exact hl.congr (by rw [hregs]; rfl) rfl rfl rfl rfl rfl rfl rfl rfl
  · rw [hregs]
    exact loopGet_loopSet_other s.cx.r l.toNat k _ hk
  · have hloop : loopGet t.cx.r l.toNat = freshLoop cnt stages (s.cx.r.pc + 8) seq := by
      rw [hregs]
      exact loopGet_loopSet_same s.cx.r l.toNat _ l.isLt
    rw [hloop]
    exact ⟨Nat.mod_eq_of_lt hcnt, Nat.mod_eq_of_lt hst', rfl, rfl, rfl, rfl, rfl⟩
  · rw [hregs]
    exact getLsbD_loopStages s.cx.r.q stages _ j hst hj

theorem stageCount_bounds (st : BitVec 4) : 1 ≤ st.toNat + 1 ∧ st.toNat + 1 < 2 ^ 32 := by omega

theorem loopImm_starts (o : LI) (s : State) (h : Ready s (.l (.loopImm o))) :
    ∃ t, exec (.loopImm o) s = .next t ∧ LoopStarted s t o.l.toNat o.cnt.toNat (o.st.toNat + 1) := by
  obtain ⟨hlo, hhi⟩ := stageCount_bounds o.st
  exact exec_startLoop h rfl o.l o.cnt.toNat (o.st.toNat + 1) (by omega) hlo hhi (guarded_l h (guardOf_l_LI rfl) _ _)

theorem loop_starts (o : LP) (s : State) (h : Ready s (.l (.loop o))) (hcnt : (sv s o.s).toNat < 2 ^ 32) :
    ∃ t, exec (.loop o) s = .next t ∧ LoopStarted s t o.l.toNat (sv s o.s).toNat (o.st.toNat + 1) := by
  obtain ⟨hlo, hhi⟩ := stageCount_bounds o.st
  exact exec_startLoop h rfl o.l (sv s o.s).toNat (o.st.toNat + 1) hcnt hlo hhi (guarded_must h (guardOf_l_LP rfl) _ (decide_eq_true hcnt) _ _)

theorem loop_traps_count (o : LP) (s : State) (h : Ready s (.l (.loop o))) (hcnt : 2 ^ 32 ≤ (sv s o.s).toNat) : Traps (.loop o) s 0x04 0 1 :=
  traps_illegalForm h rfl (guarded_must_not h (guardOf_l_LP rfl) _ (decide_eq_false (Nat.not_lt.mpr hcnt)) _ _)

end Sys2Proof.Machine
end

section
/-! 05 R113, R114: the end of a pass and the exit mark. -/

namespace Sys2Proof.Machine

/-- The loop goes back to its start: passes are left and no `lexit` has marked it. -/
def goesAgain (l : Loop) : Bool := decide (l.iter + 1 < l.passes) && !l.exit

theorem goesAgain_iff (l : Loop) : goesAgain l = true ↔ l.iter + 1 < l.passes ∧ (!l.exit) = true := by
  simp [goesAgain]

/-- The loop register after the end of a pass. -/
def passedLoop (l : Loop) : Loop := { l with iter := l.iter + 1, active := goesAgain l }

/-- The registers after the end of a pass of loop `n`, from registers whose pc stands at the next bundle. -/
def lendRegs (r : Regs) (n : Nat) : Regs :=
  let l := loopGet r n
  { loopSet r n (passedLoop l) with
    b := (stepBases r r).b
    q := if goesAgain l then shiftStages r.q l.stages.toNat (decide (l.iter + 1 < l.count.toNat)) else r.q
    pc := if goesAgain l then l.start else r.pc }

theorem lendRegs_frame (r : Regs) (n : Nat) : lendRegs r n =
    { r with pc := if goesAgain (loopGet r n) then (loopGet r n).start else r.pc, b := (lendRegs r n).b, loops := (lendRegs r n).loops, q := (lendRegs r n).q } :=
  rfl

theorem lendRegs_of_again {r : Regs} {n : Nat} (ha : (loopGet r n).active = true) (hg : goesAgain (loopGet r n) = true) : lendRegs r n =
    { loopSet (stepBases r r) n { loopGet r n with iter := (loopGet r n).iter + 1 } with
      q := shiftStages r.q (loopGet r n).stages.toNat (decide ((loopGet r n).iter + 1 < (loopGet r n).count.toNat)), pc := (loopGet r n).start } := by
  rw [stepBases_frame]
  simp only [lendRegs, passedLoop, hg, ← ha, if_true]
  rfl

theorem lendRegs_of_last {r : Regs} {n : Nat} (hg : goesAgain (loopGet r n) = false) : lendRegs r n =
    loopSet (stepBases r r) n { loopGet r n with iter := (loopGet r n).iter + 1, active := false } := by
  rw [stepBases_frame]
  simp only [lendRegs, passedLoop, hg, Bool.false_eq_true, if_false]
  rfl

theorem bGet_lendRegs (r : Regs) (n k : Nat) (h : k < 8) : bGet (lendRegs r n) k = bGet r k + cellGet r.bstep k := bGet_stepBases r k h

theorem loopGet_lendRegs_same (r : Regs) (n : Nat) (h : n < 4) : loopGet (lendRegs r n) n = passedLoop (loopGet r n) := loopGet_loopSet_same r n _ h

theorem loopGet_lendRegs_other (r : Regs) (n k : Nat) (h : k ≠ n) : loopGet (lendRegs r n) k = loopGet r k := loopGet_loopSet_other r n k _ h

theorem qGet_lendRegs (r : Regs) (n j : Nat) (hj : j < 8) : qGet (lendRegs r n) j =
    if goesAgain (loopGet r n) && decide (j < (loopGet r n).stages.toNat) then
      (if j = 0 then decide ((loopGet r n).iter + 1 < (loopGet r n).count.toNat) else qGet r (j - 1)) else qGet r j := by
  rw [show qGet (lendRegs r n) j = (if goesAgain (loopGet r n) then shiftStages r.q (loopGet r n).stages.toNat
    (decide ((loopGet r n).iter + 1 < (loopGet r n).count.toNat)) else r.q).getLsbD j from rfl]
  cases goesAgain (loopGet r n) with
  | false => rfl
  | true => simpa only [qGet, if_true, Bool.true_and, decide_eq_true_eq] using getLsbD_shiftStages r.q (loopGet r n).stages.toNat _ j hj

/-- What `lend` does on an active loop. -/
theorem semLend_active (o : LE) (s : State) (h : Ready s (.l (.lend o))) (ha : (loopGet s.cx.r o.l.toNat).active = true) :
    ∃ boundary, semL (.lend o) (loneIss s (.l (.lend o))) (loneStart s (.l (.lend o))) =
      .ok (lEffect s (.lend o) (lendRegs (loneView s (.l (.lend o))).r o.l.toNat) (turnedFile s.cx.va) (turnedFile s.cx.vb) 0 boundary) := by
  have hv : (loneIss s (.l (.lend o))).v = loneView s (.l (.lend o)) := rfl
  have hc : (loneStart s (.l (.lend o))).cx = loneView s (.l (.lend o)) := rfl
  replace ha : (loopGet (loneView s (.l (.lend o))).r o.l.toNat).active = true := ha
  refine ⟨(currentLoop (loneView s (.l (.lend o))).r).map (·.1) == some o.l.toNat, (guarded_must h (guardOf_l_LE rfl) _ ha _ _).trans ?_⟩
  simp only [hv, hc, rotateFile_both, ← goesAgain_iff]
  cases hg : goesAgain (loopGet (loneView s (.l (.lend o))).r o.l.toNat) with
  | true =>
    rw [lendRegs_of_again ha hg]
    rfl
  | false =>
    rw [lendRegs_of_last hg]
    rfl

theorem lend_turns (o : LE) (s : State) (h : Ready s (.l (.lend o))) (ha : (loopGet s.cx.r o.l.toNat).active = true) :
    let l := loopGet s.cx.r o.l.toNat
    ∃ t, exec (.lend o) s = .next t ∧ SameMemory s t ∧ t.cx.run.gap = 0 ∧
      Leaves s t { s.cx with
        r := { s.cx.r with pc := if goesAgain l then l.start else s.cx.r.pc + 8, b := t.cx.r.b, loops := t.cx.r.loops, q := t.cx.r.q }
        va := turnedFile s.cx.va, vb := turnedFile s.cx.vb } ∧
      (∀ k, k < 8 → bGet t.cx.r k = bGet s.cx.r k + cellGet s.cx.r.bstep k) ∧ (∀ k, k ≠ o.l.toNat → loopGet t.cx.r k = loopGet s.cx.r k) ∧
      loopGet t.cx.r o.l.toNat = passedLoop l ∧
      ∀ j, j < 8 → qGet t.cx.r j =
        if goesAgain l && decide (j < l.stages.toNat) then (if j = 0 then decide (l.iter + 1 < l.count.toNat) else qGet s.cx.r (j - 1)) else qGet s.cx.r j := by
  intro l
  obtain ⟨boundary, hs⟩ := semLend_active o s h ha
  rw [loneView_l_r h] at hs
  obtain ⟨t, ht, hmem, hgap, hl⟩ := exec_lEffect h rfl hs
  have hregs : t.cx.r = lendRegs { s.cx.r with pc := s.cx.r.pc + 8 } o.l.toNat := hl.r
  refine ⟨t, ht, hmem, hgap, ?_, fun k hk => ?_, fun k hk => ?_, ?_, fun j hj => ?_⟩
  · refine hl.congr ?_ rfl rfl rfl rfl rfl rfl rfl rfl
    rw [hregs]
    exact lendRegs_frame _ _
  · rw [hregs]
    exact bGet_lendRegs _ _ k hk
  · rw [hregs]
    exact loopGet_lendRegs_other _ _ k hk
  · rw [hregs]
    exact loopGet_lendRegs_same _ _ o.l.isLt
  · rw [hregs]
    exact qGet_lendRegs _ _ j hj

theorem lend_traps_inactive (o : LE) (s : State) (h : Ready s (.l (.lend o))) (ha : (loopGet s.cx.r o.l.toNat).active = false) :
    Traps (.lend o) s 0x04 0 1 := traps_illegalForm h rfl (guarded_must_not h (guardOf_l_LE rfl) _ ha _ _)

theorem lexit_marks (o : LE) (s : State) (h : Ready s (.l (.lexit o))) (ha : (loopGet s.cx.r o.l.toNat).active = true) :
    ∃ t, exec (.lexit o) s = .next t ∧ SameMemory s t ∧
      Leaves s t { s.cx with r := { s.cx.r with pc := s.cx.r.pc + 8, loops := t.cx.r.loops } } ∧
      loopGet t.cx.r o.l.toNat = { loopGet s.cx.r o.l.toNat with exit := true } ∧ ∀ k, k ≠ o.l.toNat → loopGet t.cx.r k = loopGet s.cx.r k := by
  have hs : semL (.lexit o) (loneIss s (.l (.lexit o))) (loneStart s (.l (.lexit o))) =
      .ok (lEffect s (.lexit o) (loopSet (loneView s (.l (.lexit o))).r o.l.toNat { loopGet s.cx.r o.l.toNat with exit := true }) s.cx.va s.cx.vb 0 false) :=
    guarded_must h (guardOf_l_LE rfl) _ ha _ _
  rw [loneView_l_r h] at hs
  obtain ⟨t, ht, hmem, hl⟩ := exec_registers h rfl hs
  have hregs := hl.r
  refine ⟨t, ht, hmem, ?_, ?_, fun k hk => ?_⟩
  · exact hl.congr (by rw [hregs]; rfl) rfl rfl rfl rfl rfl rfl rfl rfl
  · rw [hregs]
    exact loopGet_loopSet_same s.cx.r _ _ o.l.isLt
  · rw [hregs]
    exact loopGet_loopSet_other s.cx.r _ k _ hk

theorem lexit_traps_inactive (o : LE) (s : State) (h : Ready s (.l (.lexit o))) (ha : (loopGet s.cx.r o.l.toNat).active = false) :
    Traps (.lexit o) s 0x04 0 1 := traps_illegalForm h rfl (guarded_must_not h (guardOf_l_LE rfl) _ ha _ _)

/-- Settles O14: a loop starts, ends a pass and is marked as the parts of its registers say; a count beyond 32 bits and an inactive loop trap. -/
theorem loops : Obligations.Loops :=
  ⟨⟨loopImm_starts, fun o s h => ⟨loop_starts o s h, loop_traps_count o s h⟩⟩,
    fun o s h => ⟨lend_turns o s h, lend_traps_inactive o s h⟩, fun o s h => ⟨lexit_marks o s h, lexit_traps_inactive o s h⟩⟩

end Sys2Proof.Machine
end
